-- ==== Sys2Proof/Word.lean ====
section
/-! DEFINITION. The word types of the VM-1: register words, pairs, masks, instruction slots and fetch lines. -/

namespace Sys2Proof

/-- One byte of memory. -/
abbrev Byte := BitVec 8

/-- A 32-bit register word. -/
abbrev Word := BitVec 32

/-- A 64-bit value: a register pair, a virtual address, a PC. -/
abbrev Dword := BitVec 64

/-- One bit for each lane of a wave (LANEIX 0 to 63). -/
abbrev LaneMask := BitVec 64

/-- One bit for each quad of a wave. -/
abbrev QuadMask := BitVec 16

/-- A 96-bit instruction slot, w0 in the low bits (R24). -/
abbrev Slot := BitVec 96

/-- A 64-byte fetch line, byte 0 in the low bits (R24, R5). -/
abbrev Line := BitVec 512

/-- 48-bit device time in ns (R6, R222). -/
abbrev Time := BitVec 48

end Sys2Proof
end

