-- ==== Sys2Proof/Config.lean ====
section
/-! DEFINITION. What an implementation fixes and what the manual leaves open: constants without a body, so that no proof
can see their values. -/

namespace Sys2Proof.Config

/-- A byte of an area that the manual fills without giving its layout (R368, R369): a function of the moment of the
write and of the address (log entry 3). -/
opaque freeByte : Nat → Nat → Byte

/-- Which of `n` entries a TLB, a rennet cache or an L1 gives up (R336, R161, R182): it changes timing only. -/
opaque victim : Nat → Nat

/-- The set of an L2 slice that a line lies in (R189): it bounds the keep marks. -/
opaque l2Set : Nat → Nat

/-- The fabric port that serves a device of the domain (R353): the manual gives no routing. -/
opaque fabricPort : Nat → Nat

/-- The request entries of an endpoint of the torus, beside one of any class and the 8 that a slice keeps for class 0 (R322):
the manual gives no number. -/
opaque sinkEntries : Nat → Nat

/-- The response flits, beside 1,024, that a port has room for (R322): the manual gives no number. -/
opaque responseRoom : Nat → Nat

/-- The CDAT table that the DOE mailbox answers with (R351), whose contents the manual does not give. -/
opaque cdat : Word → Word

/-- The window base of a collective group on another device, in units of 64 KiB (R246, R357): that device's own
register. -/
opaque peerWindow : Nat → Nat → Nat

/-- SM3-256 (R358). -/
opaque sm3 : List Byte → BitVec 256

/-- SM2 verification (R358): public key, digest, signature. -/
opaque sm2Verify : List Byte → BitVec 256 → List Byte → Bool

/-- The SM2 signature of the identity key over a digest (R358); the key cannot be read. -/
opaque sm2Sign : BitVec 256 → Nat

/-- The fused digest of the firmware key (R358). -/
opaque keyDigest : BitVec 256

/-- The fused minimum security version SECVER (R414). -/
opaque secver : BitVec 8

/-- Boot ROM version and fuse configuration that a measurement covers (R358). -/
opaque romVersion : Nat
opaque fuses : Nat

/-- Whether the coarse rasteriser emits the record of a tile that a triangle may touch without covering a pixel of it
(R155): a function of the moment, of the column and of the row. -/
opaque extraTile : Nat → Nat → Nat → Bool

/-- The CXL.io configuration space (R351): the value of a register, whose contents the manual does not give. -/
opaque configSpace : Word → Word

end Sys2Proof.Config
end

