-- ==== Sys2Proof/Machine/Table.lean ====
section
/-! DEFINITION. Tables (lists of key and value, keys rising) and byte memories, which are tables in a canonical form. -/

namespace Sys2Proof.Machine

/-- A table from numbers to values: the first entry of a key counts. -/
abbrev Tbl (α : Type) := List (Nat × α)

/-- The value of a key. -/
def Tbl.get {α : Type} (t : Tbl α) (k : Nat) : Option α :=
  match t with
  | [] => none
  | (k', v) :: r => if k' = k then some v else Tbl.get r k

/-- The table with one key's value replaced or entered, in key order. -/
def Tbl.put {α : Type} (t : Tbl α) (k : Nat) (v : α) : Tbl α :=
  match t with
  | [] => [(k, v)]
  | (k', v') :: r =>
    if k < k' then (k, v) :: (k', v') :: r
    else if k' = k then (k, v) :: r
    else (k', v') :: Tbl.put r k v

/-- The table without a key. -/
def Tbl.del {α : Type} (t : Tbl α) (k : Nat) : Tbl α := t.filter fun e => e.1 != k

/-- The table with a function applied to one key's value, where it has one. -/
def Tbl.upd {α : Type} (t : Tbl α) (k : Nat) (f : α → α) : Tbl α :=
  match t.get k with
  | none => t
  | some v => t.put k (f v)

/-- Values with the keys from `k` upward. -/
def Tbl.number {α : Type} (k : Nat) : List α → Tbl α
  | [] => []
  | v :: r => (k, v) :: Tbl.number (k + 1) r

/-- Values put at consecutive keys in one pass. -/
def Tbl.putRun {α : Type} (t : Tbl α) (k : Nat) (vs : List α) : Tbl α :=
  (t.filter fun e => decide (e.1 < k)) ++ Tbl.number k vs ++ t.filter fun e => decide (k + vs.length ≤ e.1)

/-- Keys strictly rising. -/
def Tbl.rising {α : Type} : Tbl α → Bool
  | [] => true
  | [_] => true
  | (a, _) :: (b, w) :: r => decide (a < b) && Tbl.rising ((b, w) :: r)

/-- A byte memory: an address that is not listed reads as zero; no listed byte is zero; addresses rise. -/
abbrev Memory := List Host.Cell

namespace Memory

/-- One byte. -/
def byte (m : Memory) (a : Nat) : Byte := (Tbl.get m a).getD 0

/-- The canonical form. -/
def wf (m : Memory) : Bool := Tbl.rising m && m.all fun c => c.2 != 0

/-- `n` bytes from `a` upward. -/
def bytes (m : Memory) (a n : Nat) : List Byte := (List.range n).map fun i => m.byte (a + i)

/-- Bytes written from `a` upward, in one pass. -/
def store (m : Memory) (a : Nat) (data : List Byte) : Memory :=
  (m.filter fun e => decide (e.1 < a)) ++ ((Tbl.number a data).filter fun e => e.2 != 0) ++
    m.filter fun e => decide (a + data.length ≤ e.1)

end Memory

/-- The value of bytes, the first the least significant (R5). -/
def leNat : List Byte → Nat
  | [] => 0
  | b :: r => b.toNat + 256 * leNat r

/-- The `n` low bytes of a value, the least significant first (R5). -/
def leBytes (n v : Nat) : List Byte := (List.range n).map fun i => BitVec.ofNat 8 (v / 256 ^ i)

end Sys2Proof.Machine
end

