-- ==== Sys2Proof/Syntax.lean ====
section
/-! DEFINITION. The instruction set as data: the operand forms of R35 to R50 and one constructor for every row of
spec/opcode_table.json. The first 185 constructors are instructions that a program word encodes; the others are the
events of the table, the steps that the hardware, the host or the environment makes; an event carries which unit moves
and what it brings from outside. -/

namespace Sys2Proof

/-- The operand types of R37, in the order of their codes. -/
inductive Ty where
  | i32 | n32 | i64 | n64 | f32 | f64 | f16 | bf16 | i16 | n16 | i8 | n8
deriving DecidableEq, Repr

/-- The rounding codes of R62, in the order of their codes. -/
inductive Rnd where
  | rn | rz | ru | rd | rna | dyn
deriving DecidableEq, Repr

/-- Counter selection CSEL (R31): not counted, the line's SETA, the line's SETB. -/
inductive Csel where
  | uncounted | setA | setB
deriving DecidableEq, Repr

/-- The classes of a source field (R38). -/
inductive SrcClass where
  | v | s | p | special | const | lit
deriving DecidableEq, Repr

/-- The classes of a destination (R35). -/
inductive DstClass where
  | v | s | p | acc | tacc
deriving DecidableEq, Repr

/-- A source field (R38): negate, lane modifier and broadcast lane (R41), class and number. -/
structure Src where
  neg   : Bool
  blane : BitVec 2
  lmod  : BitVec 2
  cls   : SrcClass
  num   : BitVec 8
deriving DecidableEq, Repr

/-- A destination (R35): class and number. -/
structure Dst where
  cls : DstClass
  num : BitVec 8
deriving DecidableEq, Repr

/-- The predicate and counter fields common to every format (R35). -/
structure Hdr where
  pneg : Bool
  pred : BitVec 3
  csel : Csel
deriving DecidableEq, Repr

/-- NOP: no operands; of the common fields only PRED and PNEG may be other than zero (R51). -/
structure NopOp where
  pneg : Bool
  pred : BitVec 3
deriving DecidableEq, Repr

/-- V3 format of opcodes 0x00 to 0x3B (R82, R83). -/
structure AluOp where
  h    : Hdr
  sub  : BitVec 5
  dst  : Dst
  a    : Src
  b    : Src
  c    : Src
  ty   : Ty
  rnd  : Rnd
  sat  : Bool
  abs0 : Bool
  abs1 : Bool
  aux  : BitVec 2
deriving DecidableEq, Repr

/-- VI format (R47): MOVI and LEA. -/
structure LitOp where
  h   : Hdr
  ty  : Ty
  dst : Dst
  a   : Src
  b   : Src
  imm : Word
deriving DecidableEq, Repr

/-- V3 format of opcodes 0x40 to 0x4A (R96). -/
structure XlOp where
  h    : Hdr
  sub  : BitVec 5
  dst  : Dst
  a    : Src
  b    : Src
  c    : Src
  ctl  : BitVec 8
  ty   : Ty
  minw : BitVec 3
deriving DecidableEq, Repr

/-- B format (R47, R49): link register, condition source, line offset, slot, NOCUT and hint. -/
structure FlowOp where
  h     : Hdr
  link  : Dst
  cond  : Src
  offs  : BitVec 29
  slot  : BitVec 3
  nocut : Bool
  hint  : BitVec 2
deriving DecidableEq, Repr

/-- BRX and RET (V3, R266): one S pair. -/
structure JumpOp where
  h : Hdr
  a : Src
deriving DecidableEq, Repr

/-- X format (R47). -/
structure CtlOp where
  h   : Hdr
  dst : Dst
  a   : Src
  b   : Src
  imm : Word
deriving DecidableEq, Repr

/-- E format (R47), EDGE (V3) among them: MOD[15:3] and MINW. -/
structure EngOp where
  h    : Hdr
  dst  : Dst
  a    : Src
  b    : Src
  c    : Src
  mod  : BitVec 13
  minw : BitVec 3
deriving DecidableEq, Repr

/-- M format (R47, R48): data register, address descriptor, offset and the fields of R187 to R190. -/
structure MemOp where
  h     : Hdr
  reg   : Dst
  addr  : Src
  off   : Word
  ord   : BitVec 2
  scope : BitVec 3
  evict : BitVec 3
  space : BitVec 3
  szty  : BitVec 4
deriving DecidableEq, Repr

/-- A part of a resident wave: the wave's unit number and the part id (R249). -/
structure PartRef where
  wave : Nat
  part : Nat
deriving DecidableEq, Repr

/-- An inbound request of the load-store domain (R353, R354): the sender's header as it arrived, the address offset
PA[38:0], and for a write its bytes. `headerOk` is false when the header has an uncorrectable error. An atomic or a
reduction has its code (R229; 16 and 17 are ATOMC's, whose bytes are the comparand and then the new value), the rank of
its place (R227) and whether it is a fixed-order contribution (R235, R246); `hs` says that its page is host-shared
(R182); `ticket` is the replay ticket of a step under fixed-order mode: wave, sequence number, lane (R236). -/
structure DomainReq where
  port     : Nat
  headerOk : Bool
  source   : BitVec 8
  tenant   : BitVec 16
  ctx      : BitVec 10
  tag      : Nat
  cls      : BitVec 2
  offset   : Nat
  len      : Nat
  data     : Option (List (BitVec 8))
  op       : Option (BitVec 5)
  rank     : Nat
  fixed    : Bool
  hs       : Bool
  sig      : BitVec 512
  release  : Bool
  ticket   : Option (BitVec 32 × BitVec 32 × BitVec 6) := none
deriving DecidableEq, Repr

/-- The request that ends as FABRIC_LOSS (R355): pieces of an operation, which its target may have performed all the
same, or the read of a part that waits in MONW or CCWAIT. -/
inductive LossTarget where
  | op (id : Nat) (sel : List Nat) (performed : Bool)
  | part (p : PartRef)
deriving DecidableEq, Repr

/-- What the boot sequence of R411 meets in the platform: the outcomes of its checks and trainings, the ports that fail,
and, for a warm reset, the L2 lines that had reached GDDR7 before it. -/
structure BootIn where
  selfOk    : Bool
  badDie    : Option (BitVec 2)
  linkOk    : Bool
  portsDown : BitVec 18
  written   : List Nat
deriving DecidableEq, Repr

/-- One round of sensor samples (R401): temperatures of the 64 clusters and the two I/O dies in 1/16 degree C, and the
power means in W. -/
structure ThermalIn where
  temps   : List (BitVec 16)
  rails   : List (Nat × BitVec 16)
  process : List (BitVec 16)
  pkpwr   : BitVec 16
  modpwr  : BitVec 16
deriving DecidableEq, Repr

/-- One constructor for every row of the table of operations and events: first the instructions, then the events that the
device takes by itself when no turn is listed (`State.ownActs`), then the others. -/
inductive Instr where
  /-- R51, opcode 0x00. Does nothing except advance the PC. -/
  | nop (x : NopOp)
  /-- R88, opcode 0x01. Copies a source to the destination as raw bits; a P destination takes A not equal to 0. -/
  | mov (x : AluOp)
  /-- R88, opcode 0x02. Writes IMM32 to the destination, widened by the type code. -/
  | movi (x : LitOp)
  /-- R88, opcode 0x03. Selects A if C is nonzero, else B. -/
  | sel (x : AluOp)
  /-- R88, opcode 0x04. Integer add, wrapping or saturating. -/
  | iadd (x : AluOp)
  /-- R88, opcode 0x05. Integer subtract, wrapping or saturating. -/
  | isub (x : AluOp)
  /-- R88, opcode 0x06. Integer multiply, low part, wrapping or saturating. -/
  | imul (x : AluOp)
  /-- R88, opcode 0x07. High half of an integer product. -/
  | imulh (x : AluOp)
  /-- R88, opcode 0x08. Integer multiply-add. -/
  | imad (x : AluOp)
  /-- R88, opcode 0x09. Integer minimum. -/
  | imin (x : AluOp)
  /-- R88, opcode 0x0a. Integer maximum. -/
  | imax (x : AluOp)
  /-- R88, opcode 0x0b. Integer absolute value. -/
  | iabs (x : AluOp)
  /-- R88, opcode 0x0c. Bitwise AND. -/
  | and (x : AluOp)
  /-- R88, opcode 0x0d. Bitwise OR. -/
  | or (x : AluOp)
  /-- R88, opcode 0x0e. Bitwise XOR. -/
  | xor (x : AluOp)
  /-- R88, opcode 0x0f. Bitwise NOT. -/
  | not (x : AluOp)
  /-- R89, opcode 0x10. Shift left. -/
  | shl (x : AluOp)
  /-- R89, opcode 0x11. Shift right, logical or arithmetic by type. -/
  | shr (x : AluOp)
  /-- R89, opcode 0x12. Rotate left. -/
  | rot (x : AluOp)
  /-- R89, opcode 0x13. Extracts a bit field. -/
  | bfx (x : AluOp)
  /-- R89, opcode 0x14. Inserts a bit field. -/
  | bfi (x : AluOp)
  /-- R88, opcode 0x15. Counts one bits. -/
  | popc (x : AluOp)
  /-- R88, opcode 0x16. Counts leading zero bits. -/
  | clz (x : AluOp)
  /-- R88, opcode 0x17. Reverses the bit order. -/
  | brev (x : AluOp)
  /-- R88, opcode 0x18. Integer comparison, giving 1 or 0. -/
  | icmp (x : AluOp)
  /-- R89, opcode 0x19. Add with carry in, optionally writing the carry out to a predicate. -/
  | addc (x : AluOp)
  /-- R89, opcode 0x1a. Forms a 64-bit address as A plus a scaled extended B. -/
  | lea (x : LitOp)
  /-- R88, opcode 0x1b. Three-operand integer add. -/
  | iadd3 (x : AluOp)
  /-- R88, opcode 0x1c. Clamps a value of a source type to the range of the destination type. -/
  | sati (x : AluOp)
  /-- R90, opcode 0x20. Floating add, rounded once. -/
  | fadd (x : AluOp)
  /-- R90, opcode 0x21. Floating subtract, rounded once. -/
  | fsub (x : AluOp)
  /-- R90, opcode 0x22. Floating multiply, rounded once. -/
  | fmul (x : AluOp)
  /-- R90, opcode 0x23. Fused multiply-add, rounded once. -/
  | ffma (x : AluOp)
  /-- R91, opcode 0x24. Floating minimum with NaN and signed-zero rules. -/
  | fmin (x : AluOp)
  /-- R91, opcode 0x25. Floating maximum with NaN and signed-zero rules. -/
  | fmax (x : AluOp)
  /-- R91, opcode 0x26. Floating comparison under a condition code. -/
  | fcmp (x : AluOp)
  /-- R91, opcode 0x27. Classifies a floating value into a class mask, or tests it against B. -/
  | fclass (x : AluOp)
  /-- R90, opcode 0x28. Rounds to an integral value in the same type. -/
  | frnd (x : AluOp)
  /-- R92, opcode 0x29. Converts between float formats, or extracts and widens a packed element. -/
  | fcvt (x : AluOp)
  /-- R92, opcode 0x2a. Converts float to integer with saturation. -/
  | ftoi (x : AluOp)
  /-- R92, opcode 0x2b. Converts integer to float. -/
  | itof (x : AluOp)
  /-- R94, opcode 0x2c. Correctly rounded 2 to the power x. -/
  | exp2 (x : AluOp)
  /-- R94, opcode 0x2d. Correctly rounded base-2 logarithm. -/
  | log2 (x : AluOp)
  /-- R94, opcode 0x2e. Correctly rounded reciprocal. -/
  | rcp (x : AluOp)
  /-- R94, opcode 0x2f. Correctly rounded reciprocal square root. -/
  | rsq (x : AluOp)
  /-- R94, opcode 0x30. Square root, correctly rounded by RND. -/
  | sqrt (x : AluOp)
  /-- R94, opcode 0x31. Sine of an argument in turns, correctly rounded. -/
  | sin (x : AluOp)
  /-- R94, opcode 0x32. Cosine of an argument in turns, correctly rounded. -/
  | cos (x : AluOp)
  /-- R95, opcode 0x33. Two-element dot product plus an F32 addend, rounded once. -/
  | fdot2 (x : AluOp)
  /-- R93, opcode 0x34. Converts two binary32 values and inserts them into a packed word. -/
  | fpk2 (x : AluOp)
  /-- R90, opcode 0x35. Multiplies by 2 to the power B. -/
  | fscale (x : AluOp)
  /-- R90, opcode 0x36. Median of three values. -/
  | fmed3 (x : AluOp)
  /-- R91, opcode 0x37. Fractional part, kept below 1.0. -/
  | ffrac (x : AluOp)
  /-- R95, opcode 0x38. Packed two-half fused multiply-add. -/
  | hfma2 (x : AluOp)
  /-- R95, opcode 0x39. Packed two-half add. -/
  | hadd2 (x : AluOp)
  /-- R95, opcode 0x3a. Packed two-half multiply. -/
  | hmul2 (x : AluOp)
  /-- R95, opcode 0x3b. Four-byte integer dot product plus an addend. -/
  | qdot4 (x : AluOp)
  /-- R97, opcode 0x40. Swizzles lanes within each quad. -/
  | qswz (x : XlOp)
  /-- R97, opcode 0x41. Forms a 64-bit mask of the participating lanes whose A is nonzero. -/
  | ballot (x : XlOp)
  /-- R97, opcode 0x42. Computes ALL, ANY or EQ over the participating lanes. -/
  | vote (x : XlOp)
  /-- R98, opcode 0x43. Shuffles values between the part's lanes. -/
  | shfl (x : XlOp)
  /-- R97, opcode 0x44. Broadcasts the lowest participating lane's value. -/
  | bcast (x : XlOp)
  /-- R79, opcode 0x45. Reduces over the participating lanes in a fixed pairwise tree. -/
  | redux (x : XlOp)
  /-- R79, opcode 0x46. Forms a serial inclusive or exclusive prefix over the participating lanes. -/
  | scanx (x : XlOp)
  /-- R97, opcode 0x47. Gives a mask of the lanes whose value equals this lane's. -/
  | match (x : XlOp)
  /-- R97, opcode 0x48. Reads one lane's value into an S register. -/
  | readlane (x : XlOp)
  /-- R97, opcode 0x49. Writes a uniform value into one lane. -/
  | writelane (x : XlOp)
  /-- R100, opcode 0x4a. Enters a key for a cross-cluster lane exchange and waits for its partner wave. -/
  | xshuf (x : XlOp)
  /-- R267, opcode 0x50. Unconditional branch. -/
  | br (x : FlowOp)
  /-- R267, opcode 0x51. Conditional branch that continues, cuts or diverges. -/
  | brc (x : FlowOp)
  /-- R268, opcode 0x52. Branches to the PC held in an S pair. -/
  | brx (x : JumpOp)
  /-- R268, opcode 0x53. Writes the return PC to a link pair and branches. -/
  | call (x : FlowOp)
  /-- R268, opcode 0x54. Returns to the PC held in an S pair. -/
  | ret (x : JumpOp)
  /-- R258, opcode 0x55. Joins or opens a knit episode and waits. -/
  | knit (x : CtlOp)
  /-- R271, opcode 0x56. Returns CUTP and updates its writable fields under a mask. -/
  | cutctl (x : CtlOp)
  /-- R269, opcode 0x57. Starts a counted repeat of a body. -/
  | rep (x : FlowOp)
  /-- R270, opcode 0x58. Starts a repeat like REP and pins the body in the loop buffer. -/
  | lpin (x : FlowOp)
  /-- R272, opcode 0x59. Ends the participating lanes, drops finished quads from barriers and ends empty parts. -/
  | exit (x : CtlOp)
  /-- R273, opcode 0x5a. Waits until a counter is at most a threshold in every quad. -/
  | waitn (x : CtlOp)
  /-- R274, opcode 0x5b. Places the part last among the ready parts. -/
  | yield (x : CtlOp)
  /-- R275, opcode 0x5c. Writes FMT under a mask after checking the value. -/
  | setfmt (x : CtlOp)
  /-- R275, opcode 0x5d. Reads a selected item of wave or part state into an S register. -/
  | getst (x : CtlOp)
  /-- R274, opcode 0x5e. Stops the part from issuing for a number of clocks. -/
  | sleep (x : CtlOp)
  /-- R197, opcode 0x60. Loads per lane from a space into V registers. -/
  | ld (x : MemOp)
  /-- R197, opcode 0x61. Stores per lane into a space. -/
  | st (x : MemOp)
  /-- R198, opcode 0x62. Performs one load for the part into S registers. -/
  | lds (x : MemOp)
  /-- R197, opcode 0x63. Wide per-lane load. -/
  | ldx (x : MemOp)
  /-- R197, opcode 0x64. Wide per-lane store. -/
  | stx (x : MemOp)
  /-- R199, opcode 0x65. Copies bytes per lane from memory into local store. -/
  | ldw (x : MemOp)
  /-- R200, opcode 0x66. Prefetches lines into cache. -/
  | prf (x : MemOp)
  /-- R201, opcode 0x67. Drops the L1 lines that hold the lanes' addresses. -/
  | invl (x : MemOp)
  /-- R201, opcode 0x67. Drops every global and constant line of the core's L1. -/
  | invlAll (x : MemOp)
  /-- R202, opcode 0x68. Writes back the dirty lines at the lanes' addresses. -/
  | wbl (x : MemOp)
  /-- R202, opcode 0x68. Writes back every dirty private line of the part's lanes. -/
  | wblAll (x : MemOp)
  /-- R203, opcode 0x69. Release and/or acquire fence on the normal path. -/
  | fence (x : CtlOp)
  /-- R224, opcode 0x6a. Orders accesses between access paths and invalidates the caches of the TO paths. -/
  | fencex (x : CtlOp)
  /-- R204, opcode 0x6b. Waits until a memory word satisfies a condition. -/
  | monw (x : MemOp)
  /-- R232, opcode 0x6c. Per-lane atomic read-modify-write that returns the old value. -/
  | atom (x : MemOp)
  /-- R232, opcode 0x6d. Per-lane compare-and-swap. -/
  | atomc (x : MemOp)
  /-- R232, opcode 0x6e. Per-lane atomic reduction with no result. -/
  | red (x : MemOp)
  /-- R240, opcode 0x70. Queues a block copy on the copy engine. -/
  | bcopy (x : EngOp)
  /-- R240, opcode 0x71. Queues a masked gather copy. -/
  | gcopy (x : EngOp)
  /-- R240, opcode 0x72. Queues a masked scatter copy. -/
  | scopy (x : EngOp)
  /-- R150, opcode 0x73. Copies bytes from virtual memory into the die's weight store. -/
  | wswrite (x : EngOp)
  /-- R151, opcode 0x74. Reports a weight-store bank's turning-window start and state. -/
  | wswin (x : EngOp)
  /-- R244, opcode 0x75. Samples whether a copy has completed. -/
  | cpoll (x : EngOp)
  /-- R246, opcode 0x76. Multicasts a store to every member of a collective group. -/
  | mcst (x : MemOp)
  /-- R246, opcode 0x77. Multicasts a reduction to every member of a collective group. -/
  | mred (x : MemOp)
  /-- R118, opcode 0x80. Acquires an accumulator tile's token for the part. -/
  | macq (x : EngOp)
  /-- R118, opcode 0x81. Returns a token to the FMU. -/
  | mrel (x : EngOp)
  /-- R119, opcode 0x82. Issues a tile matrix multiply-accumulate to the FMU. -/
  | mma (x : EngOp)
  /-- R119, opcode 0x83. Issues a block-scaled tile matrix multiply-accumulate. -/
  | mmas (x : EngOp)
  /-- R120, opcode 0x84. Closes the wave's open FMU or TA batch and returns its number. -/
  | mfence (x : EngOp)
  /-- R120, opcode 0x85. Waits for a closed batch and delivers its faults. -/
  | mwait (x : EngOp)
  /-- R121, opcode 0x86. Reads accumulator cells into V registers. -/
  | mrd (x : EngOp)
  /-- R121, opcode 0x87. Writes V values into accumulator cells. -/
  | mwr (x : EngOp)
  /-- R122, opcode 0x88. Converts and writes a tile to memory. -/
  | mdrain (x : EngOp)
  /-- R143, opcode 0x90. Loads a ternary weight tile into a plane. -/
  | twld (x : EngOp)
  /-- R144, opcode 0x91. Accumulates activation rows against a weight plane. -/
  | tmac (x : EngOp)
  /-- R145, opcode 0x92. Scales, converts and writes accumulator rows. -/
  | tdrain (x : EngOp)
  /-- R146, opcode 0x93. Zeros a ternary accumulator. -/
  | tzero (x : EngOp)
  /-- R146, opcode 0x93. Zeros a weight plane and its nz counts. -/
  | tzeroPlane (x : EngOp)
  /-- R147, opcode 0x94. Packs five values into a trit byte. -/
  | tpack (x : EngOp)
  /-- R147, opcode 0x95. Unpacks a trit byte into five I8 values. -/
  | tunpk (x : EngOp)
  /-- R148, opcode 0x96. Quantises a value to a trit by a threshold. -/
  | tqnt (x : EngOp)
  /-- R149, opcode 0x97. Reads a TA statistic. -/
  | tstat (x : EngOp)
  /-- R171, opcode 0xa0. Filtered texture sample with quad-derived LOD. -/
  | smp (x : EngOp)
  /-- R171, opcode 0xa1. Texture sample with explicit LOD. -/
  | smpl (x : EngOp)
  /-- R171, opcode 0xa2. Texture sample with explicit derivatives. -/
  | smpg (x : EngOp)
  /-- R171, opcode 0xa3. Gathers one channel of four texels. -/
  | gath4 (x : EngOp)
  /-- R171, opcode 0xa4. Loads one unfiltered texel. -/
  | txld (x : EngOp)
  /-- R171, opcode 0xa5. Decodes a latent block texel through the rennet decoder. -/
  | ldec (x : EngOp)
  /-- R172, opcode 0xa6. Computes edge-function coverage per lane. -/
  | edge (x : EngOp)
  /-- R173, opcode 0xa7. Waits for the next tile record from the rasteriser. -/
  | tileq (x : EngOp)
  /-- R174, opcode 0xa8. Gives triangles to the cluster's coarse rasteriser. -/
  | emit (x : EngOp)
  /-- R175, opcode 0xa9. Traces rays through a tree. -/
  | rtrace (x : EngOp)
  /-- R175, opcode 0xaa. Waits for earlier traces and writes the hit records. -/
  | rhit (x : EngOp)
  /-- R176, opcode 0xab. Stores texels to an image. -/
  | imgst (x : EngOp)
  /-- R177, opcode 0xac. Invalidates one rennet cache entry. -/
  | rninv (x : CtlOp)
  /-- R177, opcode 0xac. Invalidates every rennet entry of the binding. -/
  | rninvAll (x : CtlOp)
  /-- R305, opcode 0xb0. Initialises a barrier with an expected quad count. -/
  | bari (x : CtlOp)
  /-- R305, opcode 0xb0. Initialises a barrier for every unexited quad of the group and registers them. -/
  | bariGroup (x : CtlOp)
  /-- R305, opcode 0xb1. Arrives the part's quads at a barrier and returns the phase token. -/
  | arrive (x : CtlOp)
  /-- R305, opcode 0xb2. Drops the part's registered quads from a barrier. -/
  | arrdrop (x : CtlOp)
  /-- R305, opcode 0xb3. Waits for a barrier phase to move past a token. -/
  | bwait (x : CtlOp)
  /-- R305, opcode 0xb4. Raises a barrier's expected byte count. -/
  | bexpect (x : CtlOp)
  /-- R308, opcode 0xb5. Pushes a handle into a tile queue under the wave's allowance. -/
  | qpush (x : CtlOp)
  /-- R308, opcode 0xb6. Pops a handle from a tile queue. -/
  | qpop (x : CtlOp)
  /-- R308, opcode 0xb7. Pops a handle if one is present, without waiting. -/
  | qtry (x : CtlOp)
  /-- R308, opcode 0xb8. Grants send allowance to a wave. -/
  | qallow (x : CtlOp)
  /-- R308, opcode 0xb8. Initialises a tile queue's ring and state. -/
  | qallowInit (x : CtlOp)
  /-- R310, opcode 0xb9. Arrives at the launch barrier and waits. -/
  | gbar (x : CtlOp)
  /-- R314, opcode 0xba. Creates a launch from a launch record. -/
  | launch (x : CtlOp)
  /-- R314, opcode 0xbb. Creates a graph run from a snapshot of the graph. -/
  | grun (x : CtlOp)
  /-- R315, opcode 0xbc. Cancels the launch or run named by a handle. -/
  | cancelHandle (x : CtlOp)
  /-- R315, opcode 0xbc. Cancels the issuing launch. -/
  | cancelLaunch (x : CtlOp)
  /-- R315, opcode 0xbc. Cancels the issuing launch's phase. -/
  | cancelPhase (x : CtlOp)
  /-- R315, opcode 0xbc. Cancels the issuing launch's job. -/
  | cancelJob (x : CtlOp)
  /-- R316, opcode 0xbd. Waits until a completion count reaches a comparand. -/
  | ccwait (x : CtlOp)
  /-- R313, opcode 0xbe. Waits to enter a raster-ordered section. -/
  | rosb (x : CtlOp)
  /-- R313, opcode 0xbf. Retires the ticket and releases the section. -/
  | rose (x : CtlOp)
  /-- R376, opcode 0xc0. Raises a program trap with a code. -/
  | trap (x : CtlOp)
  /-- R385, opcode 0xc1. Software breakpoint trap. -/
  | brk (x : CtlOp)
  /-- R377, opcode 0xc2. Resumes a trapped part at its record PC. -/
  | rettReissue (x : CtlOp)
  /-- R377, opcode 0xc2. Resumes a trapped part after the trapping instruction. -/
  | rettSkip (x : CtlOp)
  /-- R377, opcode 0xc2. Resumes a trapped part at a given PC. -/
  | rettPc (x : CtlOp)
  /-- R377, opcode 0xc2. Ends a trapped part's lanes. -/
  | rettEnd (x : CtlOp)
  /-- R378, opcode 0xc3. Reads a system register. -/
  | rdsr (x : CtlOp)
  /-- R378, opcode 0xc4. Writes a system register as its access allows. -/
  | wrsr (x : CtlOp)
  /-- R345, opcode 0xc5. Drops every TLB entry of the device. -/
  | tlbinvAll (x : CtlOp)
  /-- R345, opcode 0xc5. Drops the TLB entries of one ASID. -/
  | tlbinvAsid (x : CtlOp)
  /-- R345, opcode 0xc5. Drops the TLB entries of one ASID that cover a VA. -/
  | tlbinvPage (x : CtlOp)
  /-- R399, opcode 0xc6. Appends a record to the die's assay ring. -/
  | assayPut (x : CtlOp)
  /-- R399, opcode 0xc6. Stops appending to the assay rings. -/
  | assayFrz (x : CtlOp)
  /-- R399, opcode 0xc6. Resumes appending to the assay rings. -/
  | assayRun (x : CtlOp)
  /-- R399, opcode 0xc7. Writes a marker event record. -/
  | mark (x : CtlOp)
  /-- R399, opcode 0xc8. Updates a context's logging control word. -/
  | logctl (x : CtlOp)
  /-- R399, opcode 0xc9. Reads the device time. -/
  | seqrdTime (x : CtlOp)
  /-- R399, opcode 0xc9. Reads the wave's decision sequence and the part's formation DSEQ. -/
  | seqrdDseq (x : CtlOp)
  /-- R399, opcode 0xc9. Reads the part's access ordinal. -/
  | seqrdOrd (x : CtlOp)
  /-- R406, opcode 0xca. Requests a cluster operating point. -/
  | dvreq (x : CtlOp)
  /-- R380, opcode 0xcb. Stops a context's dispatch and pre-empts its groups. -/
  | haltSave (x : CtlOp)
  /-- R380, opcode 0xcb. Resumes a context's dispatch and restore. -/
  | haltGo (x : CtlOp)
  /-- R380, opcode 0xcb. Resets a context. -/
  | haltReset (x : CtlOp)
  /-- R380, opcode 0xcb. Saves every valid context. -/
  | haltDevice (x : CtlOp)
  /-- R101 (event). A partner's matching XSHUF arrives and both waves exchange lane values. -/
  | xshufMatch (a b : Nat)
  /-- R252 (event). A stack entry move to or from the context frame completes and the part may issue again. -/
  | stackSpillDone (p : PartRef)
  /-- R259 (event). Every live part has arrived or is late, and the episode fuses its parts. -/
  | knitFuse (wave : Nat) (pc : BitVec 64)
  /-- R260 (event). The knit timeout expires; the episode fuses and the absent parts get LATE. -/
  | knitTimeout (wave : Nat) (pc : BitVec 64)
  /-- R262 (event). Parts waiting on MINW together hold the required quads and fuse, and the instruction issues. -/
  | implicitKnitFuse (wave : Nat) (pc : BitVec 64)
  /-- R262 (event). The implicit knit times out; the parts fuse and WIDTH is raised. -/
  | implicitKnitTimeout (wave : Nat) (pc : BitVec 64)
  /-- R437 (event). The wave's outstanding work completes, and the last part either takes an undelivered fault or ends the wave. -/
  | lastExitResume (p : PartRef)
  /-- R273 (event). The counter condition comes to hold; pending counter faults are raised or the part continues. -/
  | waitnRelease (p : PartRef)
  /-- R33 (event). The counters named by a line's wait mask reach zero and issue enters the line. -/
  | lineWaitRelease (p : PartRef)
  /-- R274 (event). The sleep count runs out and the part is ready again. -/
  | sleepExpiry (p : PartRef)
  /-- R203 (event). Earlier accesses are performed at scope and the fenced part continues. -/
  | fenceWaitDone (p : PartRef)
  /-- R224 (event). The FROM-path accesses are performed, and the TO-path effects are applied. -/
  | fencexWaitDone (p : PartRef)
  /-- R204 (event). A write to the watched sector wakes the monitor, which rereads the word. -/
  | monwWake (p : PartRef)
  /-- R232 (event). An atomic or reduction step is performed at its place. -/
  | atomicStep (op : Nat) (sel : List Nat)
  /-- R241 (event). A copy's destination write is performed and lowers the barrier's pending bytes, completing the phase when due. -/
  | copyWritePerformed (op : Nat) (sel : List Nat)
  /-- R241 (event). A copy's payload is performed, its stamp is written and its counter retires. -/
  | copyComplete (op : Nat)
  /-- R150 (event). Every byte of a WSWRITE is written to the weight store. -/
  | wswriteComplete (op : Nat)
  /-- R246 (event). A multicast delivery is performed or lost and DRAIN falls. -/
  | mcstDeliveryPerformed (op member : Nat) (lost : Bool)
  /-- R118 (event). The token becomes free with its FMU work done and is granted to the waiting part. -/
  | macqGrant (p : PartRef)
  /-- R110 (event). The FMU has read all operands; a counted MMA retires. -/
  | fmuOperandsConsumed (op : Nat) (sel : List Nat)
  /-- R110 (event). An FMU operation's tile results or drain writes are complete, possibly completing a batch. -/
  | fmuOpComplete (op : Nat) (sel : List Nat)
  /-- R120 (event). The awaited batch completes and MWAIT delivers a fault or continues. -/
  | mwaitRelease (p : PartRef)
  /-- R133 (event). A TWLD or TMAC has read all its sources and its counter retires. -/
  | taOperandsConsumed (op : Nat) (sel : List Nat)
  /-- R135 (event). A queued TA operation's dependences are met and it starts in the array. -/
  | taOpStart (op : Nat)
  /-- R134 (event). A weight tile load completes into its plane. -/
  | twldComplete (op : Nat)
  /-- R135 (event). A TMAC's sums are in the accumulator. -/
  | tmacComplete (op : Nat)
  /-- R136 (event). A TDRAIN's outputs are written. -/
  | tdrainComplete (op : Nat) (sel : List Nat)
  /-- R136 (event). A TZERO completes. -/
  | tzeroComplete (op : Nat)
  /-- R171 (event). A sampler read writes its results or substitutes and retires. -/
  | samplerComplete (op : Nat) (sel : List Nat)
  /-- R173 (event). The rasteriser hands a record to a waiting wave. -/
  | tileRecordHandout (p : PartRef) (pick : Nat)
  /-- R155 (event). The rasteriser sets up the emitted triangles and emits their tile records. -/
  | rasterAccept (op : Nat)
  /-- R175 (event). A trace finishes and replaces the lanes' hit records. -/
  | rtraceComplete (op : Nat) (sel : List Nat)
  /-- R176 (event). Every texel of an IMGST is written. -/
  | imgstComplete (op : Nat) (sel : List Nat)
  /-- R305 (event). The phase has moved, and BWAIT delivers copy faults or overfill, or passes. -/
  | bwaitPass (p : PartRef)
  /-- R308 (event). Allowance arrives and a waiting push completes. -/
  | qpushResume (p : PartRef)
  /-- R308 (event). A handle arrives and a waiting pop completes. -/
  | qpopResume (p : PartRef)
  /-- R310 (event). Every group has arrived or ended; the generation completes and the waiters continue. -/
  | gbarComplete (launch : Nat)
  /-- R316 (event). A write to the count's sector wakes the wait, which rereads the count. -/
  | ccwaitWake (p : PartRef)
  /-- R313 (event). The retirement count reaches the ticket and the wave holds the section. -/
  | rosbAdmit (p : PartRef)
  /-- R373 (event). Ends every unit of a context and writes the RESET_END record. -/
  | contextReset (ctx : Nat)
  /-- R193 (event). A load's data returns and is written to the destination, holding an error where one is met. -/
  | loadComplete (op : Nat) (sel : List Nat)
  /-- R193 (event). A store reaches its scope point. -/
  | storePerformed (op : Nat) (sel : List Nat)
  /-- R199 (event). An LDW's local-store bytes are written. -/
  | ldwComplete (op : Nat) (sel : List Nat)
  /-- R200 (event). A prefetched line is placed or dropped. -/
  | prefetchPlaced (op : Nat) (drop : Bool)
  /-- R339 (event). A released saved part is restored on its scheduler and re-issues. -/
  | partRestore (p : PartRef)
  /-- R350 (event). The device takes an intake entry, reads the job record and puts the job into Waiting. -/
  | jobIntake (ctx : Nat)
  /-- R277 (event). A unit's predecessors end, it reads its descriptor and enters Checking. -/
  | unitLeaveWaiting (unit : Nat)
  /-- R285 (event). A unit's record is read and checked, and the unit runs or is refused. -/
  | unitChecking (unit : Nat)
  /-- R281 (event). A phase starts its items once the previous phase has ended done. -/
  | phaseStart (unit : Nat)
  /-- R283 (event). A graph node starts, or is cancelled, when its predecessors end. -/
  | graphNodeStart (unit node : Nat)
  /-- R288 (event). A launch's weight stage writes its entries into the weight store. -/
  | weightStage (unit : Nat)
  /-- R289 (event). A group is placed on a qualifying core and its input tiles are copied. -/
  | groupDispatch (unit core : Nat)
  /-- R290 (event). The input tiles have arrived and the group's waves start. -/
  | waveDispatch (group : Nat)
  /-- R291 (event). A group's last wave ends and its resources are freed. -/
  | groupEnd (group : Nat)
  /-- R278 (event). A unit ends and its status and count are written to its counter block. -/
  | unitEnd (unit : Nat)
  /-- R293 (event). A ready pending part replaces a waiting active part. -/
  | partSwap (core sched : Nat)
  /-- R296 (event). A lower-priority group is saved whole to free resources. -/
  | preempt (group : Nat)
  /-- R296 (event). A pre-empted group is restored on a qualifying core. -/
  | groupRestore (group core : Nat)
  /-- R404 (event). A 64-clock current window starts with a fresh budget. -/
  | planisherWindow (core : Nat)
  /-- R27 (event). The refetched copy of an odd-parity line arrives and is used or raises LINE_PARITY. -/
  | lineRefetch (p : PartRef)
  /-- R101 (event). The knit timeout expires during an XSHUF wait and the wave traps. -/
  | xshufTimeout (p : PartRef)
  /-- R255 (event). The miss-cut delay expires with a mixed WAITN condition, and the satisfied quads are cut away. -/
  | missCut (p : PartRef)
  /-- R204 (event). 4,096 clocks pass and the monitor rereads the word. -/
  | monwPollExpiry (p : PartRef)
  /-- R235 (event). A fixed-order accumulator is resolved by an access or its 2^40th contribution and rounded once. -/
  | fixedOrderResolve (sector : Nat)
  /-- R131 (event). A bank's turning window ends and its held reads proceed. -/
  | wsWindowEnd (die bank : Nat)
  /-- R118 (event). A token wait exceeds the knit timeout and ACC_TOKEN is raised. -/
  | macqTimeout (p : PartRef)
  /-- R316 (event). 4,096 clocks pass and the count is reread. -/
  | ccwaitPollExpiry (p : PartRef)
  /-- R414 (event). Setting READY sets PHASE to 7 and opens job intake. -/
  | bootctlReadyWrite
  /-- R182 (event). The L1 evicts a sector at a time it chooses, writing back private data. -/
  | l1Evict (core sector : Nat)
  /-- R333 (event). A page walk completes, filling the TLB or yielding a fault. -/
  | pageWalk (core : Nat) (asid : Nat) (va : BitVec 64)
  /-- R342 (event). Writing a record id releases every part, launch and read held on that record. -/
  | fltdoneWrite (id : BitVec 32)
  /-- R341 (event). Queue room appears and a buffered fault record is written; a stalled faulting part retries. -/
  | faultBufferDrain (cluster : Nat)
  /-- R367 (event). Queue room appears and a buffered trap record is written. -/
  | trapBufferDrain (cluster : Nat)
  /-- R350 (event). A host write of a job record address is accepted into the intake queue or dropped. -/
  | jobaddrWrite (ctx : Nat) (addr : BitVec 64) (size : Nat)
  /-- R293 (event). A pending part ready for 256 clocks replaces the oldest active part. -/
  | forcedSwap (core sched : Nat)
  /-- R300 (event). A draw exceeds its allowance and the context is reset. -/
  | drawWatchdog (unit : Nat)
  /-- R389 (event). FRZCTL ATTACH pre-empts the frozen groups, or writes frames for draw groups. -/
  | freezeAttach (core : Nat)
  /-- R389 (event). FRZCTL RELEASE ends the freeze and reloads attached draw groups. -/
  | freezeRelease (core : Nat)
  /-- R389 (event). FRZLIM ms pass and the frozen parts issue again. -/
  | freezeLimitExpiry (core : Nat)
  /-- R386 (event). A control-space breakpoint write sets a breakpoint word on every core. -/
  | bpBroadcastWrite (n j : Nat) (value : BitVec 32)
  /-- R343 (event). A write to HPCTL sets sampling and restarts every core's lookup count. -/
  | hpctlWrite (value : BitVec 32)
  /-- R383 (event). The sampling interval expires and the scheduler samples the next slot. -/
  | profileSample (core sched : Nat)
  /-- R325 (event). A 1,024-clock window starts and every bucket is refilled. -/
  | bucketWindow
  /-- R327 (event). A write to a bucket register takes effect as its rules give. -/
  | qbktWrite (port cls : Nat) (value : BitVec 32)
  /-- R325 (event). A request held for credit or sink room passes its bucket and enters the torus. -/
  | requestInject (port cls : Nat)
  /-- R352 (event). A host CXL.mem request is performed at the home slice. -/
  | hostMemRequest (addr : BitVec 64) (len : Nat) (data : Option (List (BitVec 8)))
  /-- R352 (event). The host answers a back-invalidate snoop and the waiting access proceeds. -/
  | backInvalidate (line : Nat) (data : Option (List (BitVec 8)))
  /-- R353 (event). An inbound fabric packet is checked and performed, answered with loss, or dropped for a header error. -/
  | domainRequestIn (r : DomainReq)
  /-- R355 (event). A loss response ends a domain request as FABRIC_LOSS. -/
  | fabricLossResponse (t : LossTarget)
  /-- R355 (event). A domain request has no response after FLTO and ends as FABRIC_LOSS. -/
  | fabricTimeout (t : LossTarget)
  /-- R357 (event). COLLCMD op 0 opens a collective group or returns BUSY or BAD. -/
  | collOpen (g : Nat)
  /-- R357 (event). COLLCMD op 1 closes a collective group. -/
  | collClose (g : Nat)
  /-- R357 (event). An inbound collective delivery is accepted or answered with loss. -/
  | collDeliveryIn (g : Nat) (r : DomainReq)
  /-- R414 (event). Writing 0x0000_0005 to RSTREQ causes a warm host reset. -/
  | rstreqWrite (value : BitVec 32) (boot : BootIn)
  /-- R409 (event). Module power-on resets the whole device and runs the boot ROM. -/
  | coldReset (boot : BootIn)
  /-- R409 (event). A CXL hot or link-down reset resets the device and keeps the listed state. -/
  | warmResetHost (boot : BootIn)
  /-- R409 (event). A device fatal error resets the device and the ROM takes its fatal path. -/
  | warmResetFatal (boot : BootIn)
  /-- R402 (event). At the end of a 4,096-clock window with the counts that the scheduler shows an island may enter low-rail
  mode. -/
  | lowRailWindow (core sched memWaits occupancy : Nat)
  /-- R402 (event). A part becomes ready on a low-rail island and the 200-ns wake begins. -/
  | lowRailWake (core sched : Nat)
  /-- R402 (event). The wake ends and the scheduler issues at the cluster's point. -/
  | lowRailWakeDone (core sched : Nat)
  /-- R405 (event). A ramp ends and any queued point starts its ramp. -/
  | dvfsRampEnd (cluster : Nat)
  /-- R401 (event). The sensors are sampled and the package temperature is updated. -/
  | thermalSample (r : ThermalIn)
  /-- R407 (event). A trip level changes after its dwell, with events, interrupt and the level's action. -/
  | tripChange (level : Nat)
  /-- R407 (event). The power stage comparator removes power at 115 degrees C. -/
  | trip4PowerOff
  /-- R222 (event). Device time wraps; L1s are invalidated and the signature times are zeroed. -/
  | deviceTimeWrap
  /-- R7 (event). A write to a register with no behaviour of its own takes effect as its Access allows. -/
  | registerWrite (off : Nat) (value : BitVec 64)
  /-- R358 (event). An SPDM 1.2 request arrives over the DOE mailbox and the device answers, including a signed measurement response over the requester's nonce. -/
  | spdmRequest (nonce : BitVec 256)
  /-- R411 (event). A host configuration request reaches the CXL.io function and is answered with Configuration Request Retry Status until PHASE reaches 4, and normally after that. -/
  | configRequest (addr : BitVec 32) (write : Option (BitVec 32))
deriving DecidableEq, Repr

end Sys2Proof
end

