-- ==== Sys2Proof/Machine/State.lean ====
section
/-! DEFINITION. The state of the VM-1 as plain data: lanes, quads, parts and waves (R248), groups and units of work
(R277), cores, clusters, slices and dies (R16), the package's registers, memory (R180), and the operations that have
issued and are not yet performed (R193). -/

namespace Sys2Proof.Machine

open Sys2Proof

/-- Why a run stops. -/
inductive Fault where
  /-- Raised when an instruction is to be executed and the part that is to issue it is not resident (`State.cur` names
  none): no machine state of the manual. Safe: the machine never issues without a part. -/
  | noIssuer
deriving DecidableEq, Repr

/-- Why an instruction has no outcome. -/
inductive Refusal where
  /-- Raised by an arm of `exec` whose instruction has no meaning in this model. Safe: nothing is claimed. -/
  | notModelled (mnemonic : String)
deriving DecidableEq, Repr

/-- 512-bit sector signature (R218). -/
abbrev Sig := BitVec 512

/-- A location as R209 identifies it. -/
inductive Loc where
  /-- Local device memory, offset PA[38:0]. -/
  | dev (a : Nat)
  /-- Host memory. -/
  | host (a : Nat)
  /-- Memory of another device of the domain. -/
  | peer (d a : Nat)
  /-- Control space, offset from its base. -/
  | ctrl (a : Nat)
  /-- Local store of a group. -/
  | ls (g a : Nat)
  /-- Weight store of a die, die-absolute. -/
  | ws (d a : Nat)
deriving DecidableEq, Repr

/-! ### Parts and waves -/

/-- A reconvergence-stack entry (R251). -/
structure StackEntry where
  pc   : Dword
  mask : LaneMask
  fmt  : Word
deriving DecidableEq, Repr

/-- Repeat state (R269). -/
structure Repeat where
  start : Dword
  stop  : Dword
  rem   : Word
  idx   : Word
deriving DecidableEq, Repr

/-- The copy of the line that the part has entered (R384). -/
structure FetchedLine where
  base : Dword
  bits : Line
deriving DecidableEq, Repr

/-- What a trap record says beyond the part's own identity (R365). -/
structure TrapInfo where
  code   : Nat
  defer  : Bool
  pc     : Dword
  addr   : Dword
  lane   : Option Nat
  val    : Word
  evt    : Option Nat
  cpc    : Dword
  mask   : LaneMask
  aux0   : Word
  aux1   : Word
  merged : Word
deriving DecidableEq, Repr

/-- What a far fault says beyond the part's own identity (R340); `takeFar` sets its time. -/
structure FarInfo where
  va    : Dword
  level : Nat
  acc   : Nat
  time  : Time := 0
deriving DecidableEq, Repr

/-- What holds a part that is resident (R292). -/
inductive Hold where
  | no
  /-- A line's wait mask (R33). -/
  | lineMask
  /-- A line of odd parity, fetched again (R27). -/
  | refetch
  /-- An instruction that has issued and waits. -/
  | instr (i : Instr)
  /-- An instruction that waits at an implicit knit (R262). -/
  | width (i : Instr)
  /-- A stack entry moving out to the frame, or back from it (R252). -/
  | spill (out : Bool)
  /-- An instruction that could not issue and is tried again: its stall reason says why. -/
  | retry
  /-- The clocks of SLEEPR that a restore has loaded for a part that is in no SLEEP (R369, R371). -/
  | nap
  /-- A knit episode that a restore has placed the part in (R369, R371). -/
  | joined
deriving DecidableEq, Repr

/-- Where a part stands (R292, R363, R339). -/
inductive Status where
  | resident
  /-- A trap is taken: the part's counted instructions retire, then its frame and record are written. -/
  | stopping (t : TrapInfo) (time : Time)
  /-- A far fault is taken: as `stopping`, for the fault record. -/
  | parking (f : FarInfo)
  /-- Trapped: record id, record PC and code. -/
  | trapped (id : Word) (pc : Dword) (code : Nat)
  /-- Saved by a far fault on a record. -/
  | faulted (id : Word)
  /-- Released, waiting for a slot (R295). -/
  | ready
  /-- Saved with its group (R296). -/
  | withGroup
deriving DecidableEq, Repr

/-- A part (R248). `line` is the copy of the line that it has entered, `kept` that of a line that it enters again without
having left it (R384). `waited`, `inSet` and `queued` count clocks for the swaps of R293: waiting, in the active set, and
ready in the pending set. `idle` counts those since it last issued (R294); `last` says that YIELD has placed it behind the
other ready parts (R274); `repin` that a save has released its pin (R270); `arg` is what a waiting instruction read at its
issue (R273), `stamp` its place among those that wait for a token (R118); `looked` says that the pages of the instruction at
its PC have been counted (R343). -/
structure Part where
  quads  : QuadMask
  pc     : Dword
  active : LaneMask
  stack  : List StackEntry
  rep    : Option Repeat
  kc     : BitVec 16
  late   : Bool
  pin    : List (Nat × Line)
  line   : Option FetchedLine
  kept   : Option FetchedLine := none
  hold   : Hold
  stall  : Nat
  status : Status
  slot   : Nat
  front  : Bool
  timer  : Nat
  waited : Nat
  inSet  : Nat
  queued : Nat
  born   : BitVec 16
  ord    : Word
  prior  : List Nat
  sigs   : Option (Sig × Time)
  fence  : Option (BitVec 3)
  check  : Bool
  nobrk  : Bool
  idle   : Nat
  last   : Bool
  repin  : Bool
  arg    : Word
  since  : Time
  stamp  : Nat := 0
  looked : Bool := false
deriving DecidableEq, Repr

/-- A held load error (R194): class 0 V or 1 S, register, lane (V) or quad (S), the load's PC and address; for a
FABRIC_LOSS (R355) the port and whether it came by timeout. -/
structure HeldErr where
  cls  : Nat
  num  : Nat
  unit : Nat
  pc   : Dword
  addr : Dword
  loss : Option (Nat × Bool)
deriving DecidableEq, Repr

/-- A fault pending on a counter, or held for the wave (R168, R233, R243, R355); `barr` and `hand` are the barrier and
the handle of a copy; `also` the faults that have been merged into it, by operation and code. -/
structure Pending where
  quads  : QuadMask
  ctr    : Option Nat
  code   : Nat
  cause  : Nat
  mask   : LaneMask
  pc     : Dword
  addr   : Dword
  aux0   : Word
  aux1   : Word
  merged : Word
  barr   : Option Nat
  hand   : Option Word
  op     : Nat
  also   : List (Nat × Nat) := []
deriving DecidableEq, Repr

/-- A fault of a batch not yet delivered (R115, R140). -/
structure BatchFault where
  code : Nat
  num  : Nat
  sub  : Nat
  pc   : Dword
  addr : Dword
  val  : Word
  aux1 : Word
deriving DecidableEq, Repr

/-- A wave's batches at one engine (R113, R114): the number that the open batch will take, the numbers of the closed
batches that are kept, oldest first, and the faults. -/
structure Batches where
  openNum : Nat
  closed  : List Nat
  faults  : List BatchFault
deriving DecidableEq, Repr

/-- A barrier registration (R303). -/
structure Registration where
  addr : Nat
  reg  : QuadMask
  arr  : QuadMask
  last : BitVec 16
deriving DecidableEq, Repr

/-- A knit episode (R258, R262). -/
structure Episode where
  pc    : Dword
  impl  : Bool
  parts : List Nat
  timer : Nat
  need  : Nat
deriving DecidableEq, Repr

/-- The current tile record of a wave (R154, R313). -/
structure TileState where
  words  : List Word
  ticket : Nat
  held   : Bool
  done   : Bool
deriving DecidableEq, Repr

/-- Sequence counts of a wave (R393, R236, R312). -/
structure Seqs where
  dseq : BitVec 16
  atom : Word
  emit : Word
deriving DecidableEq, Repr

/-- A resident or saved wave. -/
structure Wave where
  group   : Nat
  index   : Nat
  sched   : Nat
  nquads  : Nat
  age     : Nat
  exited  : LaneMask
  v       : Tbl (List Word)
  p       : Tbl LaneMask
  s       : Tbl (List Word)
  fmt     : List Word
  cutp    : List Word
  parts   : Tbl Part
  errs    : List HeldErr
  pend    : List Pending
  fmu     : Batches
  ta      : Batches
  regs    : List Registration
  eps     : List Episode
  hits    : Tbl (List Word)
  tile    : Option TileState
  seqs    : Seqs
  gbar    : Bool
deriving DecidableEq, Repr

/-! ### Operations that have issued and are not complete -/

/-- The kinds of operation. -/
inductive OpKind where
  /-- An instruction that was complete at issue and waits only to retire in order (R30). -/
  | done
  | load | store | ldw | prefetch | maintain | atom | red
  | copy | wsWrite | mcst | mred
  | mma | mmas | mdrain
  | twld | tmac | tdrain | tzero
  | sample | emit | trace | image
deriving DecidableEq, Repr

/-- One piece (R192) of an access: lane, byte offset in the lane's operand, virtual address, location, length, the
bytes it carries, and whether its page is host-shared (R332). -/
structure Piece where
  lane : Nat
  off  : Nat
  va   : Dword
  loc  : Loc
  len  : Nat
  data : List Byte
  hs   : Bool
deriving DecidableEq, Repr

/-- An operation: an instruction that has issued (R30, R193), with the operands it captured. `quads` are those whose
counter it has not left, `all` those of the part that issued it; `prior` the operations before it in program order;
`wid`, `born` and `aord` the wave's id, the part's formation DSEQ and its access ordinal (R393); `start` its time; `logs` the rings in
which the record that it reserved stands, by slice, 128 for its core's event ring (R394); `had` the sectors that a sampler or
ray operation has read, with their bytes in error, which its other lanes read as it did (R192, R207). `acc`
of a memory operation holds a flag for each 4 bytes of a piece: 1 an uncorrectable error, 2 a loss, 3 a loss by timeout;
`owed` the faults that become pending as the operation retires (R168). -/
structure Op where
  id     : Nat
  wave   : Nat
  group  : Nat
  part   : Nat
  quads  : QuadMask
  all    : QuadMask
  ctr    : Option Nat
  pc     : Dword
  kind   : OpKind
  done   : Bool
  code   : Nat
  scope  : Nat
  ord    : Nat
  hint   : Nat
  dst    : Dst
  span   : Nat
  mask   : LaneMask
  args   : List Word
  lanes  : Tbl (List Word)
  pieces : List Piece
  acc    : Tbl (List Word)
  seen   : Tbl (List Byte)
  prior  : List Nat
  fmt    : Word
  batch  : Nat
  sigs   : Option (Sig × Time)
  fail   : Option Pending
  owed   : List Pending
  misc   : Nat
  wid    : Nat
  born   : Nat
  aord   : Nat
  start  : Time
  logs   : List Nat := []
  had    : List (Loc × List Byte × List Nat) := []
deriving DecidableEq, Repr

/-! ### Groups and units of work -/

/-- A tile queue (R307), and the parts that wait to push and to pop, in the order they began (R308). -/
structure Queue where
  base  : Nat
  cap   : Nat
  head  : Word
  tail  : Word
  allow : Tbl Nat
  push  : List PartRef
  pop   : List PartRef
deriving DecidableEq, Repr

/-- Where a group stands (R289 to R291, R296, R389). -/
inductive GroupState where
  | tiles | running | stopping | saved | attached
deriving DecidableEq, Repr

/-- A dispatched group. `heldGo`: saved by an attach, until HALT.GO (R389); `accErr` and `taccErr`: the accumulator cells
in uncorrectable error (R115, R140); `rennet`: the rennet entries of its binding, while it is saved (R296); `scheds`: the
schedulers whose blocks its waves hold, until the group ends (R291); `begun`: its waves have started (R290); `overs`: of
each barrier with overfill, the PC of the copy that first caused it (R242, R360); `sigz`: the (Σ, Z) of the cores that it has
left, while it is saved (R220, R296); `gone`: its waves that have ended, whose registers stand until the group ends (R291,
R422). -/
structure Group where
  unit   : Nat
  g      : Nat
  core   : Nat
  state  : GroupState
  cancel : Bool
  waves  : List Nat
  lsz    : Nat
  ls     : Memory
  acc    : Tbl Word
  token  : Tbl PartRef
  plane  : Tbl Int
  tacc   : Tbl Word
  accErr  : List Nat
  taccErr : List Nat
  illeg  : Word
  window : Word
  queues : Tbl Queue
  todo   : List Nat
  rennet : List (Nat × Nat × List Word)
  scheds : List Nat
  begun  : Bool
  overs  : Tbl Dword
  tileF  : List TrapInfo
  heldOn : Option Word
  heldGo : Bool
  sigz   : Sig × Time := (0, 0)
  gone   : Tbl Wave := []
deriving DecidableEq, Repr

/-- The levels of work (R277). -/
inductive UnitKind where
  | job | phase | graph | launch | draw
deriving DecidableEq, Repr

/-- The states of R277. -/
inductive UnitState where
  | waiting | checking | running | ended (status : Nat)
deriving DecidableEq, Repr

/-- A key that a group has entered by XSHUF (R100): its partner, whether the partner has ended, the XSHUFs that each of
its waves has made on the key, and those that timed out (wave, number). -/
structure XPair where
  key     : Word
  group   : Nat
  partner : Option Nat
  dead    : Bool
  tries   : Tbl Nat
  failed  : List (Nat × Nat)
deriving DecidableEq, Repr

/-- A job, phase, graph run, launch or draw. `giving` is the core that gives up groups of lower priority for a launch that
waits (R296); `fate` the status and cause with which it is to end, where its end is due and has been put off. -/
structure WorkUnit where
  kind    : UnitKind
  ctx     : Nat
  ctl     : Bool
  parent  : Option Nat
  state   : UnitState
  cancel  : Bool
  addr    : Dword
  words   : List Word
  lists   : List (List Word)
  index   : Nat
  prio    : Nat
  handle  : Word
  cause   : Nat
  worst   : Nat
  next    : Nat
  ended   : Nat
  cores   : List Nat
  stage   : Nat
  heldOn  : Option Word
  gen     : Nat
  gsig    : Sig × Time
  peer    : Option Nat
  time    : Nat
  desc    : List Word
  log     : List Word
  mode    : Nat
  fixed   : Bool
  prof    : Bool
  xpairs  : List XPair
  giving  : Option Nat := none
  fate    : Option (Nat × Nat) := none
deriving DecidableEq, Repr

/-! ### Cores, clusters, slices, dies -/

/-- A translation held by a TLB (R336): page base and size, physical base, AP, HS, NX, WP. -/
structure TlbEntry where
  asid  : Nat
  vbase : Nat
  log   : Nat
  pbase : Nat
  ap    : Nat
  hs    : Bool
  nx    : Bool
  wp    : Bool
deriving DecidableEq, Repr

/-- What a sector in an L1 holds (R182). -/
inductive L1Kind where
  | global | const | priv
deriving DecidableEq, Repr

/-- A sector held by an L1: its bytes, and for private data which of them are dirty. -/
structure L1Sector where
  kind  : L1Kind
  data  : List Byte
  dirty : BitVec 32
deriving DecidableEq, Repr

/-- Registers of the current record of a core (R401, R403, R404), the clocks of the window that runs, and the parts that a
bubble has held until its first clock. -/
structure Current where
  lim     : BitVec 16
  next    : BitVec 16
  win     : Word
  used    : Nat
  excess  : Nat
  bubbles : Word
  clks    : Nat
  held    : List PartRef := []
deriving DecidableEq, Repr

/-- Freeze state of a core (R389). -/
structure Freeze where
  frozen   : Bool
  ctx      : Nat
  attached : Bool
  since    : Nat
deriving DecidableEq, Repr

/-- A hardware breakpoint (R386): its four words. -/
structure Breakpoint where
  pclo : Word
  pchi : Word
  ctl  : Word
  hits : Word
deriving DecidableEq, Repr

/-- Low-rail state of the four islands of a core (R402): LREN, which islands are in the mode and which are waking, and
the rail readings; the clocks of the running window of each, its memory waits and its occupancy, and what the
clocks after its 4,096 have counted for the next. -/
structure Islands where
  lren  : BitVec 4
  low   : BitVec 4
  wake  : BitVec 4
  timer : List Nat
  vmon  : List (BitVec 16)
  clks  : List Nat
  memw  : List Nat
  occ   : List Nat
  memn  : List Nat := [0, 0, 0, 0]
  occn  : List Nat := [0, 0, 0, 0]
deriving DecidableEq, Repr

/-- An instruction that a scheduler has issued in the running clock (R29, R250): its part, that part's quads, the PC, and
its charge (R404). -/
structure Issued where
  part  : PartRef
  quads : QuadMask
  pc    : Dword
  instr : Instr
  cost  : Nat
deriving DecidableEq, Repr

/-- A core. `issued` holds, by scheduler, what has issued in the running clock; `fmt` and `cutp` are what FMT and CUTP hold
where no launch has written them: in a wave slot that has held no wave, and in the quads that a wave's shape leaves out (R72,
R253); `eaten`, by context, the places beyond HEAD whose records a replay has consumed (R395). -/
structure Core where
  fmt     : Word
  cutp    : Word
  sig     : Sig
  z       : Time
  f       : Time
  clk     : Dword
  seq     : BitVec 16
  tlb     : List TlbEntry
  l1      : Tbl L1Sector
  tex     : Tbl (List Byte)
  rays    : Tbl (List Byte)
  rennet  : List (Nat × Nat × List Word)
  bp      : List Breakpoint
  trapcnt : Word
  freeze  : Freeze
  cur     : Current
  isl     : Islands
  looks   : Nat
  slotRot : List Nat
  swapAt  : List Nat
  issued  : Tbl (List Issued)
  runs    : Tbl (Nat × Nat × Nat × Bool)
  eaten   : Tbl (List Nat) := []
deriving DecidableEq, Repr

/-- A copy channel (R237, R244). -/
structure Channel where
  issued : BitVec 28
  doneS  : BitVec 28
  queue  : List Nat
deriving DecidableEq, Repr

/-- The operating point of a cluster (R405). -/
structure Dvfs where
  cpt  : Nat
  tpt  : Nat
  qpt  : Nat
  ramp : Bool
  left : Nat
deriving DecidableEq, Repr

/-- A tile record held by a rasteriser (R154, R155). -/
structure TileRec where
  unit   : Nat
  tx     : Nat
  ty     : Nat
  key    : List Nat
  ticket : Nat
  words  : List Word
deriving DecidableEq, Repr

/-- A coarse rasteriser (R155, R312, R313): records not yet handed out, records counted at each position, and the
retirement state of each position; what the retirements have released. -/
structure Raster where
  recs    : List TileRec
  count   : Tbl Nat
  next    : Tbl Nat
  retired : List (Nat × Nat × Nat)
  sig     : Sig × Time
deriving DecidableEq, Repr

/-- A cluster. -/
structure Cluster where
  tlb   : List TlbEntry
  fbuf  : List (Nat × List Byte)
  tbuf  : List (Nat × List Byte)
  chans : Tbl Channel
  rast  : Raster
  dvfs  : Dvfs
  tsens : BitVec 16
  pmon  : BitVec 16
deriving DecidableEq, Repr

/-- An exact accumulator of fixed-order mode (R235), one for each element of a sector. -/
structure ExactAcc where
  sum   : Int
  pinf  : Bool
  ninf  : Bool
  nan   : Bool
  negz  : Bool
deriving DecidableEq, Repr

/-- The entry of a pending sector (R235): the operation, the context, its elements and the contributions. -/
structure FixedEntry where
  op    : Nat
  ctx   : Nat
  elems : List ExactAcc
  count : Nat
deriving DecidableEq, Repr

/-- An L2 slice (R219, R189, R235, R393). -/
structure Slice where
  sigs  : List (Nat × Sig × Time)
  zs    : Time
  keep  : Tbl Nat
  fixed : Tbl FixedEntry
  seq   : BitVec 16
  runs  : Tbl (Nat × Nat × Nat × Bool)
deriving DecidableEq, Repr

/-- The assay ring of a die (R398). -/
structure Assay where
  recs   : Tbl (List Byte)
  tail   : Word
  drop   : Word
  frozen : Bool
  seq    : BitVec 16
deriving DecidableEq, Repr

/-- The words of a context (R399, R314, R349, R380), and whether a reset of it has begun (R373). -/
structure Context where
  logctl   : BitVec 5
  handle   : Word
  halted   : Bool
  intake   : List Dword
  accepted : BitVec 16
  dropped  : BitVec 16
  heldOn   : Option Word
  resets   : Bool
deriving DecidableEq, Repr

/-! ### The package -/

/-- Translation and hot-page registers (R344), and the ASID entries in force (R335): their words at +0 and +8. -/
structure TransRegs where
  trtab  : Nat
  asids  : Tbl (Nat × Nat)
  serial : Word
  hpen   : Bool
  hplog  : Nat
  hpbase : Nat
  rlog   : Nat
  hptail : Word
  hphead : Word
  hpdrop : Word
deriving DecidableEq, Repr

/-- Table registers of the other chapters: TQTAB, LGTAB, CXTAB, FRZLIM (R366, R388, R414, R389). -/
structure TableRegs where
  tqtab  : Nat
  lgtab  : Nat
  cxtab  : Nat
  frzlim : Word
deriving DecidableEq, Repr

/-- A collective group entry (R357). -/
structure Coll where
  isOpen  : Bool
  drain   : Word
  ctx     : BitVec 10
  tenant  : BitVec 16
  wbase   : Dword
  wsize   : Dword
  members : BitVec 256
deriving DecidableEq, Repr

/-- Host and domain registers (R352 to R357), the lines whose back-invalidate the host has not answered, and the snoop
filter, oldest first (R352); and the pending sectors of this device's fixed-order reductions in other devices' memory,
which the slices there hold (R225, R235); the HDM decoders that the host has programmed: base and size (R351). -/
structure LinkRegs where
  hostcls  : BitVec 2
  devid    : BitVec 8
  present  : BitVec 256
  flto     : Nat
  windows  : Tbl (Dword × Dword)
  porterr  : Tbl Word
  coll     : Tbl Coll
  collstat : Word
  snoop    : List Nat
  filter   : List Nat
  fixed    : Tbl FixedEntry
  hdm      : Tbl (Nat × Nat)
deriving DecidableEq, Repr

/-- A request from outside the device (R323): of the host, of another device, or a delivery to a collective group. -/
inductive Inbound where
  | host (addr : Nat) (len : Nat) (data : Option (List Byte))
  | domain (r : DomainReq)
  | coll (g : Nat) (r : DomainReq)
deriving DecidableEq, Repr

/-- A packet (R319): the operation that a request serves (0 for none) or what has come from outside, its first sector and
how many it covers, its flits and those of its answer, whether it is a response, its port and class, the stops that it
goes between, and its destination endpoint (R322). -/
structure Packet where
  op    : Nat
  inb   : Option Inbound
  loc   : Loc
  sects : Nat
  flits : Nat
  back  : Nat
  resp  : Bool
  port  : Nat
  cls   : Nat
  src   : Nat
  dst   : Nat
  sink  : Nat
deriving DecidableEq, Repr

/-- The torus (R320 to R322): the network clocks of the running window, the packets in each input buffer, the clocks that an
output still drives a packet, what each output sent last, and the requests that have been delivered and not answered. -/
structure Net where
  clks    : Nat
  bufs    : Tbl (List Packet)
  busy    : Tbl Nat
  sent    : Tbl (Nat × Bool)
  arrived : List Packet
deriving DecidableEq, Repr

/-- A token bucket (R325, R326): the register as written, the values in force, credit, WAITW, and the class's injection
queue. -/
structure Bucket where
  en      : Bool
  burst   : Nat
  limit   : Nat
  nextB   : Nat
  nextL   : Nat
  nextEn  : Bool
  cred    : Nat
  waitw   : BitVec 16
  held    : List Packet
  waited  : Bool
deriving DecidableEq, Repr

/-- One thermal level (R407): active, and the ns it has held its state. -/
structure Trip where
  active : Bool
  dwell  : Nat
deriving DecidableEq, Repr

/-- Package-wide power and heat (R401, R407); `due` are the levels that the last sample changes, ascending. -/
structure Thermal where
  pktemp  : BitVec 16
  tripev  : Bool
  trips   : List Trip
  pkpwr   : BitVec 16
  modpwr  : BitVec 16
  powered : Bool
  due     : List Nat := []
deriving DecidableEq, Repr

/-- Bring-up state (R414, R411): RKIND, ERR, SLOT, PHASE, READY, XLATE, PORTDOWN, whether a device fatal error is
to be answered (R363), the digest of the loaded image (R358), its length and entry offset (R413), and what the boot ROM meets while its
wave runs, in slot 46 of scheduler 0 of core 0 (R411). -/
structure Boot where
  rkind    : BitVec 4
  err      : BitVec 12
  slot     : Bool
  phase    : BitVec 4
  ready    : Bool
  xlate    : Bool
  portdown : BitVec 18
  fatal    : Bool
  digest   : BitVec 256
  image    : Nat × Nat := (0, 0)
  rom      : Option BootIn := none
deriving DecidableEq, Repr

/-- A fault record that FLTDONE has not named (R342). -/
structure OpenRecord where
  id   : Word
  asid : Nat
  page : Nat
  type : Nat
deriving DecidableEq, Repr

/-- What the device has sent out of the package: interrupts, answers and requests. -/
inductive Out where
  /-- MSI-X vector (R363). -/
  | msix (n : Nat)
  /-- Data answered to a host read (R352). -/
  | hostData (data : List Byte)
  /-- A host read that met an uncorrectable error: no value is passed on (R2). -/
  | hostError
  /-- A host write performed (R352). -/
  | hostDone
  /-- Configuration Request Retry Status (R411). -/
  | configRetry
  /-- An answered configuration request (R351). -/
  | configData (data : Word)
  /-- An SPDM answer: its measured contents and its signature (R358). -/
  | spdm (body signature : Nat)
  /-- Data answered to a domain request (R353), with the signature that the read receives (R220). -/
  | fabricData (port tag : Nat) (data : List Byte) (sig : Sig)
  /-- A loss response to a domain request (R353). -/
  | fabricLoss (port tag : Nat)
  /-- A back-invalidate snoop of a line (R352). -/
  | snoop (line : Nat)
  /-- The header of a request to another device (R354): fabric port, tenant, context, class, address, operation and tag,
  source device and, of an atomic, its code; and the signature that a release carries (R219). -/
  | fabric (port source tenant ctx cls : Nat) (loc : Loc) (kind : OpKind) (code : Option Nat) (tag : Nat) (sig : Option Sig)
  /-- An entry of the CDAT table (R351). -/
  | cdat (data : Word)
deriving DecidableEq, Repr

/-- Everything outside the compute dies' own registers that holds bytes (R180, R127, R413): device memory in GDDR7, the
dirty bytes of L2, host memory, memory of the domain's other devices (by device), the weight stores (by die), the module
flash; locations in uncorrectable error; and the ranges (base, length, stamp) whose contents
the manual leaves without a layout. -/
structure Store where
  gddr  : Memory
  l2    : Tbl Byte
  host  : Memory
  peer  : Tbl Memory
  ws    : Tbl Memory
  flash : Memory
  bad   : List Loc
  vague : List (Nat × Nat × Nat)
deriving DecidableEq, Repr

/-- A change that no agent of the device makes: from outside it, or the replacement of an L2 line (R182, R219). -/
inductive Ext where
  | host (a : Nat) (data : List Byte)
  | peer (d a : Nat) (data : List Byte)
  | flash (a : Nat) (data : List Byte)
  /-- A location takes an uncorrectable error (R2). -/
  | bad (l : Loc)
  /-- A cell of a group's accumulator tiles, or of its TACCs, takes one (R115, R140). -/
  | badAcc (g k : Nat)
  | badTacc (g k : Nat)
  /-- A line leaves L2 by replacement (R219). -/
  | l2 (line : Nat)
  /-- The host programs an HDM decoder: base and size (R351). -/
  | hdm (k base size : Nat)
  /-- The host reads control space through BAR0 (R351), or a page of BAR2 (R349). -/
  | bar0 (off len : Nat)
  | bar2 (off len : Nat)
  /-- The host reads the CDAT mailbox (R351). -/
  | cdat (entry : Word)
deriving DecidableEq, Repr

/-- Who moves: a part issues, or an event of the table happens. -/
inductive Act where
  | issue (p : PartRef)
  | event (i : Instr)
deriving DecidableEq, Repr

/-- One turn: the time that passes in ns, in network clocks, in arithmetic clocks of every core and in further clocks of
single cores, what comes from outside, and who moves. -/
structure Turn where
  ns   : Nat
  net  : Nat
  clk  : Nat
  more : List (Nat × Nat)
  ext  : List Ext
  act  : Act
deriving DecidableEq, Repr

/-- The machine. `time` is the device time in ns (R222), `wrapped` whether it has wrapped since reset (R130);
SEQCLK of a core is `clk`, which every core counts, plus its own further clocks (R46). -/
structure State where
  mem      : Store
  waves    : Tbl Wave
  groups   : Tbl Group
  units    : Tbl WorkUnit
  fresh    : Nat
  ops      : List Op
  cores    : Tbl Core
  clusters : Tbl Cluster
  slices   : Tbl Slice
  dies     : Tbl Assay
  ctxs     : Tbl Context
  time     : Time
  wrapped  : Bool
  clk      : Dword
  trans    : TransRegs
  tables   : TableRegs
  link     : LinkRegs
  net      : Net
  buckets  : Tbl Bucket
  heat     : Thermal
  boot     : Boot
  recs     : List OpenRecord
  out      : List Out
  turns    : List Turn
  cur      : PartRef
  ctr      : Nat
deriving DecidableEq, Repr

/-! ### Reset (R408 to R410, R414) -/

def Current.reset : Current := { lim := 8192, next := 8192, win := 0, used := 0, excess := 0, bubbles := 0, clks := 0 }

def Freeze.reset : Freeze := { frozen := false, ctx := 0, attached := false, since := 0 }

def Breakpoint.reset : Breakpoint := { pclo := 0, pchi := 0, ctl := 0, hits := 0 }

def Islands.reset : Islands :=
  { lren := 0xF, low := 0, wake := 0, timer := [0, 0, 0, 0], vmon := [0, 0, 0, 0], clks := [0, 0, 0, 0],
    memw := [0, 0, 0, 0], occ := [0, 0, 0, 0] }

/-- FMT and CUTP after core reset (R72, R253). -/
def fmtReset : Word := 0x00001110
def cutpReset : Word := 0x00000C77

/-- A core after core reset (R46, R72, R218, R336, R379, R386, R389, R401, R410). -/
def Core.reset : Core :=
  { fmt := fmtReset, cutp := cutpReset, sig := 0, z := 0, f := 0, clk := 0, seq := 0, tlb := [], l1 := [], tex := [], rays := [], rennet := [],
    bp := List.replicate 8 Breakpoint.reset, trapcnt := 0, freeze := Freeze.reset, cur := Current.reset,
    isl := Islands.reset, looks := 0, slotRot := [0, 0, 0, 0], swapAt := [4, 4, 4, 4],
    issued := [], runs := [] }

def Channel.reset : Channel := { issued := 0, doneS := 0, queue := [] }

def Dvfs.reset : Dvfs := { cpt := 21, tpt := 21, qpt := 0, ramp := false, left := 0 }

def Raster.reset : Raster := { recs := [], count := [], next := [], retired := [], sig := (0, 0) }

def Cluster.reset : Cluster :=
  { tlb := [], fbuf := [], tbuf := [], chans := [], rast := Raster.reset, dvfs := Dvfs.reset, tsens := 0, pmon := 0 }

def Slice.reset : Slice := { sigs := [], zs := 0, keep := [], fixed := [], seq := 0, runs := [] }

def Assay.reset : Assay := { recs := [], tail := 0, drop := 0, frozen := false, seq := 0 }

def Context.reset : Context :=
  { logctl := 0, handle := 1, halted := false, intake := [], accepted := 0, dropped := 0, heldOn := none,
    resets := false }

def TransRegs.reset : TransRegs :=
  { trtab := 0, asids := [], serial := 1, hpen := false, hplog := 8, hpbase := 0, rlog := 6, hptail := 0, hphead := 0, hpdrop := 0 }

def TableRegs.reset : TableRegs := { tqtab := 0, lgtab := 0, cxtab := 0, frzlim := 2000 }

def Coll.reset : Coll :=
  { isOpen := false, drain := 0, ctx := 0, tenant := 0, wbase := 0, wsize := 0, members := 0 }

def LinkRegs.reset : LinkRegs :=
  { hostcls := 1, devid := 0, present := 0, flto := 64, windows := [], porterr := [], coll := [], collstat := 0,
    snoop := [], filter := [], fixed := [], hdm := [] }

def Net.reset : Net := { clks := 0, bufs := [], busy := [], sent := [], arrived := [] }

def Bucket.reset : Bucket :=
  { en := false, burst := 0, limit := 0, nextB := 0, nextL := 0, nextEn := false, cred := 0, waitw := 0, held := [], waited := false }

def Thermal.reset : Thermal :=
  { pktemp := 0, tripev := false, trips := List.replicate 3 { active := false, dwell := 0 }, pkpwr := 0, modpwr := 0,
    powered := true }

def Boot.reset (kind : BitVec 4) : Boot :=
  { rkind := kind, err := 0, slot := false, phase := 0, ready := false, xlate := false, portdown := 0,
    fatal := false, digest := 0 }

/-- No bytes anywhere: device memory and weight store read zero (R411 step 2), and so do the host, the domain and the
flash (log entry 4). -/
def Store.reset : Store :=
  { gddr := [], l2 := [], host := [], peer := [], ws := [], flash := [], bad := [], vague := [] }

/-- The machine right after a cold reset: no part runs (R408), every register at its Reset value, RKIND 1; the boot ROM
has not yet begun its steps (R411). -/
def State.reset : State :=
  { mem := Store.reset, waves := [], groups := [], units := [], fresh := 1, ops := [], cores := [], clusters := [],
    slices := [], dies := [], ctxs := [], time := 0, wrapped := false, clk := 0, trans := TransRegs.reset, tables := TableRegs.reset,
    link := LinkRegs.reset, net := Net.reset, buckets := [], heat := Thermal.reset, boot := Boot.reset 1, recs := [], out := [],
    turns := [], cur := { wave := 0, part := 0 }, ctr := 0 }

end Sys2Proof.Machine
end

