-- ==== Sys2Proof/Machine/Bits.lean ====
section
/-! DEFINITION. Masks of lanes and quads, bit fields and lists of 64 lanes. -/

namespace Sys2Proof.Machine

open Sys2Proof

/-- Bits `hi` to `lo` of a number. -/
def field (v hi lo : Nat) : Nat := v / 2 ^ lo % 2 ^ (hi + 1 - lo)

/-- Bit `i` of a number. -/
def nbit (v i : Nat) : Bool := v / 2 ^ i % 2 = 1

/-- A signed 64-bit widening of a 32-bit offset. -/
def sext32 (x : Word) : Dword := x.signExtend 64

/-- A pair as one value, low word first (R43). -/
def pair (lo hi : Word) : Dword := hi ++ lo

def lo32 (x : Dword) : Word := x.extractLsb' 0 32
def hi32 (x : Dword) : Word := x.extractLsb' 32 32

/-- The lanes of a set of quads: lane l lies in quad l div 4 (R46). -/
def quadLanes (q : QuadMask) : LaneMask :=
  BitVec.ofNat 64 ((List.range 16).foldl (fun a i => if q.getLsbD i then a + 15 * 16 ^ i else a) 0)

/-- The quads that hold a lane of a mask. -/
def lanesQuads (m : LaneMask) : QuadMask :=
  BitVec.ofNat 16 ((List.range 16).foldl (fun a i => if m.extractLsb' (4 * i) 4 = 0 then a else a + 2 ^ i) 0)

/-- Set positions of a mask, lowest first. -/
def maskBits {n : Nat} (m : BitVec n) : List Nat := (List.range n).filter m.getLsbD

def maskCount {n : Nat} (m : BitVec n) : Nat := (maskBits m).length

/-- The lowest set position. -/
def maskLow {n : Nat} (m : BitVec n) : Option Nat := (maskBits m).head?

/-- A mask from a test of each position. -/
def maskOf (n : Nat) (f : Nat → Bool) : BitVec n :=
  BitVec.ofNat n ((List.range n).foldl (fun a i => if f i then a + 2 ^ i else a) 0)

/-- The mask with one bit. -/
def bit1 (n i : Nat) : BitVec n := BitVec.ofNat n (2 ^ i)

/-- 64 words, one for each lane. -/
def lanesOf (f : Nat → Word) : List Word := (List.range 64).map f

/-- The word of a lane or quad; zero beyond the list. -/
def nth (l : List Word) (i : Nat) : Word := l.getD i 0

/-- Values of the quads, one for each. -/
def quadsOf (f : Nat → Word) : List Word := (List.range 16).map f

/-- Words of bytes, four to a word (R5). -/
def bytesWords : List Byte → List Word
  | a :: b :: c :: d :: r => (d ++ c ++ b ++ a : Word) :: bytesWords r
  | _ => []

/-- Bytes of words. -/
def wordsBytes : List Word → List Byte
  | [] => []
  | w :: r => leBytes 4 w.toNat ++ wordsBytes r

/-- Replace the head of the elements that satisfy a test. -/
def replaceFirst {α : Type} (p : α → Bool) (f : α → α) : List α → List α
  | [] => []
  | a :: r => if p a then f a :: r else a :: replaceFirst p f r

/-- The elements without repeats, in order of first appearance. -/
def dedup {α : Type} [DecidableEq α] (l : List α) : List α :=
  l.foldl (fun acc a => if acc.contains a then acc else acc ++ [a]) []

/-- The least element under a measure, the earliest among equals. -/
def leastBy {α : Type} (f : α → Nat) : List α → Option α
  | [] => none
  | a :: r =>
    match leastBy f r with
    | none => some a
    | some b => if f b < f a then some b else some a

end Sys2Proof.Machine
end

