-- ==== Sys2Proof/Machine/Num.lean ====
section
/-! DEFINITION. Number formats and rounding (R57 to R71): exact dyadic values, unpacking, rounding and packing. -/

namespace Sys2Proof.Machine

open Sys2Proof

/-- A binary format of R58: exponent and fraction widths, bias, and whether E all ones is special (R59). -/
structure FloatFmt where
  ew   : Nat
  mw   : Nat
  bias : Nat
  spec : Bool
deriving DecidableEq, Repr

namespace FloatFmt

def f64 : FloatFmt := { ew := 11, mw := 52, bias := 1023, spec := true }
def f32 : FloatFmt := { ew := 8, mw := 23, bias := 127, spec := true }
def f16 : FloatFmt := { ew := 5, mw := 10, bias := 15, spec := true }
def bf16 : FloatFmt := { ew := 8, mw := 7, bias := 127, spec := true }
def e5m2 : FloatFmt := { ew := 5, mw := 2, bias := 15, spec := true }
def e4m3 : FloatFmt := { ew := 4, mw := 3, bias := 7, spec := false }
def e3m2 : FloatFmt := { ew := 3, mw := 2, bias := 3, spec := false }
def e2m3 : FloatFmt := { ew := 2, mw := 3, bias := 1, spec := false }
def e2m1 : FloatFmt := { ew := 2, mw := 1, bias := 1, spec := false }

/-- Bits of the format. -/
def width (f : FloatFmt) : Nat := 1 + f.ew + f.mw

/-- Canonical NaN (R59). -/
def nanBits (f : FloatFmt) : Nat :=
  if f.spec then (2 ^ f.ew - 1) * 2 ^ f.mw + 2 ^ (f.mw - 1)
  else if f.ew = 4 then 0x7F else 0

/-- Pattern of infinity, without its sign. -/
def infBits (f : FloatFmt) : Nat := (2 ^ f.ew - 1) * 2 ^ f.mw

/-- Pattern of the largest finite value (R58). -/
def maxBits (f : FloatFmt) : Nat :=
  if f.spec then (2 ^ f.ew - 1) * 2 ^ f.mw - 1
  else if f.ew = 4 then 0x7E else 2 ^ (f.ew + f.mw) - 1

/-- A pattern with a sign. -/
def signed (f : FloatFmt) (neg : Bool) (b : Nat) : Nat := if neg then b + 2 ^ (f.ew + f.mw) else b

/-- DNM acts on binary32, binary16 and BF16 (R61). -/
def flushes (f : FloatFmt) : Bool := f.spec && f.ew != 11 && f.mw != 2

end FloatFmt

/-- A value: NaN, an infinity, or (-1)^neg * n * 2^e; n = 0 is a zero with its sign. -/
inductive Num where
  | nan
  | inf (neg : Bool)
  | fin (neg : Bool) (n : Nat) (e : Int)
deriving DecidableEq, Repr

/-- Unpack a pattern (R58, R59). -/
def unpack (f : FloatFmt) (b : Nat) : Num :=
  let neg := nbit b (f.ew + f.mw)
  let ex := b / 2 ^ f.mw % 2 ^ f.ew
  let m := b % 2 ^ f.mw
  if f.spec && ex = 2 ^ f.ew - 1 then (if m = 0 then .inf neg else .nan)
  else if !f.spec && f.ew = 4 && b % 128 = 127 then .nan
  else if ex = 0 then .fin neg m (1 - (f.bias : Int) - f.mw)
  else .fin neg (m + 2 ^ f.mw) ((ex : Int) - f.bias - f.mw)

/-- Rounding modes of R62, DYN resolved. -/
inductive RMode where
  | rn | rz | ru | rd | rna
deriving DecidableEq, Repr

/-- Whether a magnitude with quotient k and remainder r of d is rounded up. -/
def roundsUp (mode : RMode) (neg : Bool) (k r d : Nat) : Bool :=
  if r = 0 then false else
  match mode with
  | .rn => 2 * r > d || (2 * r = d && k % 2 = 1)
  | .rna => 2 * r ≥ d
  | .rz => false
  | .ru => !neg
  | .rd => neg

/-- The integer nearest to n / d by a mode. -/
def roundRatio (mode : RMode) (neg : Bool) (n d : Nat) : Nat :=
  let k := n / d
  if roundsUp mode neg k (n % d) d then k + 1 else k

/-- Floor of the binary logarithm of n / d, both nonzero. -/
def ratioLog (n d : Nat) : Int :=
  let e := (Nat.log2 n : Int) - Nat.log2 d
  let below := if 0 ≤ e then n < d * 2 ^ e.toNat else n * 2 ^ (-e).toNat < d
  if below then e - 1 else e

/-- n / d as k * 2^q on the grid of a format, exponents unbounded above (R63, R64). -/
def quantise (f : FloatFmt) (mode : RMode) (neg : Bool) (n d : Nat) : Nat × Int :=
  let emin : Int := 1 - f.bias
  let q := max (ratioLog n d) emin - f.mw
  let k := if 0 ≤ q then roundRatio mode neg n (d * 2 ^ q.toNat) else roundRatio mode neg (n * 2 ^ (-q).toNat) d
  if k = 2 ^ (f.mw + 1) then (2 ^ f.mw, q + 1) else (k, q)

/-- The pattern of k * 2^q, without sign; it may exceed the largest finite pattern. -/
def gridBits (f : FloatFmt) (k : Nat) (q : Int) : Nat :=
  if k < 2 ^ f.mw then k else ((q + f.mw + f.bias).toNat) * 2 ^ f.mw + (k - 2 ^ f.mw)

/-- R63: n / d rounded into binary64, binary32, binary16 or BF16. -/
def roundIeee (f : FloatFmt) (mode : RMode) (neg : Bool) (n d : Nat) : Nat :=
  if n = 0 then f.signed neg 0 else
  let (k, q) := quantise f mode neg n d
  let b := gridBits f k q
  if b ≤ f.maxBits then f.signed neg b
  else
    match mode with
    | .rn | .rna => f.signed neg f.infBits
    | .rz => f.signed neg f.maxBits
    | .ru => f.signed neg (if neg then f.maxBits else f.infBits)
    | .rd => f.signed neg (if neg then f.infBits else f.maxBits)

/-- R64: overflow into a narrow format, by FMT.INF. -/
def narrowOver (f : FloatFmt) (inf neg : Bool) : Nat :=
  if inf then (if f.spec then f.signed neg f.infBits else if f.ew = 4 then f.signed neg 0x7F else f.signed neg f.maxBits)
  else f.signed neg f.maxBits

/-- R64: n / d rounded into E5M2, E4M3, E3M2, E2M3 or E2M1. -/
def roundNarrow (f : FloatFmt) (inf neg : Bool) (n d : Nat) : Nat :=
  if n = 0 then f.signed neg 0 else
  let (k, q) := quantise f .rn neg n d
  let b := gridBits f k q
  if b ≤ f.maxBits then f.signed neg b else narrowOver f inf neg

/-- The two parts of a dyadic value as a ratio. -/
def ratio (n : Nat) (e : Int) : Nat × Nat := if 0 ≤ e then (n * 2 ^ e.toNat, 1) else (n, 2 ^ (-e).toNat)

/-- A value rounded into an IEEE format without regard to FMT (R63, R60). -/
def Num.pack (f : FloatFmt) (mode : RMode) : Num → Nat
  | .nan => f.nanBits
  | .inf neg => f.signed neg f.infBits
  | .fin neg n e => roundIeee f mode neg (ratio n e).1 (ratio n e).2

/-- A value converted into a narrow format (R64). -/
def Num.packNarrow (f : FloatFmt) (inf : Bool) : Num → Nat
  | .nan => f.nanBits
  | .inf neg => narrowOver f inf neg
  | .fin neg n e => roundNarrow f inf neg (ratio n e).1 (ratio n e).2

/-! ### Exact arithmetic -/

def Num.negate : Num → Num
  | .nan => .nan
  | .inf s => .inf (!s)
  | .fin s n e => .fin (!s) n e

def Num.isNan : Num → Bool
  | .nan => true
  | _ => false

def Num.isZero : Num → Bool
  | .fin _ n _ => n = 0
  | _ => false

def Num.sign : Num → Bool
  | .nan => false
  | .inf s => s
  | .fin s _ _ => s

/-- The value as an integer on the grid 2^e0, e0 not above its exponent. -/
def Num.onGrid (e0 : Int) : Num → Int
  | .fin s n e => (if s then -1 else 1) * (n * 2 ^ (e - e0).toNat : Nat)
  | _ => 0

/-- From an integer on the grid 2^e0; zero takes the sign given. -/
def Num.ofGrid (e0 : Int) (zneg : Bool) (v : Int) : Num :=
  if v = 0 then .fin zneg 0 e0 else .fin (decide (v < 0)) v.natAbs e0

/-- Exact product; infinity times zero is NaN. -/
def Num.mul : Num → Num → Num
  | .fin s n e, .fin t m f => .fin (s != t) (n * m) (e + f)
  | .nan, _ => .nan
  | _, .nan => .nan
  | .inf s, .inf t => .inf (s != t)
  | .inf s, .fin t m _ => if m = 0 then .nan else .inf (s != t)
  | .fin s n _, .inf t => if n = 0 then .nan else .inf (s != t)

/-- Exact sum. An exact zero sum of zeros of one sign keeps that sign; any other is +0, or -0 when rounding to minus
infinity (R90). -/
def Num.add (rd : Bool) : Num → Num → Num
  | .nan, _ => .nan
  | _, .nan => .nan
  | .inf s, .inf t => if s = t then .inf s else .nan
  | .inf s, .fin _ _ _ => .inf s
  | .fin _ _ _, .inf t => .inf t
  | .fin s n e, .fin t m f =>
    let e0 := min e f
    let z := if n = 0 && m = 0 && s = t then s else rd
    Num.ofGrid e0 z (Num.onGrid e0 (.fin s n e) + Num.onGrid e0 (.fin t m f))

/-- Exact sum of a list. -/
def Num.sum (rd : Bool) : List Num → Num
  | [] => .fin rd 0 0
  | a :: r => r.foldl (Num.add rd) a

/-- a < b on values that are no NaN; zeros of both signs are equal. -/
def Num.lt : Num → Num → Bool
  | .nan, _ => false
  | _, .nan => false
  | .inf s, .inf t => s && !t
  | .inf s, .fin _ _ _ => s
  | .fin _ _ _, .inf t => !t
  | .fin s n e, .fin t m f =>
    let e0 := min e f
    Num.onGrid e0 (.fin s n e) < Num.onGrid e0 (.fin t m f)

/-- Equality of values that are no NaN. -/
def Num.eq (a b : Num) : Bool := !a.isNan && !b.isNan && !Num.lt a b && !Num.lt b a

/-- An integer as a value. -/
def Num.ofInt (v : Int) : Num := Num.ofGrid 0 false v

/-! ### Denormal mode and FMT (R61, R72) -/

def fmtInf (fmt : Word) : Bool := fmt.getLsbD 26
def fmtFlushIn (fmt : Word) : Bool := fmt.getLsbD 25
def fmtFlushOut (fmt : Word) : Bool := fmt.getLsbD 24
def fmtC (fmt : Word) : Nat := (fmt.extractLsb' 12 4).toNat
def fmtB (fmt : Word) : Nat := (fmt.extractLsb' 8 4).toNat
def fmtA (fmt : Word) : Nat := (fmt.extractLsb' 4 4).toNat
def fmtScm (fmt : Word) : Nat := (fmt.extractLsb' 18 3).toNat

/-- The mode of FMT.RM (R62). -/
def fmtRm (fmt : Word) : RMode :=
  match (fmt.extractLsb' 21 3).toNat with
  | 1 => .rz | 2 => .ru | 3 => .rd | 4 => .rna | _ => .rn

/-- A rounding code with DYN resolved (R62). -/
def rmode (fmt : Word) : Rnd → RMode
  | .rn => .rn | .rz => .rz | .ru => .ru | .rd => .rd | .rna => .rna | .dyn => fmtRm fmt

/-- The mode of a three-bit rounding code. -/
def rmodeCode (fmt : Word) (c : Nat) : RMode :=
  match c with
  | 1 => .rz | 2 => .ru | 3 => .rd | 4 => .rna | 5 => fmtRm fmt | _ => .rn

/-- A pattern whose exponent field is zero becomes a zero of its sign. -/
def flushBits (f : FloatFmt) (b : Nat) : Nat :=
  if b / 2 ^ f.mw % 2 ^ f.ew = 0 then f.signed (nbit b (f.ew + f.mw)) 0 else b

/-- Unpack with the input flush of R61. -/
def readNum (fmt : Word) (f : FloatFmt) (b : Nat) : Num :=
  unpack f (if fmtFlushIn fmt && f.flushes then flushBits f b else b)

/-- The output flush of R61. -/
def flushOut (fmt : Word) (f : FloatFmt) (b : Nat) : Nat := if fmtFlushOut fmt && f.flushes then flushBits f b else b

/-- round_fmt (R63). -/
def roundFmt (fmt : Word) (mode : RMode) (f : FloatFmt) (x : Num) : Nat := flushOut fmt f (x.pack f mode)

/-! ### M8 (R69 to R71) -/

/-- Highest set bit of a body, width of its exponent field and of its fraction (R69). -/
def m8Shape (body : Nat) : Nat × Nat × Nat :=
  let k := Nat.log2 body
  let w := match k with | 6 => 1 | 5 => 2 | 4 => 3 | 3 => 3 | 2 => 2 | 1 => 1 | _ => 0
  (k, w, k - w)

/-- Decimal exponents of a marker (R69). -/
def m8Exps (k : Nat) : List Int :=
  match k with
  | 6 => [-1, 0]
  | 5 => [-3, -2, 1, 2]
  | 4 => [-7, -6, -5, -4, 3, 4, 5, 6]
  | 3 => [-11, -10, -9, -8, 7, 8, 9, 10]
  | 2 => [-13, -12, 11, 12]
  | 1 => [-14, 13]
  | _ => []

/-- The magnitude of a finite body, 2 to 127, as a ratio (R69). -/
def m8Ratio (body : Nat) : Nat × Nat :=
  let (k, w, f) := m8Shape body
  let x := body / 2 ^ (k - w) % 2 ^ w
  let fr := body % 2 ^ f
  let e := (m8Exps k).getD x 0
  let n := 2 ^ f + 9 * fr
  if 0 ≤ e then (n * 10 ^ e.toNat, 2 ^ f) else (n, 2 ^ f * 10 ^ (-e).toNat)

/-- decode_m8 (R70). -/
def decodeM8 (b : Nat) : Nat :=
  let s := nbit b 7
  let body := b % 128
  if body = 0 then (if s then 0x7FC00000 else 0)
  else if body = 1 then FloatFmt.f32.signed s FloatFmt.f32.infBits
  else roundIeee .f32 .rn s (m8Ratio body).1 (m8Ratio body).2

/-- Distance of n / d from a candidate, as a ratio. -/
def m8Dist (n d body : Nat) : Nat × Nat :=
  let (a, b) := if body = 0 then (0, 1) else m8Ratio body
  ((if n * b < a * d then a * d - n * b else n * b - a * d), d * b)

/-- Whether candidate `y` is to be preferred to `x` for n / d: nearer; on a tie the even body, then the smaller
magnitude (R71 steps 3 and 4). -/
def m8Better (n d x y : Nat) : Bool :=
  let (xn, xd) := m8Dist n d x
  let (yn, yd) := m8Dist n d y
  if yn * xd < xn * yd then true
  else if xn * yd < yn * xd then false
  else if x % 2 != y % 2 then y % 2 = 0
  else
    let (an, ad) := if x = 0 then (0, 1) else m8Ratio x
    let (bn, bd) := if y = 0 then (0, 1) else m8Ratio y
    bn * ad < an * bd

/-- encode_m8 (R71). -/
def encodeM8 (inf : Bool) (x : Num) : Nat :=
  match x with
  | .nan => 0x80
  | .inf s => (if inf then 0x01 else 0x03) + (if s then 0x80 else 0)
  | .fin s n e =>
    let (a, b) := ratio n e
    if n = 0 then 0
    else if a ≥ 55000000000000 * b then (if inf then 0x01 else 0x03) + (if s then 0x80 else 0)
    else
      let body := (List.range 126).foldl (fun best i => if m8Better a b best (i + 2) then i + 2 else best) 0
      if body = 0 then 0 else body + (if s then 0x80 else 0)

/-! ### Element codes (R73) -/

/-- The binary format of an element code; M8, integers and trits have none. -/
def elemFmt (c : Nat) : Option FloatFmt :=
  match c with
  | 0 => some .f64 | 1 => some .f32 | 2 => some .f16 | 3 => some .bf16 | 4 => some .e4m3 | 5 => some .e5m2
  | 7 => some .e2m3 | 8 => some .e3m2 | 9 => some .e2m1 | _ => none

/-- Bits of an element. -/
def elemBits (c : Nat) : Nat :=
  match c with
  | 0 => 64 | 1 => 32 | 2 => 16 | 3 => 16 | 7 => 6 | 8 => 6 | 9 => 4 | _ => 8

/-- The value of an element, with the input flush where it applies (R61, R70). -/
def elemNum (fmt : Word) (c b : Nat) : Num :=
  match elemFmt c with
  | some f => readNum fmt f b
  | none => if c = 6 then unpack .f32 (decodeM8 b) else Num.ofInt (BitVec.ofNat 8 b).toInt

/-- A value as an element of code c: IEEE formats by the mode and R61, narrow ones by R64, M8 by R71. -/
def elemPack (fmt : Word) (mode : RMode) (c : Nat) (x : Num) : Nat :=
  if c = 6 then encodeM8 (fmtInf fmt) x
  else
    match elemFmt c with
    | some f => if c ≤ 3 then roundFmt fmt mode f x else x.packNarrow f (fmtInf fmt)
    | none => 0

/-- R74: a value that FMT may hold (R72, R73). -/
def fmtLegal (v : Word) : Bool :=
  v.extractLsb' 27 5 = 0 && v.extractLsb' 16 2 = 0 && v.extractLsb' 0 4 = 0 &&
  (v.extractLsb' 21 3).toNat ≤ 4 && fmtScm v ≤ 3 && fmtA v ≤ 12 && fmtB v ≤ 12 &&
  (fmtC v ≤ 3 || fmtC v = 6)

end Sys2Proof.Machine
end

