-- ==== Sys2Proof/Machine/Memory.lean ====
section
/-! DEFINITION. Reaching the pieces of the state, and the bytes of every space: locations (R209), homes (R181), errors
(R2), fixed-order sectors (R235), L1 copies (R182), sector signatures (R218 to R220). -/

namespace Sys2Proof.Machine

open Sys2Proof

namespace State

def core (s : State) (k : Nat) : Core := (s.cores.get k).getD Core.reset
def modCore (s : State) (k : Nat) (f : Core → Core) : State := { s with cores := s.cores.put k (f (s.core k)) }
/-- SEQCLK of a core (R46). -/
def seqclk (s : State) (k : Nat) : Dword := s.clk + (s.core k).clk
def cluster (s : State) (c : Nat) : Cluster := (s.clusters.get c).getD Cluster.reset
def modCluster (s : State) (c : Nat) (f : Cluster → Cluster) : State :=
  { s with clusters := s.clusters.put c (f (s.cluster c)) }
def slice (s : State) (k : Nat) : Slice := (s.slices.get k).getD Slice.reset
def modSlice (s : State) (k : Nat) (f : Slice → Slice) : State := { s with slices := s.slices.put k (f (s.slice k)) }
def die (s : State) (k : Nat) : Assay := (s.dies.get k).getD Assay.reset
def modDie (s : State) (k : Nat) (f : Assay → Assay) : State := { s with dies := s.dies.put k (f (s.die k)) }
def ctx (s : State) (n : Nat) : Context := (s.ctxs.get n).getD Context.reset
def modCtx (s : State) (n : Nat) (f : Context → Context) : State := { s with ctxs := s.ctxs.put n (f (s.ctx n)) }
def bucket (s : State) (k : Nat) : Bucket := (s.buckets.get k).getD Bucket.reset
def modBucket (s : State) (k : Nat) (f : Bucket → Bucket) : State :=
  { s with buckets := s.buckets.put k (f (s.bucket k)) }
def modWave (s : State) (w : Nat) (f : Wave → Wave) : State := { s with waves := s.waves.upd w f }
def modGroup (s : State) (g : Nat) (f : Group → Group) : State := { s with groups := s.groups.upd g f }
def modUnit (s : State) (u : Nat) (f : WorkUnit → WorkUnit) : State := { s with units := s.units.upd u f }
def modPart (s : State) (p : PartRef) (f : Part → Part) : State :=
  s.modWave p.wave fun w => { w with parts := w.parts.upd p.part f }
def modOp (s : State) (id : Nat) (f : Op → Op) : State :=
  { s with ops := replaceFirst (fun o => o.id == id) f s.ops }
def op (s : State) (id : Nat) : Option Op := s.ops.find? fun o => o.id == id
def send (s : State) (o : Out) : State := { s with out := s.out ++ [o] }

/-- A fresh free value: the counter is advanced (log entry 3). -/
def tick (s : State) : State := { s with ctr := s.ctr + 1 }

end State

/-! ### Where units sit (R13 to R15, R181) -/

/-- R181: the channel of an offset of local device memory. -/
def channel (a : Nat) : Nat :=
  Nat.xor (Nat.xor (Nat.xor (Nat.xor (field a 14 9) (field a 20 15)) (field a 26 21)) (field a 32 27)) (field a 38 33)

/-- R181: the home slice. -/
def homeSlice (a : Nat) : Nat := 2 * channel a + field a 8 8

/-- The cluster of a core (R15) and the compute die of a cluster (R10). -/
def clusterOf (core : Nat) : Nat := core / 8
def dieOf (core : Nat) : Nat := core / 128

/-- R218. -/
def sigHash (a : Nat) : Nat :=
  Nat.xor (Nat.xor (Nat.xor (field a 13 5) (field a 22 14)) (field a 31 23)) (field a 38 32)

/-! ### Turning windows (R130, R131) -/

/-- The bank of a die-absolute weight-store address. -/
def wsBank (a : Nat) : Nat := field a 13 8

/-- Phase of a bank at a time. -/
def bankPhase (t b : Nat) : Nat := (t + 64000 - 1000 * b) % 64000

/-- The ns since the start of each window that a bank is in. -/
def State.windows (s : State) (b : Nat) : List Nat :=
  let t := s.time.toNat
  let p := bankPhase t b
  let q := bankPhase (2 ^ 48) b + t
  (if p < 1200 then [p] else []) ++ (if s.wrapped && bankPhase (2 ^ 48) b < 1200 && q < 1200 then [q] else [])

/-- Whether a location lies in a bank that is in its turning window. -/
def State.turning (s : State) (l : Loc) : Bool :=
  match l with
  | .ws _ a => s.windows (wsBank a) != []
  | _ => false

/-! ### Locations -/

/-- The location `i` bytes on. -/
def Loc.add (l : Loc) (i : Nat) : Loc :=
  match l with
  | .dev a => .dev (a + i)
  | .host a => .host (a + i)
  | .peer d a => .peer d (a + i)
  | .ctrl a => .ctrl (a + i)
  | .ls g a => .ls g (a + i)
  | .ws d a => .ws d (a + i)

/-- The 32-byte sector of a location. -/
def Loc.sector (l : Loc) : Loc :=
  match l with
  | .dev a => .dev (a / 32)
  | .host a => .host (a / 32)
  | .peer d a => .peer d (a / 32)
  | .ctrl a => .ctrl (a / 32)
  | .ls g a => .ls g (a / 32)
  | .ws d a => .ws d (a / 32)

/-- The byte offset inside the location's own space. -/
def Loc.off (l : Loc) : Nat :=
  match l with
  | .dev a => a
  | .host a => a
  | .peer _ a => a
  | .ctrl a => a
  | .ls _ a => a
  | .ws _ a => a

/-- The offset with the same space. -/
def Loc.at (l : Loc) (a : Nat) : Loc :=
  match l with
  | .dev _ => .dev a
  | .host _ => .host a
  | .peer d _ => .peer d a
  | .ctrl _ => .ctrl a
  | .ls g _ => .ls g a
  | .ws d _ => .ws d a

/-- A byte of device memory: the dirty byte of L2, else an area without layout, else GDDR7. -/
def Store.devByte (m : Store) (a : Nat) : Byte :=
  match m.l2.get a with
  | some b => b
  | none =>
    match m.vague.find? fun r => r.1 ≤ a && a < r.1 + r.2.1 with
    | some r => Config.freeByte r.2.2 a
    | none => m.gddr.byte a

/-- One byte of a location, as it stands at its own place. Control space is read by `ctrlRead`. -/
def State.byteAt (s : State) (l : Loc) : Byte :=
  match l with
  | .dev a => s.mem.devByte a
  | .host a => s.mem.host.byte a
  | .peer d a => ((s.mem.peer.get d).getD []).byte a
  | .ctrl _ => 0
  | .ls g a => match s.groups.get g with
    | some gr => gr.ls.byte a
    | none => 0
  | .ws d a => ((s.mem.ws.get d).getD []).byte a

/-- `n` bytes upward. -/
def State.bytesAt (s : State) (l : Loc) (n : Nat) : List Byte := (List.range n).map fun i => s.byteAt (l.add i)

/-- Whether any of `n` bytes is in uncorrectable error (R2). -/
def State.badAt (s : State) (l : Loc) (n : Nat) : Bool :=
  !s.mem.bad.isEmpty && (List.range n).any fun i => s.mem.bad.contains (l.add i)

/-- Bytes written from a location upward, where they stand; an error of a byte written ends (R194: the other bytes of
its sector stay in error). -/
def State.setBytes (s : State) (l : Loc) (d : List Byte) : State :=
  let s := if s.mem.bad.isEmpty then s
    else { s with mem := { s.mem with bad := s.mem.bad.filter fun x => !((List.range d.length).any fun i => l.add i == x) } }
  match l with
  | .dev a => { s with mem := { s.mem with l2 := s.mem.l2.putRun a d } }
  | .host a => { s with mem := { s.mem with host := s.mem.host.store a d } }
  | .peer k a => { s with mem := { s.mem with peer := s.mem.peer.put k (((s.mem.peer.get k).getD []).store a d) } }
  | .ctrl _ => s
  | .ls g a => s.modGroup g fun gr => { gr with ls := gr.ls.store a d }
  | .ws k a => { s with mem := { s.mem with ws := s.mem.ws.put k (((s.mem.ws.get k).getD []).store a d) } }

/-- The value of `n` bytes at a place. -/
def State.natAt (s : State) (l : Loc) (n : Nat) : Nat := leNat (s.bytesAt l n)

/-- A value written in `n` bytes. -/
def State.setNat (s : State) (l : Loc) (n v : Nat) : State := s.setBytes l (leBytes n v)

/-- WBL with SPACE 0, and the write-backs that R228 gives: the dirty L2 bytes of a range go to GDDR7 (R202). -/
def State.writeBack (s : State) (a n : Nat) : State :=
  let here := s.mem.l2.filter fun e => a ≤ e.1 && e.1 < a + n
  let g := here.foldl (fun m e => Memory.store m e.1 [e.2]) s.mem.gddr
  { s with mem := { s.mem with gddr := g, l2 := s.mem.l2.filter fun e => !(a ≤ e.1 && e.1 < a + n),
                               vague := if here.isEmpty then s.mem.vague else
                                 here.foldl (fun v e => v.flatMap fun r =>
                                   if r.1 ≤ e.1 && e.1 < r.1 + r.2.1 then
                                     [(r.1, e.1 - r.1, r.2.2), (e.1 + 1, r.1 + r.2.1 - e.1 - 1, r.2.2)].filter
                                       fun x => x.2.1 != 0
                                   else [r]) s.mem.vague } }

/-- The bytes of a range become an area without layout (R368, R369): its dirty bytes go. -/
def State.blur (s : State) (a n : Nat) : State :=
  let s := s.tick
  { s with mem := { s.mem with l2 := s.mem.l2.filter fun e => !(a ≤ e.1 && e.1 < a + n),
                               vague := (a, n, s.ctr) :: s.mem.vague } }

/-! ### Fixed-order sectors (R235) -/

/-- Element width and grid of a fixed-order operation: code 13 is FADD.F32, 14 is FADD.BF16X2 (R229). -/
def fixedShape (op : Nat) : FloatFmt × Nat × Int := if op = 13 then (.f32, 4, -149) else (.bf16, 2, -133)

/-- An element's pattern as an accumulator. -/
def ExactAcc.ofBits (op b : Nat) : ExactAcc :=
  match unpack (fixedShape op).1 b with
  | .nan => { sum := 0, pinf := false, ninf := false, nan := true, negz := false }
  | .inf neg => { sum := 0, pinf := !neg, ninf := neg, nan := false, negz := false }
  | .fin neg n e =>
    { sum := Num.onGrid (fixedShape op).2.2 (.fin neg n e), pinf := false, ninf := false, nan := false,
      negz := neg && n = 0 }

/-- Exact addition of a contribution. -/
def ExactAcc.add (a b : ExactAcc) : ExactAcc :=
  { sum := a.sum + b.sum, pinf := a.pinf || b.pinf, ninf := a.ninf || b.ninf, nan := a.nan || b.nan,
    negz := a.negz && b.negz }

/-- The pattern an accumulator resolves to. -/
def ExactAcc.bits (op : Nat) (a : ExactAcc) : Nat :=
  let f := (fixedShape op).1
  if a.nan || (a.pinf && a.ninf) then f.nanBits
  else if a.pinf then f.infBits
  else if a.ninf then f.signed true f.infBits
  else (Num.ofGrid (fixedShape op).2.2 a.negz a.sum).pack f .rn

/-- Key of a sector of another device's memory: its home slice lies on that device. -/
def peerSector (d a : Nat) : Nat := d * 2 ^ 34 + a / 32

/-- The entry of a sector, at the home slice of its byte on the device that owns it. -/
def State.fixedAt (s : State) (l : Loc) : Option FixedEntry :=
  match l with
  | .dev a => (s.slice (homeSlice a)).fixed.get (a / 32)
  | .peer d a => s.link.fixed.get (peerSector d a)
  | _ => none

/-- The entry is entered. -/
def State.putFixed (s : State) (l : Loc) (e : FixedEntry) : State :=
  match l with
  | .dev a => s.modSlice (homeSlice a) fun sl => { sl with fixed := sl.fixed.put (a / 32) e }
  | .peer d a => { s with link := { s.link with fixed := s.link.fixed.put (peerSector d a) e } }
  | _ => s

/-- The entry is dropped. -/
def State.dropFixed (s : State) (l : Loc) : State :=
  match l with
  | .dev a => s.modSlice (homeSlice a) fun sl => { sl with fixed := sl.fixed.del (a / 32) }
  | .peer d a => { s with link := { s.link with fixed := s.link.fixed.del (peerSector d a) } }
  | _ => s

/-- R235: the entry of a sector is resolved and its elements written; one whose location is in error stays in error
(R2). -/
def State.resolveFixed (s : State) (l : Loc) : State :=
  match s.fixedAt l with
  | none => s
  | some e =>
    let n := (fixedShape e.op).2.1
    let base := l.at (l.off / 32 * 32)
    let s := s.dropFixed l
    if s.mem.bad.isEmpty then s.setBytes base (e.elems.flatMap fun x => leBytes n (x.bits e.op))
    else
      e.elems.zipIdx.foldl (fun s x =>
        if s.badAt (base.add (n * x.2)) n then s else s.setBytes (base.add (n * x.2)) (leBytes n (x.1.bits e.op))) s

/-- R235: a contribution to a sector, `data` the element bytes. The first creates the entry from memory. -/
def State.addFixed (s : State) (ctx op : Nat) (l : Loc) (data : List Byte) : State :=
  let n := (fixedShape op).2.1
  let s := match s.fixedAt l with
    | some e => if e.op = op then s else s.resolveFixed l
    | none => s
  let base := l.at (l.off / 32 * 32)
  let e : FixedEntry := (s.fixedAt l).getD
    { op := op, ctx := ctx, count := 0,
      elems := (List.range (32 / n)).map fun i => ExactAcc.ofBits op (s.natAt (base.add (n * i)) n) }
  let i0 := l.off % 32 / n
  let elems := (List.range e.elems.length).map fun i =>
    let x := e.elems.getD i (ExactAcc.ofBits op 0)
    if i0 ≤ i && i < i0 + data.length / n then x.add (ExactAcc.ofBits op (leNat ((data.drop (n * (i - i0))).take n)))
    else x
  let e := { e with elems := elems, count := e.count + 1 }
  let s := s.putFixed l e
  if 2 ^ 40 ≤ e.count then s.resolveFixed l else s

/-- Every access at a home slice first resolves the pending sectors that it reaches (R235). -/
def State.settleFixed (s : State) (l : Loc) (n : Nat) : State :=
  (List.range ((l.off % 32 + n + 31) / 32)).foldl (fun s i => s.resolveFixed (l.at (l.off / 32 * 32 + 32 * i))) s

/-- Bytes read at their place. -/
def State.readAt (s : State) (l : Loc) (n : Nat) : State × List Byte :=
  let s := s.settleFixed l n
  (s, s.bytesAt l n)

/-- Bytes that the device copies, zeros for each 4 bytes in uncorrectable error (R288, R290), and the lowest such. -/
def State.mendedAt (s : State) (l : Loc) (n : Nat) : State × List Byte × Option Nat :=
  let (s, d) := s.readAt l n
  let bad := fun (i : Nat) => s.badAt (l.add (i / 4 * 4)) 4
  (s, d.zipIdx.map fun x => if bad x.2 then 0 else x.1, (List.range n).find? bad)

/-- Bytes written at their place. -/
def State.writeAt (s : State) (l : Loc) (data : List Byte) : State := (s.settleFixed l data.length).setBytes l data

/-! ### Signatures (R218 to R222) -/

/-- Whether writes to a location set a bit of Σ (R218), and the hash they set. -/
def Loc.hash (l : Loc) : Option Nat :=
  match l with
  | .dev a => some (sigHash a)
  | .peer _ a => some (sigHash a)
  | _ => none

/-- R218: a write by a part of the core is performed. -/
def State.noteWrite (s : State) (k : Nat) (l : Loc) : State :=
  match l.hash with
  | none => s
  | some h => s.modCore k fun c => { c with sig := c.sig ||| bit1 512 h }

/-- R222: a time above the device time is taken as 0. -/
def State.sane (s : State) (z : Time) : Time := if s.time < z then 0 else z

def tmax (a b : Time) : Time := if a < b then b else a

/-- R220: what a read at cluster scope or wider receives for a sector of device memory. -/
def State.sigAt (s : State) (a : Nat) : Sig × Time :=
  let sl := s.slice (homeSlice a)
  match sl.sigs.find? fun e => e.1 == a / 32 with
  | some (_, g, z) => (g, tmax (s.sane z) (s.sane sl.zs))
  | none => (0, s.sane sl.zs)

/-- The union of what two reads receive. -/
def sigJoin (a b : Sig × Time) : Sig × Time := (a.1 ||| b.1, tmax a.2 b.2)

/-- Keys of an L1: sector and kind. -/
def l1Key (k : L1Kind) (sector : Nat) : Nat := 4 * sector + (match k with | .global => 0 | .const => 1 | .priv => 2)

/-- Whether an L1 key holds a global sector, and which. -/
def l1Global (key : Nat) : Option Nat := if key % 4 = 0 then some (key / 4) else none

/-- Drop every global line of a core's L1. -/
def State.dropGlobal (s : State) (k : Nat) : State :=
  s.modCore k fun c => { c with l1 := c.l1.filter fun e => (l1Global e.1).isNone }

/-- Whether a signature names a sector of the 128-byte line of a key. -/
def lineHit (g : Sig) (key : Nat) : Bool :=
  match l1Global key with
  | none => false
  | some sec => (List.range 4).any fun i => g.getLsbD (sigHash ((sec / 4 * 4 + i) * 32))

/-- Drop the global lines (128 bytes) that hold a sector whose hash is set (R220). -/
def State.dropHashed (s : State) (k : Nat) (g : Sig) : State :=
  s.modCore k fun c => { c with l1 := c.l1.filter fun e => !lineHit g e.1 }

/-- R220: an acquire applies what it received; `keep` leaves Σ and Z as they are (FENCEX, R224 step 2). -/
def State.applySig (s : State) (k : Nat) (g : Sig × Time) (keep : Bool) : State :=
  let z := s.sane g.2
  let s := if (s.core k).f < z then (s.dropGlobal k).modCore k fun c => { c with f := s.time } else s.dropHashed k g.1
  if keep then s else s.modCore k fun c => { c with sig := c.sig ||| g.1, z := tmax c.z z }

/-- R221: an acquire at system scope drops every global line and sets F. -/
def State.applySystem (s : State) (k : Nat) : State := (s.dropGlobal k).modCore k fun c => { c with f := s.time }

/-- R219: a carried release merges into its sector's entry; the least recently used of 256 gives way. Only a carried release
counts as use, a DESIGN CHOICE (log entry 76). -/
def State.carry (s : State) (a : Nat) (g : Sig × Time) : State :=
  s.modSlice (homeSlice a) fun sl =>
    let old := sl.sigs.find? fun e => e.1 == a / 32
    let rest := sl.sigs.filter fun e => e.1 != a / 32
    let e := match old with
      | some (_, g', z') => (a / 32, g' ||| g.1, tmax (s.sane z') (s.sane g.2))
      | none => (a / 32, g.1, s.sane g.2)
    if rest.length < 256 then { sl with sigs := e :: rest }
    else { sl with sigs := e :: rest.take 255, zs := s.time }

/-- R219: after it sends a release, a core whose Σ holds more than 256 bits clears it. -/
def State.afterRelease (s : State) (k : Nat) : State :=
  if 256 < maskCount (s.core k).sig then s.modCore k fun c => { c with sig := 0, z := s.time } else s

/-! ### L2 lines (R16, R19, R219) -/

/-- A line leaves L2: its dirty bytes go to GDDR7 and its sectors' signature entries are dropped (R219). It is no access: an
exact accumulator stays pending (R235). -/
def State.dropSliceLine (s : State) (a : Nat) : State :=
  (s.writeBack (a / 128 * 128) 128).modSlice (homeSlice a) fun sl =>
    if sl.sigs.any fun e => e.1 / 4 = a / 128 then
      { sl with sigs := sl.sigs.filter fun e => e.1 / 4 != a / 128, zs := s.time }
    else sl

/-- R16: the 128-byte lines that the 2 MiB of a slice hold. -/
def sliceLines : Nat := 16384

/-- A line that a matrix operation has read and still pins (R111). -/
def State.pinnedLine (s : State) (line : Nat) : Bool :=
  s.ops.any fun x => !x.done && (x.kind = .mma || x.kind = .mmas) &&
    x.pieces.zipIdx.any (fun e => (x.seen.get e.2).isNone) &&
    x.pieces.zipIdx.any fun e => (x.seen.get e.2).isSome && (match e.1.loc with | .dev a => a / 128 = line | _ => false)

/-- A line that L2 does not give up: one with a keep mark (R189), or one that is pinned (R111). -/
def State.lineStays (s : State) (line : Nat) : Bool :=
  ((s.slice (homeSlice (128 * line))).keep.get line).isSome || s.pinnedLine line

/-- The lines of a slice that hold dirty bytes and may leave, those with a keep mark last (R189). -/
def State.dirtyLines (s : State) (k : Nat) : List Nat :=
  let l := (dedup (s.mem.l2.map fun e => e.1 / 128)).filter fun n => homeSlice (128 * n) = k && !s.pinnedLine n
  let kept := fun (n : Nat) => ((s.slice k).keep.get n).isSome
  (l.filter fun n => !kept n) ++ l.filter kept

/-- R16: what a slice holds beyond its capacity leaves it. -/
def State.trimL2 (s : State) : State :=
  if s.mem.l2.length ≤ sliceLines then s
  else
    (List.range 128).foldl (fun s k =>
      let l := s.dirtyLines k
      (l.take (l.length - sliceLines)).foldl (fun s n => s.dropSliceLine (128 * n)) s) s

/-! ### L1 (R182) -/

/-- A read of bytes of one sector of device memory through the L1 at wave or group scope; `alloc` as EVICT gives. -/
def State.l1Read (s : State) (k : Nat) (kind : L1Kind) (alloc : Bool) (a n : Nat) : State × List Byte :=
  match (s.core k).l1.get (l1Key kind (a / 32)) with
  | some sec => (s, (sec.data.drop (a % 32)).take n)
  | none =>
    let (s, d) := s.readAt (.dev (a / 32 * 32)) 32
    let out := (d.drop (a % 32)).take n
    if alloc && !s.badAt (.dev (a / 32 * 32)) 32 then
      (s.modCore k fun c => { c with l1 := c.l1.put (l1Key kind (a / 32)) { kind := kind, data := d, dirty := 0 } }, out)
    else (s, out)

/-- Bytes patched into a list at an offset. -/
def patch (d : List Byte) (o : Nat) (new : List Byte) : List Byte :=
  d.take o ++ new ++ d.drop (o + new.length)

/-- A store updates the L1 copy if the sector is present (R182). -/
def State.l1Update (s : State) (k : Nat) (a : Nat) (data : List Byte) : State :=
  match (s.core k).l1.get (l1Key .global (a / 32)) with
  | none => s
  | some sec =>
    s.modCore k fun c => { c with l1 := c.l1.put (l1Key .global (a / 32)) { sec with data := patch sec.data (a % 32) data } }

/-- A private store stays in the L1 (R182, R185): the sector is filled and its bytes become dirty. -/
def State.privWrite (s : State) (k : Nat) (a : Nat) (data : List Byte) : State :=
  let (s, _) := s.l1Read k .priv true a 1
  match (s.core k).l1.get (l1Key .priv (a / 32)) with
  | none => ((s.writeAt (.dev a) data).l1Update k a data).noteWrite k (.dev a)
  | some sec =>
    let hit := maskOf 32 fun i => a % 32 ≤ i && i < a % 32 + data.length
    let sec := { sec with data := patch sec.data (a % 32) data, dirty := sec.dirty ||| hit }
    s.modCore k fun c => { c with l1 := c.l1.put (l1Key .priv (a / 32)) sec }

/-- Dirty bytes of a private sector go to the home slice (R185, R202), past the core's own global copy of it (R182); the
sector stays, clean. -/
def State.privBack (s : State) (k : Nat) (key : Nat) : State :=
  match (s.core k).l1.get key with
  | none => s
  | some sec =>
    if sec.dirty = 0 then s
    else
      let s := (maskBits sec.dirty).foldl
        (fun s i => (s.writeAt (.dev (key / 4 * 32 + i)) [sec.data.getD i 0]).l1Update k (key / 4 * 32 + i)
          [sec.data.getD i 0]) s
      (s.modCore k fun c => { c with l1 := c.l1.put key { sec with dirty := 0 } }).noteWrite k (.dev (key / 4 * 32))

/-- L1_EVICT: a sector leaves the L1, private data written back. -/
def State.l1Drop (s : State) (k : Nat) (key : Nat) : State :=
  (s.privBack k key).modCore k fun c => { c with l1 := c.l1.del key }

/-- R16: the 128-byte lines that the 128 KiB of an L1 hold. -/
def l1Lines : Nat := 1024

/-- R16: the lines that an L1 holds beyond its capacity leave it; which ones changes timing only (R182). -/
def State.trimL1 (s : State) (k : Nat) : State :=
  let keys := (s.core k).l1.map fun e => e.1
  if keys.length ≤ l1Lines then s
  else
    let lines := dedup (keys.map fun n => n / 16 * 4 + n % 4)
    let n := Config.victim keys.length % max 1 lines.length
    let gone := ((lines.drop n) ++ lines.take n).take (lines.length - l1Lines)
    (keys.filter fun n => gone.contains (n / 16 * 4 + n % 4)).foldl (fun s n => s.l1Drop k n) s

end Sys2Proof.Machine
end

