-- ==== Sys2Proof/Machine/Net.lean ====
section
/-! DEFINITION. The torus: its stops (R10, R13, R14), routes (R320), routers (R321), sink credits (R322), injection ports
(R323) and token buckets (R325 to R327). -/

namespace Sys2Proof.Machine

open Sys2Proof

/-! ### Stops (R10, R13, R14) -/

/-- The number of stop (x, y). -/
def stopAt (x y : Nat) : Nat := 16 * y + x

def stopX (t : Nat) : Nat := t % 16
def stopY (t : Nat) : Nat := t / 16

/-- R13: the compute die of a stop. -/
def stopDie (t : Nat) : Nat := stopX t / 4

/-- R13: a cluster stop; the others are slice stops. -/
def isClusterStop (t : Nat) : Bool := (stopX t + stopY t) % 2 = 0

/-- R13: a stop's index within its kind. -/
def stopIndex (t : Nat) : Nat := 16 * (stopX t / 4) + 2 * stopY t + stopX t % 4 / 2

/-- The stop of cluster c: index c among the cluster stops. -/
def clusterStop (c : Nat) : Nat := stopAt (4 * (c / 16) + 2 * (c % 2) + c % 16 / 2 % 2) (c % 16 / 2)

/-- The stop that carries slices 2s and 2s + 1: index s among the slice stops. -/
def sliceStop (s : Nat) : Nat := stopAt (4 * (s / 16) + 2 * (s % 2) + (1 - c2 s)) (s % 16 / 2)
where
  /-- The parity of the row. -/
  c2 (s : Nat) : Nat := s % 16 / 2 % 2

/-- R10: a compute die's clusters, slices and stops. -/
def dieClusters (d : Nat) : List Nat := (List.range 16).map fun i => 16 * d + i
def dieSlices (d : Nat) : List Nat := (List.range 32).map fun i => 32 * d + i
def dieStops (d : Nat) : List Nat := (List.range 128).filter fun t => stopDie t = d

/-- R14: the I/O die that holds the controller of channel s. -/
def channelDie (s : Nat) : Nat := s % 16 / 8

/-- R10: the GDDR7 controllers of an I/O die. -/
def dieChannels (d : Nat) : List Nat := (List.range 64).filter fun s => channelDie s = d

/-- R323: the stop that a port uses for a request to a stop. -/
def portStop (port dst : Nat) : Nat :=
  if port < 64 then clusterStop port
  else if port = 64 then sliceStop (16 * stopDie dst + 7)
  else sliceStop (16 * ((port - 65) % 9 % 4) + 8 * ((port - 65) / 9) + (port - 65) % 9 / 4)

/-! ### Routes (R320) -/

/-- The direction on a ring of n stops from a to b, entered at a: true is positive. -/
def ringUp (n a b : Nat) : Bool :=
  let d := (b + n - a) % n
  2 * d < n || (2 * d = n && a % 2 = 0)

/-- Hops on a ring. -/
def ringHops (n a b : Nat) : Nat := min ((b + n - a) % n) ((a + n - b) % n)

/-- The output of a packet at a stop, as its source and destination give it: 0 and 1 along the row upward and downward,
2 and 3 along the column, 4 where it leaves the torus. -/
def routeOut (src dst t : Nat) : Nat :=
  if stopX t != stopX dst then (if ringUp 16 (stopX src) (stopX dst) then 0 else 1)
  else if stopY t != stopY dst then (if ringUp 8 (stopY src) (stopY dst) then 2 else 3)
  else 4

/-- The stop at the end of an output. -/
def stopNext (t out : Nat) : Nat :=
  match out with
  | 0 => stopAt ((stopX t + 1) % 16) (stopY t)
  | 1 => stopAt ((stopX t + 15) % 16) (stopY t)
  | 2 => stopAt (stopX t) ((stopY t + 1) % 8)
  | 3 => stopAt (stopX t) ((stopY t + 7) % 8)
  | _ => t

/-- Hops of a path. -/
def pathHops (src dst : Nat) : Nat := ringHops 16 (stopX src) (stopX dst) + ringHops 8 (stopY src) (stopY dst)

/-! ### Routers (R321) -/

/-- The buffer of a stop for an input (0 to 3: a ring direction; 4: what is injected there) and a virtual network. -/
def bufKey (t inp : Nat) (resp : Bool) : Nat := 10 * t + 2 * inp + (if resp then 1 else 0)

/-- The stop and the input of a buffer. -/
def bufStop (k : Nat) : Nat := k / 10
def bufInput (k : Nat) : Nat := k % 10 / 2

/-- The flits that a buffer holds. -/
def Net.flitsIn (n : Net) (k : Nat) : Nat := (((n.bufs.get k).getD []).map Packet.flits).foldl (· + ·) 0

/-- The output that the head of a buffer asks for. -/
def headOut (k : Nat) (p : Packet) : Nat := routeOut p.src p.dst (bufStop k)

/-- R321: whether the head of a buffer may go on: out of the torus always; along its ring with room for itself; onto a
ring with 3 flits left free. -/
def Net.admits (n : Net) (k : Nat) (p : Packet) : Bool :=
  let out := headOut k p
  let need := if bufInput k = out then p.flits else p.flits + 3
  out = 4 || n.flitsIn (bufKey (stopNext (bufStop k) out) out p.resp) + need ≤ 8

/-- Buffers with their heads. -/
def Net.heads (n : Net) : List (Nat × Packet) := n.bufs.filterMap fun e => e.2.head?.map fun p => (e.1, p)

/-- The key of an output. -/
def outKey (t out : Nat) : Nat := 5 * t + out

/-- R321: what an output sends next. It alternates between the packets that continue along the ring and those that enter
it; within either, the buffers take turns. -/
def Net.pick (n : Net) (out : Nat) (l : List (Nat × Packet)) : Option (Nat × Packet) :=
  let (last, cont) := (n.sent.get out).getD (0, false)
  let along := fun (e : Nat × Packet) => bufInput e.1 = out % 5
  let next := fun (l : List (Nat × Packet)) => leastBy (fun e => (e.1 + 20 - last % 10 - 1) % 10) l
  let a := next (l.filter along)
  let b := next (l.filter fun e => !along e)
  if cont then b.or a else a.or b

/-- What each output that is free sends in a clock, from the buffers as the clock finds them. -/
def Net.moves (n : Net) : List (Nat × Nat × Packet) :=
  let l := n.heads.filter fun e => n.admits e.1 e.2
  (dedup (l.map fun e => outKey (bufStop e.1) (headOut e.1 e.2))).filterMap fun o =>
    if (n.busy.get o).isSome then none
    else (n.pick o (l.filter fun e => outKey (bufStop e.1) (headOut e.1 e.2) = o)).map fun e => (o, e.1, e.2)

/-- A packet into a buffer. -/
def Net.push (n : Net) (k : Nat) (p : Packet) : Net := { n with bufs := n.bufs.put k (((n.bufs.get k).getD []) ++ [p]) }

/-- A buffer without its head. -/
def Net.pop (n : Net) (k : Nat) : Net :=
  { n with bufs := match (n.bufs.get k).getD [] with
      | _ :: p :: r => n.bufs.put k (p :: r)
      | _ => n.bufs.del k }

/-- One move: onto the next stop, or out of the torus, where a request is held by its entry until it is answered. -/
def Net.move (n : Net) (m : Nat × Nat × Packet) : Net :=
  let (o, k, p) := m
  let n := n.pop k
  let n := { n with busy := n.busy.put o p.flits, sent := n.sent.put o (k % 10, bufInput k = o % 5) }
  if o % 5 != 4 then n.push (bufKey (stopNext (o / 5) (o % 5)) (o % 5) p.resp) p
  else if p.resp then n
  else { n with arrived := n.arrived ++ [p] }

/-- R321, R322: one network clock: an output that has sent the flits of its packet is free again. -/
def Net.clock (n : Net) : Net :=
  let n := { n with busy := (n.busy.map fun (e : Nat × Nat) => (e.1, e.2 - 1)).filter fun e => e.2 != 0 }
  n.moves.foldl Net.move n

/-- Network clocks; an empty torus stays as it is. -/
def Net.run : Nat → Net → Net
  | 0, n => n
  | k + 1, n => if n.bufs.isEmpty && n.busy.isEmpty then n else Net.run k n.clock

/-! ### Sink credits (R322) -/

/-- Endpoints: 0 to 127 the L2 slices, 128 the CXL port, 129 to 146 the fabric ports. -/
def sinkOf : Loc → Option Nat
  | .dev a => some (homeSlice a)
  | .host _ => some 128
  | .peer d _ => some (129 + Config.fabricPort d % 18)
  | _ => none

/-- The stop of an endpoint, for a request from a stop. -/
def sinkStop (sink src : Nat) : Nat :=
  if sink < 128 then sliceStop (sink / 2)
  else if sink = 128 then portStop 64 src
  else portStop (65 + (sink - 129)) src

/-- Requests that hold an entry of an endpoint: under way, or delivered and not answered. -/
def Net.holders (n : Net) (sink : Nat) : List Packet :=
  ((n.bufs.flatMap fun e => e.2.filter fun p => !p.resp) ++ n.arrived).filter fun p => p.sink = sink

/-- R322: a request entry is free at the endpoint. A slice keeps 8 entries for class 0; how many others an endpoint has
the manual leaves open. -/
def Net.credit (n : Net) (sink cls : Nat) : Bool :=
  let l := n.holders sink
  let c0 := (l.filter fun p => p.cls = 0).length
  let others := l.length - c0
  let kept := if sink < 128 then 8 else 0
  if cls = 0 then c0 + others < Config.sinkEntries sink + (kept + 1)
  else others + (c0 - kept) < Config.sinkEntries sink + 1

/-! ### Token buckets (R323 to R327) -/

/-- Key of the bucket of a port and a class. -/
def bucketKey (port cls : Nat) : Nat := 4 * port + cls

/-- R325: what a request is charged. -/
def Packet.charge (p : Packet) : Nat := p.flits + p.back

/-- R325: whether a bucket lets a request pass; not before the refill of a window that has begun. -/
def State.bucketOpen (s : State) (p : Packet) : Bool :=
  let b := s.bucket (bucketKey p.port p.cls)
  !b.en || (s.net.clks < 1024 && p.charge ≤ b.cred)

/-- No endpoint: what has none is only charged. -/
def noSink : Nat := 147

/-- R322: the room that a port has reserved: for the responses of its requests under way or delivered, and for those that
come. -/
def Net.reserved (n : Net) (port : Nat) : Nat :=
  (((n.bufs.flatMap fun e => e.2) ++ n.arrived).filter fun p => p.port = port).foldl
    (fun a p => a + (if p.resp then p.flits else p.back)) 0

/-- R322: whether its endpoint has an entry for it, and its port room for the response. -/
def State.sinkOpen (s : State) (p : Packet) : Bool :=
  p.sink = noSink || s.net.credit p.sink p.cls && s.net.reserved p.port + p.back ≤ Config.responseRoom p.port + 1024

/-- A request passes its bucket and enters the torus. -/
def State.inject (s : State) (p : Packet) : State :=
  let s := s.modBucket (bucketKey p.port p.cls) fun b => if b.en then { b with cred := b.cred - p.charge } else b
  if p.sink = noSink then s else { s with net := s.net.push (bufKey p.src 4 false) p }

/-- R325: a request asks its bucket, behind those of its class that wait. -/
def State.askBucket (s : State) (p : Packet) : State :=
  let k := bucketKey p.port p.cls
  if (s.bucket k).held.isEmpty && s.bucketOpen p && s.sinkOpen p then s.inject p
  else s.modBucket k fun b => { b with held := b.held ++ [p], waited := b.waited || (b.en && b.cred < p.charge) }

/-- The first requests of a class's queue pass while they may. -/
def State.injectHeld (s : State) (k : Nat) : Nat → State
  | 0 => s
  | n + 1 =>
    match (s.bucket k).held with
    | [] => s
    | p :: r =>
      if !s.bucketOpen p then s.modBucket k fun b => { b with waited := b.waited || (b.en && b.cred < p.charge) }
      else if s.sinkOpen p then ((s.inject p).modBucket k fun b => { b with held := r }).injectHeld k n
      else s

/-- The first clock of a window: the refill uses the old values and is clipped to the new sum; what was written acts from
here on; WAITW counts the window that has ended. -/
def Bucket.window (b : Bucket) : Bucket :=
  let top := b.nextL + b.nextB
  { b with en := b.nextEn, limit := b.nextL, burst := b.nextB,
           cred := if b.en then min (min (b.cred + b.limit) (b.limit + b.burst)) top else if b.nextEn then top else b.cred,
           waitw := if b.waited && b.waitw != BitVec.allOnes 16 then b.waitw + 1 else b.waitw, waited := false }

/-- R325: a window of 1,024 clocks, whose phase every port shares: every bucket is refilled, and what waited passes. -/
def State.window (s : State) : State :=
  let s := { s with net := { s.net with clks := s.net.clks - 1024 },
                    buckets := s.buckets.map fun (b : Nat × Bucket) => (b.1, b.2.window) }
  s.buckets.foldl (fun s b => s.injectHeld b.1 b.2.held.length) s

/-- Requests without an endpoint of the torus (context frames, control space): they are charged in their turn (log
entry 69). -/
def State.account (s : State) (port cls flits back n : Nat) : State :=
  if !(s.bucket (bucketKey port cls)).en then s
  else
    (List.range n).foldl (fun s _ => s.askBucket
      { op := 0, inb := none, loc := .ctrl 0, sects := 0, flits := flits, back := back, resp := false, port := port,
        cls := cls, src := 0, dst := 0, sink := noSink }) s

/-- Whether a new request of a class at a port, charged `n`, would have to wait for credit. -/
def State.portWaits (s : State) (port cls n : Nat) : Bool :=
  let b := s.bucket (bucketKey port cls)
  b.en && (!b.held.isEmpty || 1024 ≤ s.net.clks || b.cred < n)

/-- R323: the request of an inbound CXL.io access, charged at port 64 in the class of HOSTCLS. -/
def State.ioAsk (s : State) : State := s.account 64 s.link.hostcls.toNat 1 1 1

/-- Whether it would wait for credit there: the access is then made at a later turn (R325). -/
def State.ioWaits (s : State) : Bool := s.portWaits 64 s.link.hostcls.toNat 2

/-! ### Requests of operations -/

/-- Sectors of one operation grouped into transfers: the four sectors of a line as one, any other by itself (R319). -/
def transfers (lines : Bool) (l : List Loc) : List (Loc × Nat) :=
  let base := fun (x : Loc) => x.at (x.off / 4 * 4)
  let whole := fun (x : Loc) => lines && (List.range 4).all fun i => l.contains ((base x).add i)
  dedup (l.map fun x => if whole x then (base x, 4) else (x, 1))

/-- R319: a request for `n` sectors from `loc`, a sector's number in its space: a line read is answered by three flits, a
line write is three flits. -/
def opPacket (id port cls : Nat) (write : Bool) (e : Loc × Nat) (sink : Nat) : Packet :=
  let src := if port < 64 then clusterStop port else portStop port (sinkStop sink 0)
  { op := id, inb := none, loc := e.1, sects := e.2, flits := if write && e.2 = 4 then 3 else 1,
    back := if !write && e.2 = 4 then 3 else 1, resp := false, port := port, cls := cls, src := src,
    dst := sinkStop sink src, sink := sink }

/-- The endpoint of a sector given by its number. -/
def sectorSink (x : Loc) : Option Nat := sinkOf (x.at (32 * x.off))

/-- R323: the requests of an operation for some sectors. A sector without an endpoint (control space) is only charged. -/
def State.request (s : State) (id port cls : Nat) (write lines : Bool) (l : List Loc) : State :=
  (transfers lines l).foldl (fun s e =>
    match sectorSink e.1 with
    | some k => s.askBucket (opPacket id port cls write e k)
    | none => s.account port cls 1 1 1) s

/-- The sectors of `n` bytes. -/
def sectorsOf (l : Loc) (n : Nat) : List Loc :=
  (List.range ((l.off % 32 + n + 31) / 32)).map fun i => l.at (l.off / 32 + i)

/-- R323: requests that serve no operation: page walks, fetches, records, samples, looks and write-backs. What they ask for
is performed as they are made, once their port has credit, and they are answered as they are delivered (log entry 69). -/
def State.ask (s : State) (port cls : Nat) (write : Bool) (l : Loc) (n : Nat) : State :=
  s.request 0 port cls write false (sectorsOf l n)

/-- R323: dirty private sectors that a core gives back are requests of its cluster. -/
def State.backAsks (s : State) (k cls : Nat) (l : Tbl L1Sector) : State :=
  l.foldl (fun s e => if e.1 % 4 = 2 && e.2.dirty != 0 then s.ask (clusterOf k) cls true (.dev (e.1 / 4 * 32)) 32 else s) s

/-- Whether a packet is an operation's request for a sector. -/
def Packet.carries (p : Packet) (id : Nat) (sector : Loc) : Bool :=
  p.op = id && (List.range p.sects).any fun i => p.loc.add i = sector

/-- Whether an operation's request for a location waits at its port or is under way. -/
def State.travels (s : State) (id : Nat) (l : Loc) : Bool :=
  (s.buckets.any fun b => b.2.held.any fun p => p.carries id l.sector) ||
  s.net.bufs.any fun b => b.2.any fun p => !p.resp && p.carries id l.sector

/-- Whether any request of an operation does. -/
def State.heldBack (s : State) (id : Nat) : Bool :=
  (s.buckets.any fun b => b.2.held.any fun p => p.op = id) ||
  s.net.bufs.any fun b => b.2.any fun p => !p.resp && p.op = id

/-! ### Answers (R319, R322) -/

/-- Whether a delivered request may be answered: its operation has performed what it asks for, or is gone. A prefetch and
the copy into a weight store are answered as they are delivered: their one event takes the data of all. -/
def State.answered (s : State) (p : Packet) : Bool :=
  match s.op p.op with
  | none => p.inb.isNone
  | some x => x.done || x.kind = .prefetch || x.kind = .wsWrite || (x.pieces.zipIdx.all fun e => (x.seen.get e.2).isSome || !p.carries x.id e.1.loc.sector)

/-- The response of a request, in the room that its source has reserved. -/
def Packet.answer (p : Packet) : Packet := { p with resp := true, flits := p.back, back := 0, src := p.dst, dst := p.src }

/-- Delivered requests that have been performed are answered, and their entries are free. -/
def State.answers (s : State) : State :=
  let l := s.net.arrived.filter s.answered
  let n : Net := { s.net with arrived := s.net.arrived.filter fun p => !s.answered p }
  { s with net := l.foldl (fun n p => n.push (bufKey p.dst 4 true) p.answer) n }

end Sys2Proof.Machine
end

