-- ==== Sys2Proof/Machine/Translate.lean ====
section
/-! DEFINITION. Address translation (R330 to R337): regions, page walks, TLBs, and the device's own reads and writes of
virtual addresses. -/

namespace Sys2Proof.Machine

open Sys2Proof

/-- A translation fault: near with its trap code and the level reached, or far at a level (R337). -/
inductive XFault where
  | near (code level : Nat)
  | far (level : Nat)
deriving DecidableEq, Repr

/-- Access kinds of R333 with the codes of R340. -/
inductive XKind where
  | read | write | fetch
deriving DecidableEq, Repr

def XKind.acc : XKind → Nat
  | .read => 0 | .write => 1 | .fetch => 2

/-- A translation: physical address, AP, HS and the page size. -/
structure Xlat where
  pa  : Nat
  ap  : Nat
  hs  : Bool
  log : Nat
deriving DecidableEq, Repr

def codeVaRange : Nat := 0x501
def codeTransAsid : Nat := 0x502
def codeTransData : Nat := 0x503
def codePtFormat : Nat := 0x504
def codePageNx : Nat := 0x505
def codePageWp : Nat := 0x506

/-- R180: a PA in local device memory. -/
def paLocal (pa : Nat) : Bool := field pa 51 39 = 0

/-- R180: the location of a PA; none is MEM_REGION. -/
def State.region (s : State) (ctl : Bool) (pa : Nat) : Option Loc :=
  match field pa 51 50 with
  | 0 => if field pa 49 39 = 0 then some (.dev (field pa 38 0)) else none
  | 1 => if field pa 49 48 = 0 then some (.host (field pa 47 0)) else none
  | 2 =>
    if field pa 49 48 = 0 && !nbit pa 39 then
      let d := field pa 47 40
      if !s.link.present.getLsbD d then none
      else if d = s.link.devid.toNat then some (.dev (field pa 38 0))
      else some (.peer d (field pa 38 0))
    else none
  | _ => if ctl then some (.ctrl (field pa 49 0)) else none

/-- R332: whether an entry with V = 1 breaks the format of its level. -/
def pteBad (lv x : Nat) : Bool :=
  field x 63 52 != 0 || field x 11 8 != 0 ||
  (if nbit x 1 then
     lv < 2 || (nbit x 6 && lv != 4) ||
     (lv = 2 && field x 29 12 != 0) || (lv = 3 && field x 20 12 != 0) || (lv = 4 && nbit x 6 && field x 15 12 != 0)
   else lv = 4 || field x 7 2 != 0 || !paLocal x)

/-- Page size of a leaf (R331). -/
def leafLog (lv x : Nat) : Nat := match lv with | 2 => 30 | 3 => 21 | _ => if nbit x 6 then 16 else 12

/-- R333: the walk from level `lv`, `todo` levels left. -/
def walkFrom (s : State) (va t lv : Nat) : Nat → State × Except XFault (Nat × Nat)
  | 0 => (s, .error (.near codePtFormat lv))
  | n + 1 =>
    let a := field t 38 0 + 8 * (va / 2 ^ (48 - 9 * lv) % 512)
    if s.badAt (.dev a) 8 then (s, .error (.near codeTransData lv))
    else
      let s := s.settleFixed (.dev a) 8
      let x := s.natAt (.dev a) 8
      if !nbit x 0 then (s, .error (.far lv))
      else if pteBad lv x then (s, .error (.near codePtFormat lv))
      else if nbit x 1 then (s, .ok (lv, x))
      else walkFrom s va (field x 51 12 * 4096) (lv + 1) n

/-- The table entries that a walk reads, in order. -/
def walkPlaces (s : State) (va t lv : Nat) : Nat → List Loc
  | 0 => []
  | n + 1 =>
    let a := field t 38 0 + 8 * (va / 2 ^ (48 - 9 * lv) % 512)
    let x := s.natAt (.dev a) 8
    .dev a :: (if s.badAt (.dev a) 8 || !nbit x 0 || pteBad lv x || nbit x 1 then []
      else walkPlaces s va (field x 51 12 * 4096) (lv + 1) n)

/-- R335: the entry of an ASID that is in force; the first use after reset or after a TLBINV that names the ASID reads it
from the table. None where the table's bytes are in error. -/
def State.asidEntry (s : State) (asid : Nat) : State × Option (Nat × Nat) :=
  match s.trans.asids.get asid with
  | some e => (s, some e)
  | none =>
    let l : Loc := .dev (s.trans.trtab + 16 * asid)
    if s.badAt l 16 then (s, none)
    else
      let s := s.settleFixed l 16
      let e := (s.natAt l 8, s.natAt (l.add 8) 8)
      ({ s with trans := { s.trans with asids := s.trans.asids.put asid e } }, some e)

/-- R333, R335: a walk for an ASID and a VA; the answer is the translation as a TLB holds it. -/
def State.walk (s : State) (asid va : Nat) : State × Except XFault TlbEntry :=
  match s.asidEntry asid with
  | (s, none) => (s, .error (.near codeTransData 0))
  | (s, some (e, _)) =>
    if !nbit e 0 || field e 11 1 != 0 || field e 63 52 != 0 || !paLocal (field e 51 12 * 4096) then
      (s, .error (.near codeTransAsid 0))
    else
      match walkFrom s va (field e 51 12 * 4096) 0 5 with
      | (s, .error f) => (s, .error f)
      | (s, .ok (lv, x)) =>
        let log := leafLog lv x
        -- a 64 KiB page takes PA[15:12] from the VA, so its entry covers all 64 KiB
        (s, .ok { asid := asid, vbase := va / 2 ^ log * 2 ^ log, log := log, pbase := field x 51 12 * 4096 / 2 ^ log * 2 ^ log,
                  ap := field x 5 4, hs := nbit x 7, nx := nbit x 3, wp := nbit x 2 })

/-- A TLB entry that covers a VA of an ASID (R336, R330). -/
def TlbEntry.covers (asid va : Nat) (e : TlbEntry) : Bool := e.asid = asid && va / 2 ^ e.log = e.vbase / 2 ^ e.log

/-- An entry placed in a TLB of `cap` entries; a victim gives way when it is full. -/
def tlbFill (cap n : Nat) (l : List TlbEntry) (e : TlbEntry) : List TlbEntry :=
  if l.length < cap then e :: l else e :: l.eraseIdx (Config.victim n % cap)

/-- The level of the leaf that a page size came from (R331). -/
def TlbEntry.level (e : TlbEntry) : Nat := match e.log with | 30 => 2 | 21 => 3 | _ => 4

/-- The permissions of a translation (R333, last lines). -/
def tlbUse (kind : XKind) (va : Nat) (e : TlbEntry) : Except XFault Xlat :=
  if kind = .fetch && e.nx then .error (.near codePageNx e.level)
  else if kind = .write && e.wp then .error (.near codePageWp e.level)
  else .ok { pa := e.pbase + va % 2 ^ e.log, ap := e.ap, hs := e.hs, log := e.log }

/-- R411: until XLATE is set, control mode translates VA[51:0] as the PA, with every permission and placement 00. -/
def State.flat (s : State) (asid : Nat) : Bool := asid = 0 && !s.boot.xlate

/-- The level that a fault has reached. -/
def XFault.level : XFault → Nat
  | .near _ lv => lv
  | .far lv => lv

/-- R324: the requests of a walk. -/
def State.walkAsks (s : State) (cluster asid va : Nat) : State :=
  match (s.asidEntry asid).2 with
  | some (e, _) => (walkPlaces s va (field e 51 12 * 4096) 0 5).foldl (fun s l => s.ask cluster 0 false l 8) s
  | none => s

/-- R336: core TLB, cluster TLB, walk, whose reads are requests of class 0 (R324); a walk fills both. -/
def State.lookup (s : State) (k asid va : Nat) : State × Except XFault TlbEntry :=
  match (s.core k).tlb.find? (TlbEntry.covers asid va) with
  | some e => (s, .ok e)
  | none =>
    match (s.cluster (clusterOf k)).tlb.find? (TlbEntry.covers asid va) with
    | some e => (s.modCore k fun c => { c with tlb := tlbFill 64 s.ctr c.tlb e }, .ok e)
    | none =>
      match s.walk asid va with
      | (s, .error f) => (s.walkAsks (clusterOf k) asid va, .error f)
      | (s, .ok e) =>
        let s := (s.walkAsks (clusterOf k) asid va).modCluster (clusterOf k) fun c => { c with tlb := tlbFill 4096 s.ctr c.tlb e }
        (s.modCore k fun c => { c with tlb := tlbFill 64 s.ctr c.tlb e }, .ok e)

/-- R336: neither TLB of a core holds an address that is to be translated. -/
def State.missing (s : State) (k asid : Nat) (va : Dword) : Bool :=
  !s.flat asid && field va.toNat 63 57 = 0 && !((s.core k).tlb.any (TlbEntry.covers asid va.toNat)) &&
  !((s.cluster (clusterOf k)).tlb.any (TlbEntry.covers asid va.toNat))

/-- The walks of an instruction's pages that neither TLB holds. True when a walk has filled them, or waits at its port: the
part waits with stall reason 24 and looks again. -/
def State.fillTlbs (s : State) (k asid : Nat) : List Dword → State × Bool
  | [] => (s, false)
  | va :: r =>
    if !s.missing k asid va then s.fillTlbs k asid r
    else if s.portWaits (clusterOf k) 0 10 then (s, true)
    else
      match s.lookup k asid va.toNat with
      | (s, .ok _) => ((s.fillTlbs k asid r).1, true)
      | (s, .error _) => s.fillTlbs k asid r

/-- R333: a translation on a core. -/
def State.translate (s : State) (k asid : Nat) (kind : XKind) (va : Dword) : State × Except XFault Xlat :=
  let v := va.toNat
  if s.flat asid then
    if field v 63 52 != 0 then (s, .error (.near codeVaRange 0))
    else (s, .ok { pa := v, ap := 0, hs := false, log := 12 })
  else if field v 63 57 != 0 then (s, .error (.near codeVaRange 0))
  else
    match s.lookup k asid v with
    | (s, .error f) => (s, .error f)
    | (s, .ok e) => (s, tlbUse kind v e)

/-- R343: a page lookup is counted while sampling is on; every 2^LOG2N-th writes a record to the sampling ring. -/
def State.look (s : State) (k asid : Nat) (va : Dword) (acc log : Nat) : State :=
  if !s.trans.hpen then s
  else
    let n := (s.core k).looks + 1
    let s := s.modCore k fun c => { c with looks := n }
    if n % 2 ^ s.trans.hplog != 0 then s
    else if (s.trans.hptail - s.trans.hphead).toNat = 2 ^ s.trans.rlog then
      { s with trans := { s.trans with hpdrop :=
          if s.trans.hpdrop = BitVec.allOnes 32 then s.trans.hpdrop else s.trans.hpdrop + 1 } }
    else
      let size := match log with | 12 => 0 | 16 => 1 | 21 => 2 | _ => 3
      let rec' := leBytes 8 va.toNat ++ leBytes 8 (s.time.toNat + asid * 2 ^ 48) ++
        leBytes 4 (k + acc * 512 + size * 2048) ++ leBytes 12 0
      let at_ := s.trans.hpbase + 32 * (s.trans.hptail.toNat % 2 ^ s.trans.rlog)
      let s := match s.region true at_ with
        | some l => s.writeAt l rec'
        | none => s
      { s with trans := { s.trans with hptail := s.trans.hptail + 1 } }

/-- What a read or write of a virtual address by the device itself meets. -/
inductive DevRes where
  | ok (data : List Byte)
  | far (va : Dword) (level : Nat)
  | near (code : Nat) (va : Dword)
  | bad (va : Dword)
deriving DecidableEq, Repr

def codeMemRegion : Nat := 0x304

/-- The location of a virtual address for the device itself: no TLB is used and none is filled. -/
def State.locate (s : State) (asid : Nat) (kind : XKind) (va : Dword) : State × Except DevRes Loc :=
  let v := va.toNat
  let put := fun (s : State) (x : Xlat) =>
    match s.region (asid = 0) x.pa with
    | some l => (s, (.ok l : Except DevRes Loc))
    | none => (s, .error (.near codeMemRegion va))
  if s.flat asid then
    if field v 63 52 != 0 then (s, .error (.near codeVaRange va))
    else put s { pa := v, ap := 0, hs := false, log := 12 }
  else if field v 63 57 != 0 then (s, .error (.near codeVaRange va))
  else
    match s.walk asid v with
    | (s, .error (.near c _)) => (s, .error (.near c va))
    | (s, .error (.far lv)) => (s, .error (.far va lv))
    | (s, .ok e) =>
      match tlbUse kind v e with
      | .error (.near c _) => (s, .error (.near c va))
      | .error (.far lv) => (s, .error (.far va lv))
      | .ok x => put s x

/-- The device reads `n` units of 16 bytes at a VA that is a multiple of 16. -/
def State.devRead (s : State) (asid : Nat) (va : Dword) : Nat → State × DevRes
  | 0 => (s, .ok [])
  | n + 1 =>
    match s.locate asid .read va with
    | (s, .error e) => (s, e)
    | (s, .ok l) =>
      if s.badAt l 16 then (s, .bad va)
      else
        let (s, d) := s.readAt l 16
        match s.devRead asid (va + 16) n with
        | (s, .ok r) => (s, .ok (d ++ r))
        | (s, e) => (s, e)

/-- The device writes 16-byte units at a VA that is a multiple of 16; false where it cannot, an uncorrectable error among
the reasons (R363, R278). -/
def State.devWrite (s : State) (asid : Nat) (va : Dword) (data : List Byte) : Nat → State × Bool
  | 0 => (s, true)
  | n + 1 =>
    match s.locate asid .write va with
    | (s, .error _) => (s, false)
    | (s, .ok l) =>
      if s.badAt l 16 then (s, false) else (s.writeAt l (data.take 16)).devWrite asid (va + 16) (data.drop 16) n

end Sys2Proof.Machine
end

