-- ==== Sys2Proof/Machine/Log.lean ====
section
/-! DEFINITION. Who issues; the fields of a launch record (R285); event records, rings, decision sequences and the assay
record (R364, R388 to R395, R398). -/

namespace Sys2Proof.Machine

open Sys2Proof

/-! ### Fields of a unit's record -/

/-- The word at a byte offset of the record. -/
def WorkUnit.w (u : WorkUnit) (off : Nat) : Word := nth u.words (off / 4)
/-- Its value as a number. -/
def WorkUnit.n (u : WorkUnit) (off : Nat) : Nat := (u.w off).toNat
/-- The doubleword at a byte offset. -/
def WorkUnit.d (u : WorkUnit) (off : Nat) : Dword := pair (u.w off) (u.w (off + 4))

/-- R324: the class of a unit's requests. -/
def WorkUnit.netClass (u : WorkUnit) : Nat := if u.ctl then 0 else field (nth u.desc 0).toNat 5 4
/-- Quads of a wave: Q = 2^(WW-1) (R285, R290). -/
def WorkUnit.quads (u : WorkUnit) : Nat := 2 ^ (field (u.n 0x20) 2 0 - 1)
/-- Group shape in lanes. -/
def WorkUnit.gsx (u : WorkUnit) : Nat := field (u.n 0x1C) 9 0 + 1
def WorkUnit.gsy (u : WorkUnit) : Nat := field (u.n 0x1C) 19 10 + 1
def WorkUnit.gsz (u : WorkUnit) : Nat := field (u.n 0x1C) 29 20 + 1
def WorkUnit.lanes (u : WorkUnit) : Nat := u.gsx * u.gsy * u.gsz
/-- Waves of a group: ceil(lanes / 4Q) (R290). -/
def WorkUnit.nwaves (u : WorkUnit) : Nat := (u.lanes + 4 * u.quads - 1) / (4 * u.quads)
/-- S count and V allocation (R285, R45). -/
def WorkUnit.scnt (u : WorkUnit) : Nat := field (u.n 0x20) 23 16
def WorkUnit.valloc (u : WorkUnit) : Nat := 8 * field (u.n 0x20) 13 8
/-- Accumulator tiles, the TA, the weight-store bit, rennet entries (R285). -/
def WorkUnit.acct (u : WorkUnit) : Nat := field (u.n 0x44) 3 0
def WorkUnit.taq (u : WorkUnit) : Bool := nbit (u.n 0x44) 4
def WorkUnit.wsb (u : WorkUnit) : Bool := nbit (u.n 0x44) 5
def WorkUnit.rne (u : WorkUnit) : Nat := field (u.n 0x44) 14 8
/-- Local-store allocation: LSREQ rounded up to 256 bytes (R183). -/
def WorkUnit.lsz (u : WorkUnit) : Nat := (u.n 0x24 + 255) / 256 * 256
/-- Groups of the grid. -/
def WorkUnit.grid (u : WorkUnit) : Nat := u.n 0x10 * u.n 0x14 * u.n 0x18
def WorkUnit.launchix (u : WorkUnit) : Word := u.w 0x04
/-- KIND: 0 compute, 1 draw geometry, 2 draw pixel. -/
def WorkUnit.kindCode (u : WorkUnit) : Nat := field (u.n 0) 23 20

/-! ### Who issues -/

/-- A part with what holds it. -/
structure Who where
  pr : PartRef
  w  : Wave
  p  : Part
  g  : Group
  u  : WorkUnit

/-- The part a reference names, with its wave, group and launch. -/
def State.who (s : State) (pr : PartRef) : Option Who :=
  match s.waves.get pr.wave with
  | none => none
  | some w =>
    match w.parts.get pr.part, s.groups.get w.group with
    | some p, some g =>
      match s.units.get g.unit with
      | some u => some { pr := pr, w := w, p := p, g := g, u := u }
      | none => none
    | _, _ => none

/-- ASID of the part: 0 in control mode, else its context (R335, R347). -/
def Who.asid (o : Who) : Nat := if o.u.ctl then 0 else o.u.ctx

/-- Launch-wide wave id (R391). -/
def Who.wid (o : Who) : Nat := (o.g.g * o.u.nwaves + o.w.index) % 2 ^ 32

/-- Lowest quad of a mask: the part id (R249). -/
def lowQuad (q : QuadMask) : Nat := (maskLow q).getD 0

/-! ### Records (R391) -/

/-- An event record's own fields. -/
structure EvRec where
  kind  : Nat
  code  : Nat
  wid   : Nat
  part  : Nat
  pc    : Nat
  dseq  : Nat
  qmask : Nat
  data  : Nat
deriving DecidableEq, Repr

/-- The 32 bytes of a record. `src` is the source id. -/
def evBytes (time seq src : Nat) (e : EvRec) : List Byte :=
  leBytes 6 time ++ leBytes 2 seq ++ leBytes 2 src ++ leBytes 1 e.kind ++ leBytes 1 e.code ++ leBytes 4 e.wid ++
  leBytes 8 (e.pc % 2 ^ 57 + e.part % 16 * 2 ^ 57) ++ leBytes 2 e.qmask ++ leBytes 2 e.dseq ++ leBytes 4 e.data

/-- R388: a log ring's TAIL and HEAD, and whether it lacks room beyond `keep` records; one whose header is in
uncorrectable error has none (log entry 80). -/
def State.ringFull (s : State) (base size keep : Nat) : Bool :=
  let t : Word := BitVec.ofNat 32 (s.natAt (.dev base) 4)
  let h : Word := BitVec.ofNat 32 (s.natAt (.dev (base + 4)) 4)
  s.badAt (.dev base) 12 || size ≤ (t - h).toNat + keep

/-- R388: a record goes into a ring, and TAIL advances, a release at system scope; or a full ring counts it in DROPS. The
writes of what has a port are requests of class 0 (R324). -/
def State.ringPut (s : State) (port : Option Nat) (base size : Nat) (rec : List Byte) : State :=
  if s.badAt (.dev base) 12 then s
  else if s.ringFull base size 0 then
    let d := s.natAt (.dev (base + 8)) 4
    s.setNat (.dev (base + 8)) 4 (min (d + 1) (2 ^ 32 - 1))
  else
    let t := s.natAt (.dev base) 4
    let s := match port with
      | some p => (s.ask p 0 true (.dev (base + 64 + 32 * (t % size))) 32).ask p 0 true (.dev base) 4
      | none => s
    let s := s.setBytes (.dev (base + 64 + 32 * (t % size))) rec
    (s.setNat (.dev base) 4 ((t + 1) % 2 ^ 32)).carry base (BitVec.allOnes 512, s.time)

/-- Ring sizes of a log-table entry held by a unit (R388). -/
def WorkUnit.esize (u : WorkUnit) : Nat := 2 ^ (field (nth u.log 0).toNat 15 12 + 6)
def WorkUnit.msize (u : WorkUnit) : Nat := 2 ^ (field (nth u.log 0).toNat 19 16 + 6)
def WorkUnit.psize (u : WorkUnit) : Nat := 2 ^ (field (nth u.log 0).toNat 23 20 + 6)
/-- The event ring of core k, the memory-ordering ring of slice k, the profile ring of core k. -/
def WorkUnit.ering (u : WorkUnit) (k : Nat) : Nat := (pair (nth u.log 2) (nth u.log 3)).toNat + k * (64 + 32 * u.esize)
def WorkUnit.mring (u : WorkUnit) (k : Nat) : Nat := (pair (nth u.log 4) (nth u.log 5)).toNat + k * (64 + 32 * u.msize)
def WorkUnit.pring (u : WorkUnit) (k : Nat) : Nat := (pair (nth u.log 6) (nth u.log 7)).toNat + k * (64 + 32 * u.psize)

/-- The next SEQ of a core (R364). -/
def State.nextSeq (s : State) (k : Nat) : State × Nat :=
  (s.modCore k fun c => { c with seq := c.seq + 1 }, (s.core k).seq.toNat)

/-- R398: a record of kind 11 or 17 is appended to a die's assay ring; a frozen ring counts it as dropped. -/
def State.assay (s : State) (d : Nat) (rec : List Byte) : State :=
  s.modDie d fun a =>
    if a.frozen then { a with drop := if a.drop = BitVec.allOnes 32 then a.drop else a.drop + 1 }
    else { a with recs := a.recs.put (a.tail.toNat % 4096) rec, tail := a.tail + 1 }

/-- A kind 17 record of the compute-die monitor of die `d` (R391, R392). -/
def State.platform (s : State) (d code ctx data pc : Nat) : State :=
  let q := (s.die d).seq.toNat
  let e : EvRec := { kind := 17, code := code, wid := ctx, part := 0, pc := pc, dseq := 0, qmask := 0, data := data }
  (s.assay d (evBytes s.time.toNat q (3 * 512 + d) e)).modDie d fun a => { a with seq := a.seq + 1 }

/-- The same on every die. -/
def State.platformAll (s : State) (code ctx data : Nat) : State :=
  (List.range 4).foldl (fun s d => s.platform d code ctx data 0) s

/-- Fields of a record. -/
def recKind (r : List Byte) : Nat := (r.getD 10 0).toNat
def recCode (r : List Byte) : Nat := (r.getD 11 0).toNat
def recWid (r : List Byte) : Nat := leNat ((r.drop 12).take 4)
def recQuads (r : List Byte) : Nat := leNat ((r.drop 24).take 2)
def recPart (r : List Byte) : Nat := field (leNat ((r.drop 16).take 8)) 60 57
def recPc (r : List Byte) : Nat := leNat ((r.drop 16).take 8) % 2 ^ 57
def recDseq (r : List Byte) : Nat := leNat ((r.drop 26).take 2)

/-- The DATA of a record. -/
def recData (r : List Byte) : Nat := leNat ((r.drop 28).take 4)

/-- R395: kinds that the replay keeps in the order of their ring: swaps, pre-emptions, traps and samples are not
enforced. -/
def kindOrdered (k : Nat) : Bool := k < 2 || (4 ≤ k && k ≤ 10) || k = 14 || k = 15

/-- Whether a ring lacks room for n records (R394). -/
def State.ringShort (s : State) (u : WorkUnit) (core n : Nat) : Bool :=
  u.mode = 2 && n != 0 && s.ringFull (u.ering core) u.esize (n - 1)

/-- The first record in order from place `h` on, among n, with the place after it. -/
def State.replayScan (s : State) (base size : Nat) (h : Nat) : Nat → Option (Nat × List Byte)
  | 0 => none
  | n + 1 =>
    let r := s.bytesAt (.dev (base + 64 + 32 * (h % size))) 32
    if kindOrdered (recKind r) then some ((h + 1) % 2 ^ 32, r) else s.replayScan base size ((h + 1) % 2 ^ 32) n

/-- The records that a ring in replay mode has not given: how many stand from place `h` on. -/
def State.ringLeft (s : State) (base size h : Nat) : Nat :=
  min size ((s.natAt (.dev base) 4 + 2 ^ 32 - h) % 2 ^ 32)

/-- In replay mode, the record that a slice's ring gives next (R395), with the HEAD that consumes it. -/
def State.ringHead (s : State) (base size : Nat) : Option (Nat × List Byte) :=
  let h := s.natAt (.dev (base + 4)) 4
  s.replayScan base size h (s.ringLeft base size h)

/-- The records of a ring from HEAD on, each with its place. -/
def State.ringRecs (s : State) (base size : Nat) : List (Nat × List Byte) :=
  let h := s.natAt (.dev (base + 4)) 4
  (List.range (s.ringLeft base size h)).map fun i =>
    ((h + i) % 2 ^ 32, s.bytesAt (.dev (base + 64 + 32 * ((h + i) % 2 ^ 32 % size))) 32)

/-- Places of a core's event ring that the replay has consumed ahead of HEAD. -/
def State.eatenOn (s : State) (u : WorkUnit) (k : Nat) : List Nat := ((s.core k).eaten.get u.ctx).getD []

/-- R395: the records of a core's event ring that the replay keeps in order and has not consumed. -/
def State.replayRecs (s : State) (u : WorkUnit) (k : Nat) : List (Nat × List Byte) :=
  (s.ringRecs (u.ering k) u.esize).filter fun e => kindOrdered (recKind e.2) && !(s.eatenOn u k).contains e.1

/-- R395: the next record of a wave in its core's ring, a decision or a MARK, with its place. -/
def State.replayNext (s : State) (u : WorkUnit) (k wid : Nat) : Option (Nat × List Byte) :=
  (s.replayRecs u k).find? fun e => recKind e.2 != 1 && recKind e.2 ≤ 10 && recWid e.2 = wid

/-- R395: the next group dispatch of a core's ring. -/
def State.dispatchNext (s : State) (u : WorkUnit) (k : Nat) : Option (Nat × List Byte) :=
  (s.replayRecs u k).find? fun e => recKind e.2 = 1

/-- The replay has consumed a place: HEAD passes every record before the first that is still expected. -/
def State.consume (s : State) (u : WorkUnit) (k place : Nat) : State :=
  let base := u.ering k
  let eaten := place :: s.eatenOn u k
  let gone := (s.ringRecs base u.esize).takeWhile fun e => eaten.contains e.1 || !kindOrdered (recKind e.2)
  (s.modCore k fun c => { c with eaten := c.eaten.put u.ctx (eaten.filter fun x => !gone.any fun e => e.1 = x) }).setNat
    (.dev (base + 4)) 4 ((s.natAt (.dev (base + 4)) 4 + gone.length) % 2 ^ 32)

/-- The quads of a wave's other parts. -/
def Who.otherQuads (o : Who) : QuadMask :=
  o.w.parts.foldl (fun m p => if p.1 = o.pr.part then m else m ||| p.2.quads) 0

/-- R395: in replay, a decision of a part waits until it is the next record of its wave, and, where an order among waves was
recorded (kinds 4 to 9), the next of its kind in the ring. A decision of another kind than the wave's next record, when
that names no other part, differs from it and is made, which ends the replay. In other modes it is free. -/
def State.mayDecide (s : State) (o : Who) (kind : Nat) : Bool :=
  if o.u.mode = 3 then
    match s.replayNext o.u o.g.core o.wid with
    | none => false
    | some (k, r) =>
      let quads := BitVec.ofNat 16 (recQuads r)
      if recKind r = kind && (quads &&& o.p.quads) != 0 then
        kind < 4 || 9 < kind || ((s.replayRecs o.u o.g.core).find? fun e => recKind e.2 = kind).all fun e => e.1 = k
      else quads &&& o.otherQuads = 0
  else true

/-- R395: in replay, the next record of its wave that names quads of the part. -/
def State.partNext (s : State) (o : Who) : Option (Nat × List Byte) :=
  (s.replayRecs o.u o.g.core).find? fun e =>
    recKind e.2 != 1 && recKind e.2 < 10 && recWid e.2 = o.wid && (BitVec.ofNat 16 (recQuads e.2) &&& o.p.quads) != 0

/-- R395: a decision that differs from its record ends the replay: kind 12, DIV, and MODE 0 for what remains. -/
def State.diverge (s : State) (u : WorkUnit) (k : Nat) (r : List Byte) : State :=
  let (s, q) := s.nextSeq k
  let e : EvRec := { kind := 12, code := recKind r, wid := recWid r, part := 0, pc := 0, dseq := 0, qmask := 0,
                     data := recDseq r }
  let s := s.ringPut (some (clusterOf k)) (u.ering k) u.esize (evBytes s.time.toNat q k e)
  let a := s.tables.lgtab + 64 * u.ctx + 44
  let s := s.setNat (.dev a) 4 (s.natAt (.dev a) 4 / 2 * 2 + 1)
  { s with units := s.units.map fun x => if x.2.ctx = u.ctx then (x.1, { x.2 with mode := 0 }) else x }

/-- R395: whether an event is what a record holds. -/
def EvRec.meets (e : EvRec) (r : List Byte) : Bool :=
  recKind r = e.kind && recCode r = e.code && recWid r = e.wid && recPart r = e.part % 16 && recPc r = e.pc % 2 ^ 57 &&
    recQuads r = e.qmask % 2 ^ 16 && recData r = e.data % 2 ^ 32

/-- R395: an event in replay is checked against the next record of its wave, or of its core for a dispatch: what it meets it
consumes; from any other it differs. -/
def State.replayEvent (s : State) (k : Nat) (u : WorkUnit) (e : EvRec) : State :=
  if u.mode != 3 || !kindOrdered e.kind then s
  else
    match if e.kind = 1 then s.dispatchNext u k else s.replayNext u k e.wid with
    | none => s
    | some (place, r) => if e.meets r then s.consume u k place else s.diverge u k r

/-- Whether an event is written: in trace and record mode (R393); a MARK in replay too (R399). -/
def writesEvent (u : WorkUnit) (e : EvRec) : Bool := u.mode = 1 || u.mode = 2 || u.mode = 3 && e.kind = 10

/-- An event on a core: written in trace and record mode, checked against the log in replay (R393, R395); a record of
kind 11 stands in the assay record too. Its write is a request of class 0 (R324). What a MARK writes in replay is no record
that the replay expects. -/
def State.event (s : State) (k : Nat) (u : WorkUnit) (e : EvRec) : State :=
  let writes := writesEvent u e
  let s := s.replayEvent k u e
  if writes || e.kind = 11 then
    let (s, q) := s.nextSeq k
    let b := evBytes s.time.toNat q k e
    let tail := s.natAt (.dev (u.ering k)) 4
    let room := !s.ringFull (u.ering k) u.esize 0
    let s := if writes then s.ringPut (some (clusterOf k)) (u.ering k) u.esize b else s
    let s := if u.mode = 3 && writes && room then s.consume u k tail else s
    if e.kind = 11 then s.assay (dieOf k) b else s
  else s

/-- R393: a decision of kinds 0 and 2 to 9 that names a wave raises its DSEQ and is recorded. -/
def State.decide (s : State) (o : Who) (kind code part pc qmask data : Nat) : State :=
  let d := ((s.waves.get o.pr.wave).map fun w => w.seqs.dseq + 1).getD 0
  let s := s.modWave o.pr.wave fun w => { w with seqs := { w.seqs with dseq := d } }
  s.event o.g.core o.u { kind := kind, code := code, wid := o.wid, part := part, pc := pc, dseq := d.toNat,
                         qmask := qmask, data := data }

/-- R264: cut, knit and exit events, kind 0. -/
def State.waveEvent (s : State) (o : Who) (code : Nat) (quads : QuadMask) (pc : Dword) : State :=
  s.decide o 0 code (lowQuad quads) pc.toNat quads.toNat 0

end Sys2Proof.Machine
end

