-- ==== Sys2Proof/Machine/Frames.lean ====
section
/-! DEFINITION. Registers of a wave, and context frames in memory (R368 to R371). -/

namespace Sys2Proof.Machine

open Sys2Proof

/-! ### Registers of a wave (R45) -/

/-- V register r of a lane. -/
def Wave.vreg (w : Wave) (r lane : Nat) : Word := nth ((w.v.get r).getD []) lane
/-- The copy of S register r of a quad. -/
def Wave.sreg (w : Wave) (r q : Nat) : Word := nth ((w.s.get r).getD []) q
/-- A predicate register; P7 reads true. -/
def Wave.preg (w : Wave) (r : Nat) : LaneMask := if r = 7 then BitVec.allOnes 64 else (w.p.get r).getD 0

/-- A V register written in the lanes of a mask; a held error of those lanes ends (R194). -/
def Wave.setV (w : Wave) (r : Nat) (m : LaneMask) (f : Nat → Word) : Wave :=
  { w with v := w.v.put r (lanesOf fun l => if m.getLsbD l then f l else w.vreg r l),
           errs := w.errs.filter fun e => !(e.cls = 0 && e.num = r && m.getLsbD e.unit) }

/-- An S register written in the quads of a mask. -/
def Wave.setS (w : Wave) (r : Nat) (qs : QuadMask) (x : Word) : Wave :=
  { w with s := w.s.put r (quadsOf fun q => if qs.getLsbD q then x else w.sreg r q),
           errs := w.errs.filter fun e => !(e.cls = 1 && e.num = r && qs.getLsbD e.unit) }

/-- A predicate written in the lanes of a mask; P7 takes no writes (R45). -/
def Wave.setP (w : Wave) (r : Nat) (m : LaneMask) (f : Nat → Bool) : Wave :=
  if r = 7 then w
  else { w with p := w.p.put r (maskOf 64 fun l => if m.getLsbD l then f l else (w.preg r).getLsbD l) }

/-- FMT and CUTP of a part: the copy of its lowest quad (R248: the copies of a part agree). -/
def Who.fmt (o : Who) : Word := nth o.w.fmt (lowQuad o.p.quads)
def Who.cutp (o : Who) : Word := nth o.w.cutp (lowQuad o.p.quads)
def Who.sreg (o : Who) (r : Nat) : Word := o.w.sreg r (lowQuad o.p.quads)
/-- A pair of S registers. -/
def Who.spair (o : Who) (r : Nat) : Dword := pair (o.sreg r) (o.sreg (r + 1))
/-- The value of an S register that a field supplies, and of a pair (R42). -/
def Who.sval (o : Who) (x : Src) : Word := if x.neg then -(o.sreg x.num.toNat) else o.sreg x.num.toNat
def Who.sval2 (o : Who) (x : Src) : Dword := if x.neg then -(o.spair x.num.toNat) else o.spair x.num.toNat
/-- S registers from r upward. -/
def Who.srun (o : Who) (r n : Nat) : List Word := (List.range n).map fun i => o.sreg (r + i)

def Wave.setFmt (w : Wave) (qs : QuadMask) (x : Word) : Wave :=
  { w with fmt := quadsOf fun q => if qs.getLsbD q then x else nth w.fmt q }
def Wave.setCutp (w : Wave) (qs : QuadMask) (x : Word) : Wave :=
  { w with cutp := quadsOf fun q => if qs.getLsbD q then x else nth w.cutp q }

/-- A ray hit record that is a miss (R175). -/
def missRecord : List Word := [0x7F800000, 0, 0, 0xFFFFFFFF, 0xFFFFFFFF, 0xFFFFFFFF, 0, 0]

def Wave.hit (w : Wave) (lane : Nat) : List Word := (w.hits.get lane).getD missRecord

/-! ### Sizes (R368) -/

def quadBlock (u : WorkUnit) : Nat := 16 * u.valloc + 3072
def waveFrame (u : WorkUnit) : Nat := 4096 + u.quads * quadBlock u
def taBytes (u : WorkUnit) : Nat := if u.taq then 163840 else 0
def groupFrame (u : WorkUnit) : Nat :=
  (8192 + u.nwaves * waveFrame u + u.lsz + 4096 * u.acct + taBytes u + 4095) / 4096 * 4096

/-- Address of group g's frame. -/
def groupAddr (u : WorkUnit) (g : Nat) : Dword := u.d 0x38 + BitVec.ofNat 64 (g * groupFrame u)

/-- Address of the part's wave frame. -/
def Who.frame (o : Who) : Dword := groupAddr o.u o.g.g + BitVec.ofNat 64 (8192 + o.w.index * waveFrame o.u)

/-- Accumulator tokens of a part as bits (R105, R369). -/
def Who.tokens (o : Who) : Nat :=
  (List.range 8).foldl (fun a t => if o.g.token.get t = some o.pr then a + 2 ^ t else a) 0

/-- The episode that a part waits in (R258). -/
def Wave.episode (w : Wave) (part : Nat) : Option Episode := w.eps.find? fun e => e.parts.contains part

/-! ### Bytes -/

/-- A part header of 128 bytes (R369). -/
def headerBytes (o : Who) (state : Nat) (wait : Word) : List Byte :=
  let p := o.p
  let ep := o.w.episode o.pr.part
  leBytes 4 (p.quads.toNat * 65536 + (if p.late then 128 else 0) + (if p.rep.isSome then 64 else 0) + state) ++
  leBytes 4 wait.toNat ++ leBytes 8 p.pc.toNat ++ leBytes 8 p.active.toNat ++
  leBytes 4 (p.stack.length * 65536 + p.kc.toNat) ++
  leBytes 4 (match p.hold with | .instr (.sleep _) => p.timer | .nap => p.timer | _ => 0) ++
  leBytes 8 ((p.rep.map fun r => r.start.toNat).getD 0) ++ leBytes 8 ((p.rep.map fun r => r.stop.toNat).getD 0) ++
  leBytes 4 ((p.rep.map fun r => r.rem.toNat).getD 0) ++ leBytes 4 ((p.rep.map fun r => r.idx.toNat).getD 0) ++
  leBytes 4 o.tokens ++ leBytes 4 0 ++
  leBytes 8 ((ep.map fun e => e.pc.toNat).getD 0) ++
  leBytes 4 (match ep with | some e => (if e.impl then 3 else 1) | none => 0) ++
  leBytes 4 (match p.hold with | .instr (.waitn _) => p.timer | _ => 0) ++ leBytes 48 0

/-- Bit map of the registers of a class in held error, for one lane or quad. -/
def errMap (w : Wave) (cls unit : Nat) : Nat :=
  (dedup ((w.errs.filter fun e => e.cls = cls && e.unit = unit).map fun e => e.num)).foldl (fun a r => a + 2 ^ r) 0

/-- The quad block of quad q (R370); `stack` is given for the quad whose number is the part's id. -/
def quadBytes (w : Wave) (v q : Nat) (stack : List StackEntry) : List Byte :=
  let lanes := (List.range 4).map fun l => 4 * q + l
  (List.range v).flatMap (fun r => lanes.flatMap fun l => leBytes 4 (w.vreg r l).toNat) ++
  (List.range 128).flatMap (fun r => leBytes 4 (w.sreg r q).toNat) ++
  (stack.reverse.flatMap (fun e => leBytes 8 e.pc.toNat ++ leBytes 8 e.mask.toNat ++ leBytes 4 e.fmt.toNat ++ leBytes 12 0) ++
    List.replicate (2048 - 32 * stack.length) 0) ++
  lanes.flatMap (fun l => wordsBytes (w.hit l)) ++
  leBytes 4 ((List.range 28).foldl (fun a i => if (w.preg (i % 7)).getLsbD (4 * q + i / 7) then a + 2 ^ i else a) 0) ++
  leBytes 4 ((List.range 4).foldl (fun a l =>
    a + (if errMap w 0 (4 * q + l) = 0 then 0 else 2 ^ (8 * l)) + (if errMap w 1 q = 0 then 0 else 2 ^ (8 * l + 1))) 0) ++
  leBytes 4 (nth w.fmt q).toNat ++ leBytes 4 (nth w.cutp q).toNat ++
  leBytes 4 (w.exited.extractLsb' (4 * q) 4).toNat ++ leBytes 44 0 ++
  lanes.flatMap (fun l => leBytes 32 (errMap w 0 l)) ++ leBytes 16 (errMap w 1 q) ++ leBytes 176 0

/-! ### Saving (R363 step 2, R339) -/

/-- An area of 16-byte units that the device fills without a stated layout; false where it cannot, an uncorrectable error
among the reasons (R363). -/
def State.devBlur (s : State) (asid : Nat) (va : Dword) : Nat → State × Bool
  | 0 => (s, true)
  | n + 1 =>
    match s.locate asid .write va with
    | (s, .ok l) =>
      if s.badAt l 16 then (s, false)
      else (match l with | .dev a => s.blur a 16 | _ => s).devBlur asid (va + 16) n
    | (s, .error _) => (s, false)

/-- Lines of 128 bytes that a save writes: a header, the quad blocks, the wave state. -/
def saveLines (o : Who) (whole : Bool) : Nat :=
  1 + maskCount o.p.quads * ((quadBlock o.u + 127) / 128) + (if whole then 16 else 0)

/-- The part header, the quad blocks with the stack entries, and the wave state when the part is the wave's only live
one or its group is saved (R116, R363). Its writes are requests of class 0 (R324). False where a write fails. -/
def State.savePart (s : State) (o : Who) (state : Nat) (wait : Word) : State × Bool :=
  let base := o.frame
  let whole : Bool := o.w.parts.length ≤ 1 || state = 3
  let s := s.account (clusterOf o.g.core) 0 3 1 (saveLines o whole)
  let (s, ok) := s.devWrite o.asid (base + BitVec.ofNat 64 (128 * o.pr.part)) (headerBytes o state wait) 8
  let (s, ok) := (maskBits o.p.quads).foldl (fun (a : State × Bool) q =>
    let stack := if q = o.pr.part then o.p.stack else []
    let r := a.1.devWrite o.asid (base + BitVec.ofNat 64 (4096 + q * quadBlock o.u))
      (quadBytes o.w o.u.valloc q stack) (quadBlock o.u / 16)
    (r.1, a.2 && r.2)) (s, ok)
  if whole then
    let r := s.devBlur o.asid (base + 2048) 128
    (r.1, ok && r.2)
  else (s, ok)

/-! ### Restoring (R371) -/

def natOf (d : List Byte) (off n : Nat) : Nat := leNat ((d.drop off).take n)
def wordOf (d : List Byte) (off : Nat) : Word := BitVec.ofNat 32 (natOf d off 4)
def dwordOf (d : List Byte) (off : Nat) : Dword := BitVec.ofNat 64 (natOf d off 8)

/-- R253: a cut-policy word in range. -/
def cutpLegal (x : Word) : Bool :=
  x.extractLsb' 13 19 = 0 && !x.getLsbD 3 && 6 ≤ (x.extractLsb' 8 5).toNat && (x.extractLsb' 8 5).toNat ≤ 16 &&
  4 ≤ (x.extractLsb' 4 4).toNat

/-- R371: a part header whose fields are in range and whose quads are the part's. -/
def headerLegal (p : Part) (h : List Byte) : Bool :=
  natOf h 2 2 = p.quads.toNat && natOf h 1 1 = 0 && natOf h 0 1 / 4 % 4 = 0 && natOf h 0 1 % 16 ≤ 3 &&
  natOf h 0 1 / 16 % 4 = 0 &&
  natOf h 27 1 = 0 && natOf h 26 1 ≤ 64 && natOf h 57 3 = 0 && natOf h 72 4 ≤ 3 && natOf h 80 48 = 0

/-- A quad block whose FMT, CUTP and reserved places are in range; `n` stack entries lie in it, each with a legal FMT
(R74). -/
def blockLegal (v n : Nat) (b : List Byte) : Bool :=
  let t := 16 * v + 2688
  fmtLegal (wordOf b (t + 8)) && cutpLegal (wordOf b (t + 12)) && natOf b t 4 < 2 ^ 28 && natOf b (t + 16) 4 < 16 &&
  natOf b (t + 20) 44 = 0 && natOf b (t + 208) 176 = 0 &&
  (List.range n).all fun i =>
    let o := 16 * v + 512 + 32 * i
    fmtLegal (wordOf b (o + 16)) && natOf b (o + 20) 12 = 0

/-- The registers of quad q from its block. -/
def loadQuad (w : Wave) (v q : Nat) (b : List Byte) : Wave :=
  let t := 16 * v
  let m : LaneMask := quadLanes (bit1 16 q)
  let w := (List.range v).foldl (fun (w : Wave) r => w.setV r m fun l => wordOf b (16 * r + 4 * (l % 4))) w
  let w := (List.range 128).foldl (fun (w : Wave) r => w.setS r (bit1 16 q) (wordOf b (t + 4 * r))) w
  let w := (List.range 7).foldl (fun (w : Wave) r => w.setP r m fun l => nbit (natOf b (t + 2688) 4) (7 * (l % 4) + r)) w
  let w := (List.range 4).foldl (fun (w : Wave) l =>
    { w with hits := w.hits.put (4 * q + l) (bytesWords ((b.drop (t + 2560 + 32 * l)).take 32)) }) w
  let vErr := (List.range 4).flatMap fun l => ((List.range 256).filter fun r => nbit (natOf b (t + 2752) 128) (256 * l + r)).map
    fun r => ({ cls := 0, num := r, unit := 4 * q + l, pc := 0, addr := 0, loss := none } : HeldErr)
  let sErr := ((List.range 128).filter fun r => nbit (natOf b (t + 2880) 16) r).map
    fun r => ({ cls := 1, num := r, unit := q, pc := 0, addr := 0, loss := none } : HeldErr)
  let w := { w with errs := (w.errs.filter fun (e : HeldErr) => (if e.cls = 0 then e.unit / 4 else e.unit) != q) ++ vErr ++ sErr }
  let w := { w with exited := (w.exited &&& ~~~ m) ||| maskOf 64 fun l => l / 4 = q && nbit (natOf b (t + 2704) 4) (l % 4) }
  (w.setFmt (bit1 16 q) (wordOf b (t + 2696))).setCutp (bit1 16 q) (wordOf b (t + 2700))

/-- Stack entries of a block, the deepest stored first, as the part holds them: top first. -/
def loadStack (v n : Nat) (b : List Byte) : List StackEntry :=
  ((List.range n).map fun i =>
    let o := 16 * v + 512 + 32 * i
    ({ pc := dwordOf b o, mask := dwordOf b (o + 8), fmt := wordOf b (o + 16) } : StackEntry)).reverse

/-- The part's fields from its header. SLEEPR and MDLR are the clocks of a SLEEP and of a WAITN; a part that waits in nothing
sleeps for its SLEEPR first; what else waits goes on with its own clocks. -/
def loadHeader (p : Part) (h : List Byte) (stack : List StackEntry) : Part :=
  let rest := p.hold == .no || p.hold == .nap
  { p with late := nbit (natOf h 0 1) 7, pc := dwordOf h 8, active := dwordOf h 16, kc := BitVec.ofNat 16 (natOf h 24 2),
           stack := stack,
           timer := match p.hold with
             | .instr (.sleep _) => natOf h 28 4
             | .instr (.waitn _) => natOf h 76 4
             | _ => if rest then natOf h 28 4 else p.timer,
           hold := if rest then (if natOf h 28 4 = 0 then .no else .nap) else p.hold,
           rep := if nbit (natOf h 0 1) 6 then
               some { start := dwordOf h 32, stop := dwordOf h 40, rem := wordOf h 48, idx := wordOf h 52 }
             else none }

/-- The part's place in the wave's knit episodes from its header: EPC, IMPL and INEP. A part that waits in none reissues its
knit; one that a header places in an episode waits there. -/
def Wave.loadEpisode (w : Wave) (part : Nat) (h : List Byte) : Wave :=
  let pc := dwordOf h 64
  let waits := fun (p : Part) => match p.hold with | .instr (.knit _) => true | .width _ => true | .joined => true | _ => false
  let impl := nbit (natOf h 72 1) 1
  let here := fun (e : Episode) => e.pc = pc && e.impl = impl
  if !nbit (natOf h 72 1) 0 then
    { w with eps := (w.eps.map fun e => { e with parts := e.parts.filter fun i => i != part }).filter fun e => e.parts != [],
             parts := w.parts.upd part fun p => if waits p then { p with hold := .no, stall := 0 } else p }
  else if w.eps.any fun e => here e && e.parts.contains part then w
  else
    let l := (w.eps.map fun e => { e with parts := e.parts.filter fun i => i != part }).filter fun e => e.parts != []
    let kto := 2 ^ ((nth w.cutp part).extractLsb' 8 5).toNat
    { w with parts := w.parts.upd part fun p => if waits p then p else { p with hold := .joined, stall := if impl then 10 else 9 },
             eps := if l.any here then l.map fun e => if here e then { e with parts := e.parts ++ [part] } else e
                    else l ++ [{ pc := pc, impl := impl, parts := [part], timer := kto, need := 0 }] }

/-- R371: the part's state from its frame as it stands; false where the restore fails. -/
def State.loadPart (s : State) (o : Who) : State × Bool :=
  let base := o.frame
  match s.devRead o.asid (base + BitVec.ofNat 64 (128 * o.pr.part)) 8 with
  | (s, .ok h) =>
    if !headerLegal o.p h then (s, false)
    else
      let r := (maskBits o.p.quads).foldl (fun (a : State × Wave × List StackEntry × Bool) q =>
        match a.1.devRead o.asid (base + BitVec.ofNat 64 (4096 + q * quadBlock o.u)) (quadBlock o.u / 16) with
        | (s, .ok b) =>
          let st := if q = o.pr.part then loadStack o.u.valloc (natOf h 26 1) b else a.2.2.1
          (s, loadQuad a.2.1 o.u.valloc q b, st,
            a.2.2.2 && blockLegal o.u.valloc (if q = o.pr.part then natOf h 26 1 else 0) b)
        | (s, _) => (s, a.2.1, a.2.2.1, false)) (s, o.w, [], true)
      if !r.2.2.2 then (r.1, false)
      else
        let p := loadHeader o.p h r.2.2.1
        let s := r.1.modWave o.pr.wave fun _ =>
          ({ r.2.1 with parts := r.2.1.parts.put o.pr.part p }).loadEpisode o.pr.part h
        (s.modGroup o.w.group fun g =>
          { g with token := (List.range o.u.acct).foldl (fun (t : Tbl PartRef) k =>
              if nbit (natOf h 56 1) k then t.put k o.pr
              else if t.get k = some o.pr then t.del k else t) g.token }, true)
  | (s, _) => (s, false)

end Sys2Proof.Machine
end

