-- ==== Sys2Proof/WellFormed.lean ====
section
/-! DEFINITION. Which instruction terms are words of the machine: the field rules of R31, R35, R38 to R50 and of each
chapter's encoding table. A term that breaks one of them is the ILLEGAL_INSTR of decode (R52 step 5). The checks that
depend on the line, on the PC, on the launch's allocation or on FMT are not here: they are made at issue. -/

namespace Sys2Proof

/-- Type code of R37. -/
def Ty.code : Ty → BitVec 5
  | .i32 => 0 | .n32 => 1 | .i64 => 2 | .n64 => 3 | .f32 => 4 | .f64 => 5
  | .f16 => 6 | .bf16 => 7 | .i16 => 8 | .n16 => 9 | .i8 => 10 | .n8 => 11

/-- The type a code names; codes 0x0C to 0x1F name none (R37). -/
def Ty.ofCode (c : BitVec 5) : Option Ty :=
  match c.toNat with
  | 0 => some .i32 | 1 => some .n32 | 2 => some .i64 | 3 => some .n64 | 4 => some .f32 | 5 => some .f64
  | 6 => some .f16 | 7 => some .bf16 | 8 => some .i16 | 9 => some .n16 | 10 => some .i8 | 11 => some .n8
  | _ => none

/-- "Int" of R88. -/
def Ty.isInt : Ty → Bool
  | .i8 | .n8 | .i16 | .n16 | .i32 | .n32 | .i64 | .n64 => true
  | .f32 | .f64 | .f16 | .bf16 => false

/-- "F" of R90. -/
def Ty.isFloat (t : Ty) : Bool := !t.isInt

/-- "W3264" of R88. -/
def Ty.isW3264 : Ty → Bool
  | .i32 | .n32 | .i64 | .n64 => true
  | _ => false

/-- "Bits" of R88, and the width types "32" and "64" of R97. -/
def Ty.isBits : Ty → Bool
  | .i32 | .n32 | .i64 | .n64 | .f32 | .f64 => true
  | _ => false

/-- "H" of R90. -/
def Ty.isHalf : Ty → Bool
  | .f16 | .bf16 => true
  | _ => false

/-- A 64-bit type: its operands and results are even pairs (R43). -/
def Ty.isWide : Ty → Bool
  | .i64 | .n64 | .f64 => true
  | _ => false

/-- The field of R38 that names nothing. -/
def Src.none : Src := { neg := false, blane := 0, lmod := 0, cls := .v, num := 0 }

/-- The destination field that names nothing. -/
def Dst.none : Dst := { cls := .v, num := 0 }

namespace WF

/-- R38 to R41: class and number, lane modifier and broadcast lane. V numbers are checked against the allocation at
issue (R45); S numbers 128 and up, P numbers 8 and up, special 12 and up, constants 92 and up are illegal. -/
def src (x : Src) : Bool :=
  (match x.cls with
   | .v => true
   | .s => x.num.toNat < 128
   | .p => x.num.toNat < 8
   | .special => x.num.toNat < 12
   | .const => x.num.toNat < 92
   | .lit => x.num = 0) &&
  (x.blane = 0 || x.lmod = 3) &&
  (x.lmod = 0 || x.cls = .v || x.cls = .p)

/-- A source outside the VI and X formats: no literal (R40). -/
def srcNoLit (x : Src) : Bool := src x && x.cls != .lit

/-- A value source of a 64-bit type names an even V or S register (R43); a special register is no pair (R46: 10 reads
both halves, another one is zero-extended). -/
def srcWide (w : Bool) (x : Src) : Bool :=
  srcNoLit x && (!w || !(x.cls == .v || x.cls == .s) || x.num.toNat % 2 = 0)

def noSrc (x : Src) : Bool := x == Src.none

/-- R38: a field that selects hardware state: no negate, no lane modifier, no broadcast lane. -/
def plain (x : Src) : Bool := !x.neg && x.lmod = 0 && x.blane = 0

/-- An S register that starts a run of `len` registers, its number a multiple of `mul` (R38, R190). -/
def sRun (mul len : Nat) (x : Src) : Bool :=
  x.cls == .s && plain x && x.num.toNat % mul = 0 && x.num.toNat + len ≤ 128

/-- A V register that starts a run of `len`, a multiple of `mul`. -/
def vRun (mul len : Nat) (x : Src) : Bool :=
  x.cls == .v && x.num.toNat % mul = 0 && x.num.toNat + len ≤ 256

/-- A value of class S or class 4. -/
def sOrConst (x : Src) : Bool := src x && (x.cls == .s || x.cls == .const)

/-- A value of class V, S or class 4. -/
def vsc (x : Src) : Bool := src x && (x.cls == .v || x.cls == .s || x.cls == .const)

/-- R85: a source whose value is the same in every lane. -/
def uniform (x : Src) : Bool :=
  x.cls == .s || x.cls == .const || x.cls == .lit ||
  (x.cls == .special && 2 ≤ x.num.toNat && x.num.toNat ≤ 11)

def dstNum (d : Dst) : Bool :=
  match d.cls with
  | .v => true
  | .s => d.num.toNat < 128
  | .p => d.num.toNat < 8
  | .acc => d.num.toNat < 8
  | .tacc => d.num.toNat < 2

def noDst (d : Dst) : Bool := d == Dst.none

/-- A V destination, a pair when `wide`. -/
def dstV (wide : Bool) (d : Dst) : Bool := d.cls == .v && (!wide || d.num.toNat % 2 = 0)

/-- An S destination, a pair when `wide`. -/
def dstS (wide : Bool) (d : Dst) : Bool :=
  d.cls == .s && d.num.toNat < 128 && (!wide || d.num.toNat % 2 = 0)

def dstP (d : Dst) : Bool := d.cls == .p && d.num.toNat < 8

def acc (d : Dst) : Bool := d.cls == .acc && d.num.toNat < 8

def tacc (d : Dst) : Bool := d.cls == .tacc && d.num.toNat < 2

/-- PRED names P7, negated or not. -/
def p7 (h : Hdr) : Bool := h.pred = 7

def uncounted (h : Hdr) : Bool := h.csel == .uncounted

def counted (h : Hdr) : Bool := h.csel != .uncounted

/-- MINW 7 is illegal (R50). -/
def minw (m : BitVec 3) : Bool := m.toNat < 7

/-! ### Opcodes 0x00 to 0x3B (R82 to R95) -/

/-- Destination of an instruction whose lanes compute apart: V, S when every source is uniform and PRED names P7 (R85),
P where the table allows it. `wide` is the width of a V or S result. -/
def aluDst (wide allowP : Bool) (x : AluOp) (srcs : List Src) : Bool :=
  dstV wide x.dst ||
  (dstS wide x.dst && srcs.all uniform && p7 x.h) ||
  (allowP && dstP x.dst)

/-- Fields that only some instructions use: zero unless named. -/
def aluFields (sub sat rnd abs0 abs1 aux : Bool) (x : AluOp) : Bool :=
  (sub || x.sub = 0) && (sat || !x.sat) && (rnd || x.rnd == .rn) &&
  (abs0 || !x.abs0) && (abs1 || !x.abs1) && (aux || x.aux = 0)

/-- One source A, the others zero. -/
def alu1 (wa : Bool) (x : AluOp) : Bool := srcWide wa x.a && noSrc x.b && noSrc x.c

def alu2 (wa wb : Bool) (x : AluOp) : Bool := srcWide wa x.a && srcWide wb x.b && noSrc x.c

def alu3 (wa wb wc : Bool) (x : AluOp) : Bool := srcWide wa x.a && srcWide wb x.b && srcWide wc x.c

/-- An integer instruction of two operands (R88). -/
def int2 (types : Ty → Bool) (sat : Bool) (x : AluOp) : Bool :=
  types x.ty && alu2 x.ty.isWide x.ty.isWide x && aluDst x.ty.isWide false x [x.a, x.b] &&
  aluFields false sat false false false false x

def int3 (types : Ty → Bool) (sat : Bool) (x : AluOp) : Bool :=
  types x.ty && alu3 x.ty.isWide x.ty.isWide x.ty.isWide x && aluDst x.ty.isWide false x [x.a, x.b, x.c] &&
  aluFields false sat false false false false x

/-- AND, OR, XOR: a P destination is legal. -/
def logic2 (x : AluOp) : Bool :=
  x.ty.isW3264 && alu2 x.ty.isWide x.ty.isWide x && aluDst x.ty.isWide true x [x.a, x.b] &&
  aluFields false false false false false false x

def mov (x : AluOp) : Bool :=
  x.ty.isBits && alu1 x.ty.isWide x && aluDst x.ty.isWide true x [x.a] &&
  aluFields false false false false false false x

/-- SEL's condition is read as 32 bits (R87). -/
def sel (x : AluOp) : Bool :=
  x.ty.isBits && alu3 x.ty.isWide x.ty.isWide false x && aluDst x.ty.isWide false x [x.a, x.b, x.c] &&
  aluFields false false false false false false x

def iabs (x : AluOp) : Bool :=
  (x.ty == .i8 || x.ty == .i16 || x.ty == .i32 || x.ty == .i64) && alu1 x.ty.isWide x &&
  aluDst x.ty.isWide false x [x.a] && aluFields false true false false false false x

def notI (x : AluOp) : Bool :=
  x.ty.isW3264 && alu1 x.ty.isWide x && aluDst x.ty.isWide true x [x.a] &&
  aluFields false false false false false false x

/-- SHL, SHR, ROT and BFX: the count or control B is 32 bits (R87). -/
def shift (x : AluOp) : Bool :=
  x.ty.isW3264 && alu2 x.ty.isWide false x && aluDst x.ty.isWide false x [x.a, x.b] &&
  aluFields false false false false false false x

def bfi (x : AluOp) : Bool :=
  x.ty.isW3264 && alu3 x.ty.isWide x.ty.isWide false x && aluDst x.ty.isWide false x [x.a, x.b, x.c] &&
  aluFields false false false false false false x

/-- POPC and CLZ write one 32-bit register whatever their width (R88). -/
def count1 (x : AluOp) : Bool :=
  x.ty.isW3264 && alu1 x.ty.isWide x && aluDst false false x [x.a] &&
  aluFields false false false false false false x

def brev (x : AluOp) : Bool :=
  x.ty.isW3264 && alu1 x.ty.isWide x && aluDst x.ty.isWide false x [x.a] &&
  aluFields false false false false false false x

def icmp (x : AluOp) : Bool :=
  x.ty.isInt && x.sub.toNat ≤ 5 && alu2 x.ty.isWide x.ty.isWide x && aluDst false true x [x.a, x.b] &&
  aluFields true false false false false false x

/-- The carry in C is of the instruction's width: R87's list of operands that are always 32 bits wide has no such entry. -/
def addc (x : AluOp) : Bool :=
  (x.ty == .n32 || x.ty == .n64) && x.sub.toNat < 8 && alu3 x.ty.isWide x.ty.isWide x.ty.isWide x &&
  aluDst x.ty.isWide false x [x.a, x.b, x.c] && aluFields true false false false false false x

/-- SATI: SUBOP names the source type. -/
def sati (x : AluOp) : Bool :=
  match Ty.ofCode x.sub with
  | none => false
  | some t => t.isInt && x.ty.isInt && alu1 t.isWide x && aluDst x.ty.isWide false x [x.a] &&
      aluFields true false false false false false x

/-- MOVI: any type code, SRC0 and SRC1 zero (R88). -/
def movi (x : LitOp) : Bool :=
  noSrc x.a && noSrc x.b &&
  (dstV x.ty.isWide x.dst || (dstS x.ty.isWide x.dst && p7 x.h))

/-- LEA (R89): A and D are pairs, neither source a literal, IMM32[31:5] zero. -/
def lea (x : LitOp) : Bool :=
  x.ty.isW3264 && srcWide true x.a && srcWide x.ty.isWide x.b && x.imm.toNat < 32 &&
  (dstV true x.dst || (dstS true x.dst && uniform x.a && uniform x.b && p7 x.h))

/-- A floating instruction of two operands that rounds, or (`rnd` false) does not. -/
def flt2 (rnd : Bool) (x : AluOp) : Bool :=
  x.ty.isFloat && alu2 x.ty.isWide x.ty.isWide x && aluDst x.ty.isWide false x [x.a, x.b] &&
  aluFields false true rnd true true false x

def flt3 (rnd : Bool) (x : AluOp) : Bool :=
  x.ty.isFloat && alu3 x.ty.isWide x.ty.isWide x.ty.isWide x && aluDst x.ty.isWide false x [x.a, x.b, x.c] &&
  aluFields false true rnd true true false x

def flt1 (x : AluOp) : Bool :=
  x.ty.isFloat && alu1 x.ty.isWide x && aluDst x.ty.isWide false x [x.a] &&
  aluFields false true true true false false x

def fcmp (x : AluOp) : Bool :=
  x.ty.isFloat && x.sub.toNat ≤ 7 && alu2 x.ty.isWide x.ty.isWide x && aluDst false true x [x.a, x.b] &&
  aluFields true false false true true false x

/-- FCLASS reads B only with a P destination (R91). -/
def fclass (x : AluOp) : Bool :=
  x.ty.isFloat && aluFields false false false true false false x &&
  (if dstP x.dst then alu2 x.ty.isWide false x
   else alu1 x.ty.isWide x && aluDst false false x [x.a])

/-- The element codes of element mode and FPK2 (R92, R93). -/
def elemCode (c : BitVec 5) : Bool := 2 ≤ c.toNat && c.toNat ≤ 9

/-- A source type code of F64, F32, F16 or BF16. -/
def floatCode (c : BitVec 5) : Bool := 4 ≤ c.toNat && c.toNat ≤ 7

/-- FCVT (R92): AUX 0 scalar, AUX 1 element mode. -/
def fcvt (x : AluOp) : Bool :=
  x.ty.isFloat && aluDst x.ty.isWide false x (if x.aux = 0 then [x.a] else [x.a, x.b]) &&
  (if x.aux = 0 then
     floatCode x.sub && alu1 (x.sub = 5) x && aluFields true true true true false false x
   else
     x.aux = 1 && elemCode x.sub && (x.ty == .f32 || x.ty == .f64) && alu2 false false x &&
     aluFields true true true false false true x)

def ftoi (x : AluOp) : Bool :=
  x.ty.isInt && floatCode x.sub && alu1 (x.sub = 5) x && aluDst x.ty.isWide false x [x.a] &&
  aluFields true false true true false false x

def itof (x : AluOp) : Bool :=
  match Ty.ofCode x.sub with
  | none => false
  | some t => t.isInt && x.ty.isFloat && alu1 t.isWide x && aluDst x.ty.isWide false x [x.a] &&
      aluFields true true true false false false x

/-- EXP2 to COS (R94): F32; SQRT also F64 and any rounding; the others accept only RN or DYN. -/
def trans (isSqrt : Bool) (x : AluOp) : Bool :=
  (x.ty == .f32 || (isSqrt && x.ty == .f64)) && (isSqrt || x.rnd == .rn || x.rnd == .dyn) &&
  alu1 x.ty.isWide x && aluDst x.ty.isWide false x [x.a] && aluFields false true true true false false x

/-- FDOT2, HFMA2: packed operands of type H, three sources. -/
def half3 (x : AluOp) : Bool :=
  x.ty.isHalf && alu3 false false false x && aluDst false false x [x.a, x.b, x.c] &&
  aluFields false true true true true false x

def half2 (x : AluOp) : Bool :=
  x.ty.isHalf && alu2 false false x && aluDst false false x [x.a, x.b] &&
  aluFields false true true true true false x

/-- Elements that a word holds for an element code: 2 of 16 bits, 4 of 8 or 6 bits, 8 of 4 bits (R92). -/
def elemCount (c : BitVec 5) : Nat :=
  if c.toNat ≤ 3 then 2 else if c.toNat = 9 then 8 else 4

/-- FPK2 (R93). -/
def fpk2 (x : AluOp) : Bool :=
  x.ty == .f32 && elemCode x.sub && 2 * x.aux.toNat + 1 < elemCount x.sub &&
  (x.sub.toNat ≤ 3 || x.rnd == .rn || x.rnd == .dyn) && alu3 false false false x &&
  aluDst false false x [x.a, x.b, x.c] && aluFields true false true true true true x

/-- FSCALE: B is an I32 exponent. -/
def fscale (x : AluOp) : Bool :=
  x.ty.isFloat && alu2 x.ty.isWide false x && aluDst x.ty.isWide false x [x.a, x.b] &&
  aluFields false true true true false false x

def qdot4 (x : AluOp) : Bool :=
  (x.ty == .i32 || x.ty == .n32) && x.sub.toNat < 4 && alu3 false false false x &&
  aluDst false false x [x.a, x.b, x.c] && aluFields true true false false false false x

/-! ### Opcodes 0x40 to 0x4A (R96, R97, R99) -/

def xl (x : XlOp) : Bool := minw x.minw

def xlA (x : XlOp) : Bool := srcWide x.ty.isWide x.a && noSrc x.b && noSrc x.c

def qswz (x : XlOp) : Bool :=
  xl x && x.sub = 0 && x.ty.isBits && xlA x && dstV x.ty.isWide x.dst

def ballot (x : XlOp) : Bool :=
  xl x && x.sub = 0 && x.ctl = 0 && x.ty == .i32 && xlA x &&
  (dstV true x.dst || (dstS true x.dst && p7 x.h))

/-- VOTE: an S destination is one register whatever the TYPE's width, a DESIGN CHOICE (log entry 70). -/
def vote (x : XlOp) : Bool :=
  xl x && x.sub.toNat ≤ 2 && x.ctl = 0 && x.ty.isBits && xlA x &&
  (dstP x.dst || (dstS false x.dst && p7 x.h))

/-- SHFL: B is an N32 lane operand. -/
def shfl (x : XlOp) : Bool :=
  xl x && x.sub = 0 && x.ctl.toNat ≤ 3 && x.ty.isBits && dstV x.ty.isWide x.dst &&
  srcWide x.ty.isWide x.a && srcNoLit x.b && srcWide x.ty.isWide x.c

def bcast (x : XlOp) : Bool :=
  xl x && x.sub = 0 && x.ctl = 0 && x.ty.isBits && xlA x && dstV x.ty.isWide x.dst

/-- R99: integer operations 0 to 5 on I32 to N64 with no rounding code, float operations 6 to 8 on F32 and F64. -/
def reduceOp (x : XlOp) : Bool :=
  if x.ctl.toNat ≤ 5 then x.ty.isW3264 && x.sub.toNat % 8 = 0
  else x.ctl.toNat ≤ 8 && (x.ty == .f32 || x.ty == .f64) && x.sub.toNat % 8 ≤ 5

def redux (x : XlOp) : Bool :=
  xl x && reduceOp x && x.sub.toNat < 8 && xlA x &&
  (dstV x.ty.isWide x.dst || (dstS x.ty.isWide x.dst && p7 x.h))

def scanx (x : XlOp) : Bool :=
  xl x && reduceOp x && x.sub.toNat < 16 && xlA x && dstV x.ty.isWide x.dst

def matchX (x : XlOp) : Bool :=
  xl x && x.sub = 0 && x.ctl = 0 && x.ty.isBits && xlA x && dstV true x.dst

def readlane (x : XlOp) : Bool :=
  xl x && x.sub = 0 && x.ctl = 0 && x.ty.isBits && srcWide x.ty.isWide x.a && srcNoLit x.b && uniform x.b &&
  noSrc x.c && dstS x.ty.isWide x.dst && p7 x.h

def writelane (x : XlOp) : Bool :=
  xl x && x.sub = 0 && x.ctl = 0 && x.ty.isBits && srcWide x.ty.isWide x.a && uniform x.a && srcNoLit x.b &&
  uniform x.b && noSrc x.c && dstV x.ty.isWide x.dst

/-- XSHUF: MINW must be 6, the key uniform (R100). -/
def xshuf (x : XlOp) : Bool :=
  x.minw = 6 && x.sub = 0 && x.ctl = 0 && x.ty.isBits && srcWide x.ty.isWide x.a && srcNoLit x.b && uniform x.b &&
  noSrc x.c && dstV x.ty.isWide x.dst

/-! ### Opcodes 0x50 to 0x5E (R266) -/

def flow (h : Hdr) : Bool := uncounted h && p7 h

/-- SLOT 5 to 7 is illegal (R49). -/
def target (x : FlowOp) : Bool := x.slot.toNat ≤ 4

def br (x : FlowOp) : Bool :=
  flow x.h && target x && noDst x.link && noSrc x.cond && !x.nocut && x.hint = 0

def brc (x : FlowOp) : Bool :=
  flow x.h && target x && noDst x.link && srcNoLit x.cond && x.cond.cls != .special && x.hint.toNat ≤ 2

def call (x : FlowOp) : Bool :=
  flow x.h && target x && dstS true x.link && noSrc x.cond && !x.nocut && x.hint = 0

def rep (x : FlowOp) : Bool :=
  flow x.h && target x && noDst x.link && sOrConst x.cond && !x.nocut && x.hint = 0

def jump (x : JumpOp) : Bool := flow x.h && sRun 2 2 x.a

def nullary (x : CtlOp) : Bool :=
  flow x.h && noDst x.dst && noSrc x.a && noSrc x.b && x.imm = 0

/-- EXIT takes any predicate. -/
def exit (x : CtlOp) : Bool :=
  uncounted x.h && noDst x.dst && noSrc x.a && noSrc x.b && x.imm = 0

/-- CUTCTL's IMM32 (R271): value in [7:0], mask in [15:8]. -/
def cutctl (x : CtlOp) : Bool :=
  flow x.h && dstS false x.dst && noSrc x.a && noSrc x.b &&
  x.imm.extractLsb' 16 16 = 0 && x.imm.extractLsb' 3 1 = 0 && x.imm.extractLsb' 11 1 = 0 &&
  (x.imm.extractLsb' 12 4 = 0 ||
    (x.imm.extractLsb' 12 4 = 15 && 4 ≤ (x.imm.extractLsb' 4 4).toNat))

def waitn (x : CtlOp) : Bool :=
  flow x.h && noDst x.dst && sOrConst x.a && noSrc x.b && x.imm.toNat ≤ 11

/-- A source of class S, 4 or 5. -/
def sConstLit (x : Src) : Bool := src x && (x.cls == .s || x.cls == .const || x.cls == .lit)

/-- IMM32 belongs to the literal sources and is zero without one. -/
def litImm (srcs : List Src) (imm : Word) : Bool := srcs.any (·.cls == .lit) || imm = 0

def setfmt (x : CtlOp) : Bool :=
  flow x.h && noDst x.dst && sConstLit x.a && sConstLit x.b && litImm [x.a, x.b] x.imm

/-- GETST (R275): selector 0 to 9, counter number only with selector 9. -/
def getst (x : CtlOp) : Bool :=
  flow x.h && dstS false x.dst && noSrc x.a && noSrc x.b && x.imm.toNat < 256 &&
  (if x.imm.toNat % 16 = 9 then x.imm.toNat / 16 ≤ 11 else x.imm.toNat < 9)

def sleep (x : CtlOp) : Bool :=
  flow x.h && noDst x.dst && sConstLit x.a && noSrc x.b && litImm [x.a] x.imm

/-! ### Memory (R187 to R190, R196, R231, R245) -/

/-- R48: the base is a V or an S pair, with nothing modified. -/
def addr (x : Src) : Bool := (x.cls == .v || (x.cls == .s && x.num.toNat < 128)) && plain x && x.num.toNat % 2 = 0

/-- Registers that one access of a SIZE/TYPE code fills (R190). -/
def sizeRegs (c : BitVec 4) : Nat :=
  match c.toNat with
  | 5 => 2 | 9 => 4 | 10 => 8 | 11 => 16 | _ => 1

/-- A data register of a run of `n` registers, its number a multiple of `n`. -/
def dataRun (n : Nat) (v s : Bool) (d : Dst) : Bool :=
  d.num.toNat % n = 0 &&
  ((v && d.cls == .v && d.num.toNat + n ≤ 256) || (s && d.cls == .s && d.num.toNat + n ≤ 128))

def hints (x : MemOp) : Bool := x.scope.toNat ≤ 5 && x.evict.toNat ≤ 5

/-- ORD 1 or 2 with SPACE 3 or 4 is illegal (R187). -/
def ordSpace (x : MemOp) : Bool := x.ord = 0 || x.space.toNat < 3

def load (x : MemOp) : Bool := hints x && x.ord.toNat ≤ 1 && ordSpace x && addr x.addr

def ld (x : MemOp) : Bool :=
  load x && x.szty.toNat ≤ 7 && x.space.toNat ≤ 4 && dataRun (sizeRegs x.szty) true false x.reg

def store (x : MemOp) : Bool :=
  hints x && (x.ord = 0 || x.ord = 2) && ordSpace x && addr x.addr && x.space.toNat ≤ 3

def st (x : MemOp) : Bool :=
  store x && x.szty.toNat ≤ 7 && dataRun (sizeRegs x.szty) true true x.reg

def wide (c : BitVec 4) : Bool := 9 ≤ c.toNat && c.toNat ≤ 11

def lds (x : MemOp) : Bool :=
  load x && p7 x.h && x.addr.cls == .s && x.space.toNat ≤ 4 && x.space ≠ 2 &&
  (x.szty = 4 || x.szty = 5 || wide x.szty) && dataRun (sizeRegs x.szty) false true x.reg

def ldx (x : MemOp) : Bool :=
  load x && x.space.toNat ≤ 4 && wide x.szty && dataRun (sizeRegs x.szty) true false x.reg

def stx (x : MemOp) : Bool :=
  store x && wide x.szty && dataRun (sizeRegs x.szty) true false x.reg

def ldw (x : MemOp) : Bool :=
  hints x && x.ord = 0 && addr x.addr && (x.space = 0 || x.space = 3 || x.space = 4) &&
  (x.szty = 4 || x.szty = 5 || x.szty = 9) && x.reg.cls == .v && counted x.h

def prf (x : MemOp) : Bool :=
  hints x && x.ord = 0 && addr x.addr && (x.space = 0 || x.space = 4) && x.szty = 0 && noDst x.reg

/-- INVL and WBL by lines; ORD, SCOPE and EVICT zero (R201, R202). -/
def lines (spaceB : BitVec 3) (x : MemOp) : Bool :=
  x.ord = 0 && x.scope = 0 && x.evict = 0 && x.szty = 0 && noDst x.reg && addr x.addr &&
  (x.space = 0 || x.space = spaceB)

def linesAll (space : BitVec 3 → Bool) (x : MemOp) : Bool :=
  x.ord = 0 && x.scope = 0 && x.evict = 0 && x.szty = 1 && noDst x.reg && noSrc x.addr && x.off = 0 && p7 x.h &&
  space x.space

def invl (x : MemOp) : Bool := lines 4 x
def invlAll (x : MemOp) : Bool := linesAll (fun s => s = 0 || s = 4) x
def wbl (x : MemOp) : Bool := lines 2 x
def wblAll (x : MemOp) : Bool := linesAll (fun s => s = 2) x

/-- FENCE (R203). -/
def fence (x : CtlOp) : Bool :=
  flow x.h && noDst x.dst && noSrc x.a && noSrc x.b && x.imm.toNat < 32 && x.imm.toNat % 4 ≠ 0 && x.imm.toNat / 4 ≤ 5

/-- FENCEX (R223). -/
def fencex (x : CtlOp) : Bool :=
  flow x.h && noDst x.dst && noSrc x.a && noSrc x.b && x.imm.extractLsb' 17 15 = 0 && x.imm.extractLsb' 11 6 ≠ 0 &&
  x.imm.extractLsb' 5 6 ≠ 0 && (x.imm.extractLsb' 2 3).toNat ≤ 5 && x.imm.extractLsb' 0 2 = 0

/-- MONW (R204): SIZE/TYPE[3] makes the comparand a pair. -/
def monw (x : MemOp) : Bool :=
  flow x.h && x.ord.toNat ≤ 1 && x.scope.toNat ≤ 5 && x.evict = 0 && x.space.toNat ≤ 1 && x.addr.cls == .s &&
  addr x.addr && dataRun (if x.szty.toNat < 8 then 1 else 2) false true x.reg

/-- Bytes of an atomic operation code (R229). -/
def atomWide (c : BitVec 4) : Bool := c = 1 || c = 6 || c = 7 || c = 12 || c = 15

def atomSpace (x : MemOp) : Bool := x.space = 0 || x.space = 1 || x.space = 3

def atom (x : MemOp) : Bool :=
  hints x && addr x.addr && atomSpace x && dataRun (if atomWide x.szty then 2 else 1) true false x.reg

def atomc (x : MemOp) : Bool :=
  hints x && addr x.addr && atomSpace x && x.szty.toNat ≤ 1 && dataRun (if x.szty = 1 then 4 else 2) true false x.reg

def redCode (c : BitVec 4) : Bool := c ≠ 11 && c ≠ 12

def red (x : MemOp) : Bool :=
  hints x && addr x.addr && atomSpace x && (x.ord = 0 || x.ord = 2) && redCode x.szty &&
  dataRun (if atomWide x.szty then 2 else 1) true true x.reg

def multi (x : MemOp) : Bool :=
  (x.ord = 0 || x.ord = 2) && (x.scope = 4 || x.scope = 5) && x.evict.toNat ≤ 5 && x.space = 0 && addr x.addr

def mcst (x : MemOp) : Bool :=
  multi x && (x.szty = 4 || x.szty = 5 || wide x.szty) && dataRun (sizeRegs x.szty) true true x.reg

def mred (x : MemOp) : Bool :=
  multi x && redCode x.szty && dataRun (if atomWide x.szty then 2 else 1) true true x.reg

/-! ### Copies, weight store (R238, R244, R150, R151) -/

/-- BCOPY, GCOPY, SCOPY: `masked` for the two that read a row mask. -/
def copy (masked : Bool) (x : EngOp) : Bool :=
  minw x.minw && p7 x.h && dstS false x.dst && sRun 8 8 x.a &&
  (if masked then sRun 2 2 x.c else noSrc x.c) &&
  (x.mod.extractLsb' 2 3).toNat ≤ 5 && x.mod.extractLsb' 8 5 = 0 &&
  (if x.mod.extractLsb' 1 1 = 0 then sRun 1 1 x.b && x.mod.extractLsb' 5 3 = 0
   else sRun 4 4 x.b && 2 ≤ (x.mod.extractLsb' 5 3).toNat && (x.mod.extractLsb' 5 3).toNat ≤ 5)

def cpoll (x : EngOp) : Bool :=
  minw x.minw && flow x.h && dstS false x.dst && sRun 1 1 x.a && noSrc x.b && noSrc x.c && x.mod = 0

def wswrite (x : EngOp) : Bool :=
  minw x.minw && p7 x.h && dstS false x.dst && sRun 2 2 x.a && x.b.cls == .s && src x.b && noSrc x.c && x.mod = 0

def wswin (x : EngOp) : Bool :=
  minw x.minw && flow x.h && dstS true x.dst && sOrConst x.a && noSrc x.b && noSrc x.c && x.mod = 0

/-! ### Fine matrix unit (R117) -/

def mtoken (x : EngOp) : Bool :=
  minw x.minw && flow x.h && acc x.dst && noSrc x.a && noSrc x.b && noSrc x.c && x.mod = 0

def mma (x : EngOp) : Bool :=
  minw x.minw && p7 x.h && acc x.dst && sRun 8 8 x.a && noSrc x.b && noSrc x.c && x.mod.extractLsb' 4 9 = 0

/-- MOD[4:3] names the unit: 0 FMU, 1 TA. -/
def mfence (x : EngOp) : Bool :=
  minw x.minw && flow x.h && dstS false x.dst && noSrc x.a && noSrc x.b && noSrc x.c && x.mod.toNat ≤ 1

def mwait (x : EngOp) : Bool :=
  minw x.minw && flow x.h && noDst x.dst && src x.a && (x.a.cls == .s || x.a.cls == .const || x.a.cls == .special) &&
  noSrc x.b && noSrc x.c && x.mod.toNat ≤ 1

/-- TYPE of MRD and MWR: N32 or N64, in MOD[10:6]. -/
def cellTy (m : BitVec 13) : Bool := m.extractLsb' 3 5 = 1 || m.extractLsb' 3 5 = 3
def cellWide (m : BitVec 13) : Bool := m.extractLsb' 3 5 = 3

/-- MRD: the tile number n in MOD[5:3], even with N64. -/
def mrd (x : EngOp) : Bool :=
  minw x.minw && cellTy x.mod && x.mod.extractLsb' 8 5 = 0 && vsc x.a && noSrc x.b && noSrc x.c &&
  dstV (cellWide x.mod) x.dst && (!cellWide x.mod || (x.mod.extractLsb' 0 3).toNat % 2 = 0)

def mwr (x : EngOp) : Bool :=
  minw x.minw && cellTy x.mod && x.mod.extractLsb' 8 5 = 0 && x.mod.extractLsb' 0 3 = 0 && vsc x.a && vsc x.b &&
  srcWide (cellWide x.mod) x.b && noSrc x.c && acc x.dst && (!cellWide x.mod || x.dst.num.toNat % 2 = 0)

/-- MDRAIN: output code MOD[6:3], RND MOD[9:7], G MOD[10], Z MOD[11]. -/
def mdrain (x : EngOp) : Bool :=
  minw x.minw && p7 x.h && acc x.dst && sRun 2 2 x.a && x.b.cls == .s && src x.b && noSrc x.c &&
  (x.mod.extractLsb' 0 4).toNat ≤ 6 && (x.mod.extractLsb' 4 3).toNat ≤ 5 && x.mod.extractLsb' 9 4 = 0 &&
  ((x.mod.extractLsb' 0 4).toNat < 4 || x.mod.extractLsb' 4 3 = 0 || x.mod.extractLsb' 4 3 = 5)

/-! ### Ternary array (R142) -/

/-- TWLD: G MOD[3], plane MOD[4]. -/
def twld (x : EngOp) : Bool :=
  minw x.minw && p7 x.h && noDst x.dst && sRun 2 2 x.a && noSrc x.b && noSrc x.c && x.mod.toNat < 4

def tmac (x : EngOp) : Bool :=
  minw x.minw && p7 x.h && tacc x.dst && sRun 2 2 x.a && noSrc x.b && noSrc x.c && (x.mod = 0 || x.mod = 2)

/-- TDRAIN: output MOD[4:3], RND MOD[7:5], G MOD[8], Z MOD[9]. -/
def tdrain (x : EngOp) : Bool :=
  minw x.minw && p7 x.h && tacc x.dst && sRun 8 8 x.a && noSrc x.b && noSrc x.c && x.mod.toNat < 128 &&
  x.mod.extractLsb' 0 2 ≠ 3 && (x.mod.extractLsb' 2 3).toNat ≤ 5 &&
  (x.mod.extractLsb' 0 2 ≠ 2 || x.mod.extractLsb' 2 3 = 0 || x.mod.extractLsb' 2 3 = 5)

def tzero (x : EngOp) : Bool :=
  minw x.minw && p7 x.h && tacc x.dst && noSrc x.a && noSrc x.b && noSrc x.c && x.mod = 0

/-- TZERO.Wp: target MOD[3] is 1, plane MOD[4]. -/
def tzeroPlane (x : EngOp) : Bool :=
  minw x.minw && p7 x.h && noDst x.dst && noSrc x.a && noSrc x.b && noSrc x.c && (x.mod = 1 || x.mod = 3)

def tpack (x : EngOp) : Bool :=
  x.minw = 0 && dstV false x.dst && vsc x.a && vsc x.b && vsc x.c && x.mod.toNat < 4

def tunpk (x : EngOp) : Bool :=
  x.minw = 0 && dstV true x.dst && vsc x.a && vsc x.b && noSrc x.c && x.mod.toNat < 2

/-- TQNT: TYPE F32, F16 or BF16 in MOD[7:3]. -/
def tqnt (x : EngOp) : Bool :=
  x.minw = 0 && dstV false x.dst && vsc x.a && vsc x.b && noSrc x.c && (x.mod = 4 || x.mod = 6 || x.mod = 7)

def tstat (x : EngOp) : Bool :=
  minw x.minw && flow x.h && dstS false x.dst && noSrc x.a && noSrc x.b && noSrc x.c && x.mod.toNat ≤ 4

/-! ### Graphics (R170) -/

/-- Destination of a sampler read: four V registers, two with H (MOD[3]). -/
def sampDst (h : Bool) (d : Dst) : Bool :=
  d.cls == .v && d.num.toNat % (if h then 2 else 4) = 0 && d.num.toNat + (if h then 2 else 4) ≤ 256

def modH (x : EngOp) : Bool := x.mod.getLsbD 0

/-- SMP, SMPL, SMPG with `n` coordinate registers. -/
def smp (n : Nat) (x : EngOp) : Bool :=
  minw x.minw && counted x.h && sampDst (modH x) x.dst && vRun 1 n x.a && src x.a && sRun 8 8 x.b && sRun 1 1 x.c &&
  x.mod.toNat ≤ 1

/-- A run of V registers is read as it stands: no negate and no lane modifier are given for it. -/
def vPlain (mul n : Nat) (x : Src) : Bool := vRun mul n x && plain x

def sampler (n : Nat) (x : EngOp) : Bool := smp n x && plain x.a

/-- GATH4: channel in MOD[5:4]. -/
def gath4 (x : EngOp) : Bool :=
  minw x.minw && counted x.h && sampDst false x.dst && vPlain 1 3 x.a && sRun 8 8 x.b && sRun 1 1 x.c &&
  x.mod.toNat < 8 && x.mod.toNat % 2 = 0

def txld (x : EngOp) : Bool :=
  minw x.minw && counted x.h && sampDst (modH x) x.dst && vPlain 1 3 x.a && sRun 8 8 x.b && noSrc x.c &&
  x.mod.toNat ≤ 1

def ldec (x : EngOp) : Bool :=
  minw x.minw && counted x.h && dstV false x.dst && vPlain 4 4 x.a && vsc x.b && sRun 2 2 x.c && x.mod = 0

/-- EDGE: k at most 116; lane position of class V, S, special or constant. -/
def edge (x : EngOp) : Bool :=
  x.minw = 0 && x.mod = 0 && (dstV false x.dst || dstP x.dst) && x.a.cls == .s && plain x.a && x.a.num.toNat ≤ 116 &&
  srcNoLit x.b && x.b.cls != .p && noSrc x.c

def tileq (x : EngOp) : Bool :=
  x.minw = 6 && flow x.h && x.dst.cls == .s && x.dst.num.toNat % 16 = 0 && x.dst.num.toNat + 16 ≤ 128 &&
  noSrc x.a && noSrc x.b && noSrc x.c && x.mod = 0

def emit (x : EngOp) : Bool :=
  minw x.minw && noDst x.dst && vPlain 1 6 x.a && vsc x.b && noSrc x.c && x.mod.toNat ≤ 1

def rtrace (x : EngOp) : Bool :=
  minw x.minw && counted x.h && noDst x.dst && vPlain 8 8 x.a && sRun 2 2 x.b && noSrc x.c && x.mod.toNat ≤ 1

def rhit (x : EngOp) : Bool :=
  minw x.minw && x.dst.cls == .v && x.dst.num.toNat % 8 = 0 && noSrc x.a && noSrc x.b && noSrc x.c && x.mod = 0

def imgst (x : EngOp) : Bool :=
  minw x.minw && noDst x.dst && vPlain 1 3 x.a && vPlain (if modH x then 2 else 4) (if modH x then 2 else 4) x.b &&
  sRun 8 8 x.c && x.mod.toNat ≤ 1

def rninv (x : CtlOp) : Bool := flow x.h && noDst x.dst && sRun 2 2 x.a && noSrc x.b && x.imm = 0

def rninvAll (x : CtlOp) : Bool := flow x.h && noDst x.dst && noSrc x.a && noSrc x.b && x.imm = 1

/-! ### Synchronisation (R317): MINW in IMM32[18:16] -/

/-- PRED P7, CSEL 00, MINW not 7, IMM32[31:19] zero and IMM32[15:0] below `lim`. -/
def sync (lim : Nat) (x : CtlOp) : Bool :=
  flow x.h && x.imm.extractLsb' 19 13 = 0 && (x.imm.extractLsb' 16 3).toNat < 7 && (x.imm.extractLsb' 0 16).toNat < lim

/-- A barrier address or another selecting S register (R38). -/
def sSel (x : Src) : Bool := sRun 1 1 x

def bari (x : CtlOp) : Bool := sync 1 x && noDst x.dst && sSel x.a && sOrConst x.b

def bariGroup (x : CtlOp) : Bool :=
  sync 2 x && x.imm.getLsbD 0 && noDst x.dst && sSel x.a && noSrc x.b

def arrive (x : CtlOp) : Bool := sync 1 x && dstS false x.dst && sSel x.a && noSrc x.b

def arrdrop (x : CtlOp) : Bool := sync 1 x && noDst x.dst && sSel x.a && noSrc x.b

def barVal (x : CtlOp) : Bool := sync 1 x && noDst x.dst && sSel x.a && sOrConst x.b

def qpush (x : CtlOp) : Bool := sync 16 x && noDst x.dst && sOrConst x.a && noSrc x.b

def qpop (x : CtlOp) : Bool := sync 16 x && dstS false x.dst && noSrc x.a && noSrc x.b

def qtry (x : CtlOp) : Bool := sync 16 x && dstS true x.dst && noSrc x.a && noSrc x.b

def qallow (x : CtlOp) : Bool := sync 16 x && noDst x.dst && sOrConst x.a && sOrConst x.b

/-- QALLOW.INIT: IMM32[4] set. -/
def qallowInit (x : CtlOp) : Bool :=
  sync 32 x && x.imm.getLsbD 4 && noDst x.dst && sSel x.a && sOrConst x.b

def minw6 (x : CtlOp) : Bool := x.imm.extractLsb' 16 3 = 6

def gbar (x : CtlOp) : Bool := sync 1 x && minw6 x && noDst x.dst && noSrc x.a && noSrc x.b

def work (x : CtlOp) : Bool := sync 1 x && dstS false x.dst && sRun 2 2 x.a && noSrc x.b

/-- CANCEL: level in IMM32[1:0]. -/
def cancel (lv : Nat) (x : CtlOp) : Bool :=
  sync 4 x && (x.imm.extractLsb' 0 16).toNat = lv && noDst x.dst && noSrc x.b &&
  (if lv = 0 then sOrConst x.a else noSrc x.a)

/-- CCWAIT: Sa names a completion counter block, so it is a selecting field. -/
def ccwait (x : CtlOp) : Bool :=
  sync 1 x && dstS true x.dst && sRun 2 2 x.a && x.b.cls == .s && src x.b && x.b.num.toNat % 2 = 0

def rosb (x : CtlOp) : Bool := sync 1 x && minw6 x && noDst x.dst && sRun 16 16 x.a && noSrc x.b

def rose (x : CtlOp) : Bool := sync 1 x && minw6 x && noDst x.dst && noSrc x.a && noSrc x.b

/-! ### System (R375, R385, R345, R399, R406) -/

/-- TRAP: any predicate; A is S, class 4 or nothing; IMM32[31:16] zero. -/
def trap (x : CtlOp) : Bool :=
  uncounted x.h && noDst x.dst && (noSrc x.a || sOrConst x.a) && noSrc x.b && x.imm.toNat < 65536

def brk (x : CtlOp) : Bool := flow x.h && noDst x.dst && noSrc x.a && noSrc x.b && x.imm.toNat < 65536

/-- RETT: mode in IMM32[1:0]; Sp only with mode 2. -/
def rett (mode : Nat) (x : CtlOp) : Bool :=
  flow x.h && dstS false x.dst && x.a.cls == .s && src x.a && x.imm.toNat = mode &&
  (if mode = 2 then sRun 2 2 x.b else noSrc x.b)

/-- RDSR: number in IMM32[15:0], B64 in [16]. -/
def rdsr (x : CtlOp) : Bool :=
  flow x.h && noSrc x.a && noSrc x.b && x.imm.toNat < 131072 && dstS (x.imm.getLsbD 16) x.dst &&
  (!x.imm.getLsbD 16 || x.imm.toNat % 2 = 0)

def wrsr (x : CtlOp) : Bool := flow x.h && noDst x.dst && sOrConst x.a && noSrc x.b && x.imm.toNat < 65536

def halt (op : Nat) (x : CtlOp) : Bool :=
  flow x.h && dstS false x.dst && noSrc x.b && x.imm.toNat = op && (if op = 3 then noSrc x.a else sOrConst x.a)

/-- TLBINV: form in IMM32[1:0]. -/
def tlbinv (form : Nat) (x : CtlOp) : Bool :=
  flow x.h && noDst x.dst && x.imm.toNat = form && (if form = 0 then noSrc x.a else sOrConst x.a) &&
  (if form = 2 then sRun 2 2 x.b else noSrc x.b)

/-- ASSAY: op in IMM32[1:0], tag in [15:8] with PUT. -/
def assayPut (x : CtlOp) : Bool :=
  flow x.h && noDst x.dst && sOrConst x.a && noSrc x.b && x.imm.extractLsb' 16 16 = 0 && x.imm.extractLsb' 0 8 = 0

def assay (op : Nat) (x : CtlOp) : Bool := flow x.h && noDst x.dst && noSrc x.a && noSrc x.b && x.imm.toNat = op

def mark (x : CtlOp) : Bool := flow x.h && noDst x.dst && sOrConst x.a && noSrc x.b && x.imm.toNat < 256

/-- LOGCTL: value in [4:0], mask in [12:8]. -/
def logctl (x : CtlOp) : Bool :=
  flow x.h && dstS false x.dst && sOrConst x.a && noSrc x.b && x.imm.extractLsb' 13 19 = 0 && x.imm.extractLsb' 5 3 = 0

def seqrd (s : Nat) (x : CtlOp) : Bool :=
  flow x.h && dstS true x.dst && noSrc x.a && noSrc x.b && x.imm.toNat = s

def dvreq (x : CtlOp) : Bool :=
  flow x.h && dstS false x.dst && sOrConst x.a && sOrConst x.b && x.imm = 0

end WF

/-- R52 step 5, R35: the instruction is one that a word of the machine encodes. An event is no word; it has no field rule. -/
def Instr.wf (i : Instr) : Bool :=
  match i with
  | .nop _ => true
  | .mov x => WF.mov x
  | .movi x => WF.movi x
  | .sel x => WF.sel x
  | .iadd x => WF.int2 Ty.isInt true x
  | .isub x => WF.int2 Ty.isInt true x
  | .imul x => WF.int2 Ty.isInt true x
  | .imulh x => WF.int2 Ty.isW3264 false x
  | .imad x => WF.int3 Ty.isInt true x
  | .imin x => WF.int2 Ty.isInt false x
  | .imax x => WF.int2 Ty.isInt false x
  | .iabs x => WF.iabs x
  | .and x => WF.logic2 x
  | .or x => WF.logic2 x
  | .xor x => WF.logic2 x
  | .not x => WF.notI x
  | .shl x => WF.shift x
  | .shr x => WF.shift x
  | .rot x => WF.shift x
  | .bfx x => WF.shift x
  | .bfi x => WF.bfi x
  | .popc x => WF.count1 x
  | .clz x => WF.count1 x
  | .brev x => WF.brev x
  | .icmp x => WF.icmp x
  | .addc x => WF.addc x
  | .lea x => WF.lea x
  | .iadd3 x => WF.int3 Ty.isInt true x
  | .sati x => WF.sati x
  | .fadd x => WF.flt2 true x
  | .fsub x => WF.flt2 true x
  | .fmul x => WF.flt2 true x
  | .ffma x => WF.flt3 true x
  | .fmin x => WF.flt2 false x
  | .fmax x => WF.flt2 false x
  | .fcmp x => WF.fcmp x
  | .fclass x => WF.fclass x
  | .frnd x => WF.flt1 x
  | .fcvt x => WF.fcvt x
  | .ftoi x => WF.ftoi x
  | .itof x => WF.itof x
  | .exp2 x => WF.trans false x
  | .log2 x => WF.trans false x
  | .rcp x => WF.trans false x
  | .rsq x => WF.trans false x
  | .sqrt x => WF.trans true x
  | .sin x => WF.trans false x
  | .cos x => WF.trans false x
  | .fdot2 x => WF.half3 x
  | .fpk2 x => WF.fpk2 x
  | .fscale x => WF.fscale x
  | .fmed3 x => WF.flt3 false x
  | .ffrac x => WF.flt1 x
  | .hfma2 x => WF.half3 x
  | .hadd2 x => WF.half2 x
  | .hmul2 x => WF.half2 x
  | .qdot4 x => WF.qdot4 x
  | .qswz x => WF.qswz x
  | .ballot x => WF.ballot x
  | .vote x => WF.vote x
  | .shfl x => WF.shfl x
  | .bcast x => WF.bcast x
  | .redux x => WF.redux x
  | .scanx x => WF.scanx x
  | .match x => WF.matchX x
  | .readlane x => WF.readlane x
  | .writelane x => WF.writelane x
  | .xshuf x => WF.xshuf x
  | .xshufMatch _ _ => true
  | .xshufTimeout _ => true
  | .br x => WF.br x
  | .brc x => WF.brc x
  | .stackSpillDone _ => true
  | .brx x => WF.jump x
  | .call x => WF.call x
  | .ret x => WF.jump x
  | .knit x => WF.nullary x
  | .knitFuse _ _ => true
  | .knitTimeout _ _ => true
  | .implicitKnitFuse _ _ => true
  | .implicitKnitTimeout _ _ => true
  | .cutctl x => WF.cutctl x
  | .rep x => WF.rep x
  | .lpin x => WF.rep x
  | .exit x => WF.exit x
  | .lastExitResume _ => true
  | .waitn x => WF.waitn x
  | .waitnRelease _ => true
  | .missCut _ => true
  | .lineWaitRelease _ => true
  | .lineRefetch _ => true
  | .yield x => WF.nullary x
  | .setfmt x => WF.setfmt x
  | .getst x => WF.getst x
  | .sleep x => WF.sleep x
  | .sleepExpiry _ => true
  | .ld x => WF.ld x
  | .st x => WF.st x
  | .lds x => WF.lds x
  | .ldx x => WF.ldx x
  | .stx x => WF.stx x
  | .ldw x => WF.ldw x
  | .prf x => WF.prf x
  | .invl x => WF.invl x
  | .invlAll x => WF.invlAll x
  | .wbl x => WF.wbl x
  | .wblAll x => WF.wblAll x
  | .fence x => WF.fence x
  | .fenceWaitDone _ => true
  | .fencex x => WF.fencex x
  | .fencexWaitDone _ => true
  | .monw x => WF.monw x
  | .monwWake _ => true
  | .monwPollExpiry _ => true
  | .atom x => WF.atom x
  | .atomc x => WF.atomc x
  | .red x => WF.red x
  | .atomicStep _ _ => true
  | .fixedOrderResolve _ => true
  | .bcopy x => WF.copy false x
  | .gcopy x => WF.copy true x
  | .scopy x => WF.copy true x
  | .copyWritePerformed _ _ => true
  | .copyComplete _ => true
  | .wswrite x => WF.wswrite x
  | .wswriteComplete _ => true
  | .wswin x => WF.wswin x
  | .wsWindowEnd _ _ => true
  | .cpoll x => WF.cpoll x
  | .mcst x => WF.mcst x
  | .mred x => WF.mred x
  | .mcstDeliveryPerformed _ _ _ => true
  | .macq x => WF.mtoken x
  | .macqGrant _ => true
  | .macqTimeout _ => true
  | .mrel x => WF.mtoken x
  | .mma x => WF.mma x
  | .mmas x => WF.mma x
  | .fmuOperandsConsumed _ _ => true
  | .fmuOpComplete _ _ => true
  | .mfence x => WF.mfence x
  | .mwait x => WF.mwait x
  | .mwaitRelease _ => true
  | .mrd x => WF.mrd x
  | .mwr x => WF.mwr x
  | .mdrain x => WF.mdrain x
  | .twld x => WF.twld x
  | .tmac x => WF.tmac x
  | .tdrain x => WF.tdrain x
  | .tzero x => WF.tzero x
  | .tzeroPlane x => WF.tzeroPlane x
  | .taOperandsConsumed _ _ => true
  | .taOpStart _ => true
  | .twldComplete _ => true
  | .tmacComplete _ => true
  | .tdrainComplete _ _ => true
  | .tzeroComplete _ => true
  | .tpack x => WF.tpack x
  | .tunpk x => WF.tunpk x
  | .tqnt x => WF.tqnt x
  | .tstat x => WF.tstat x
  | .smp x => WF.sampler 2 x
  | .smpl x => WF.sampler 3 x
  | .smpg x => WF.sampler 6 x
  | .gath4 x => WF.gath4 x
  | .txld x => WF.txld x
  | .ldec x => WF.ldec x
  | .samplerComplete _ _ => true
  | .edge x => WF.edge x
  | .tileq x => WF.tileq x
  | .tileRecordHandout _ _ => true
  | .emit x => WF.emit x
  | .rasterAccept _ => true
  | .rtrace x => WF.rtrace x
  | .rtraceComplete _ _ => true
  | .rhit x => WF.rhit x
  | .imgst x => WF.imgst x
  | .imgstComplete _ _ => true
  | .rninv x => WF.rninv x
  | .rninvAll x => WF.rninvAll x
  | .bari x => WF.bari x
  | .bariGroup x => WF.bariGroup x
  | .arrive x => WF.arrive x
  | .arrdrop x => WF.arrdrop x
  | .bwait x => WF.barVal x
  | .bwaitPass _ => true
  | .bexpect x => WF.barVal x
  | .qpush x => WF.qpush x
  | .qpushResume _ => true
  | .qpop x => WF.qpop x
  | .qpopResume _ => true
  | .qtry x => WF.qtry x
  | .qallow x => WF.qallow x
  | .qallowInit x => WF.qallowInit x
  | .gbar x => WF.gbar x
  | .gbarComplete _ => true
  | .launch x => WF.work x
  | .grun x => WF.work x
  | .cancelHandle x => WF.cancel 0 x
  | .cancelLaunch x => WF.cancel 1 x
  | .cancelPhase x => WF.cancel 2 x
  | .cancelJob x => WF.cancel 3 x
  | .ccwait x => WF.ccwait x
  | .ccwaitWake _ => true
  | .ccwaitPollExpiry _ => true
  | .rosb x => WF.rosb x
  | .rosbAdmit _ => true
  | .rose x => WF.rose x
  | .trap x => WF.trap x
  | .brk x => WF.brk x
  | .rettReissue x => WF.rett 0 x
  | .rettSkip x => WF.rett 1 x
  | .rettPc x => WF.rett 2 x
  | .rettEnd x => WF.rett 3 x
  | .rdsr x => WF.rdsr x
  | .wrsr x => WF.wrsr x
  | .bootctlReadyWrite => true
  | .tlbinvAll x => WF.tlbinv 0 x
  | .tlbinvAsid x => WF.tlbinv 1 x
  | .tlbinvPage x => WF.tlbinv 2 x
  | .assayPut x => WF.assayPut x
  | .assayFrz x => WF.assay 1 x
  | .assayRun x => WF.assay 2 x
  | .mark x => WF.mark x
  | .logctl x => WF.logctl x
  | .seqrdTime x => WF.seqrd 0 x
  | .seqrdDseq x => WF.seqrd 1 x
  | .seqrdOrd x => WF.seqrd 2 x
  | .dvreq x => WF.dvreq x
  | .haltSave x => WF.halt 0 x
  | .haltGo x => WF.halt 1 x
  | .haltReset x => WF.halt 2 x
  | .haltDevice x => WF.halt 3 x
  | .contextReset _ => true
  | .loadComplete _ _ => true
  | .storePerformed _ _ => true
  | .ldwComplete _ _ => true
  | .prefetchPlaced _ _ => true
  | .l1Evict _ _ => true
  | .pageWalk _ _ _ => true
  | .fltdoneWrite _ => true
  | .partRestore _ => true
  | .faultBufferDrain _ => true
  | .trapBufferDrain _ => true
  | .jobaddrWrite _ _ _ => true
  | .jobIntake _ => true
  | .unitLeaveWaiting _ => true
  | .unitChecking _ => true
  | .phaseStart _ => true
  | .graphNodeStart _ _ => true
  | .weightStage _ => true
  | .groupDispatch _ _ => true
  | .waveDispatch _ => true
  | .groupEnd _ => true
  | .unitEnd _ => true
  | .partSwap _ _ => true
  | .forcedSwap _ _ => true
  | .preempt _ => true
  | .groupRestore _ _ => true
  | .drawWatchdog _ => true
  | .freezeAttach _ => true
  | .freezeRelease _ => true
  | .freezeLimitExpiry _ => true
  | .bpBroadcastWrite _ _ _ => true
  | .hpctlWrite _ => true
  | .profileSample _ _ => true
  | .bucketWindow => true
  | .qbktWrite _ _ _ => true
  | .requestInject _ _ => true
  | .hostMemRequest _ _ _ => true
  | .backInvalidate _ _ => true
  | .domainRequestIn _ => true
  | .fabricLossResponse _ => true
  | .fabricTimeout _ => true
  | .collOpen _ => true
  | .collClose _ => true
  | .collDeliveryIn _ _ => true
  | .rstreqWrite _ _ => true
  | .coldReset _ => true
  | .warmResetHost _ => true
  | .warmResetFatal _ => true
  | .planisherWindow _ => true
  | .lowRailWindow _ _ _ _ => true
  | .lowRailWake _ _ => true
  | .lowRailWakeDone _ _ => true
  | .dvfsRampEnd _ => true
  | .thermalSample _ => true
  | .tripChange _ => true
  | .trip4PowerOff => true
  | .deviceTimeWrap => true
  | .registerWrite _ _ => true
  | .spdmRequest _ => true
  | .configRequest _ _ => true

end Sys2Proof
end

