-- ==== Sys2Proof/Decode.lean ====
section
/-! DEFINITION. From the 96 bits of a slot to an instruction (R35 to R51) and back. -/

namespace Sys2Proof

/-- Why a word is no instruction. Every one of them is ILLEGAL_INSTR (R35, R51, R52 step 5). -/
inductive DecErr where
  /-- The major opcode is absent from R51's table. -/
  | opcode (opc : Nat)
  /-- A reserved bit is set or a field holds a code that R35 to R48 assign to nothing. -/
  | field
  /-- The fields break a rule of the instruction's own entry. -/
  | form
deriving DecidableEq, Repr

/-- Bits `lo` to `lo + n - 1` of a slot. -/
def bits (w : Slot) (lo n : Nat) : BitVec n := w.extractLsb' lo n

/-- The major opcode OPC (R35). -/
def opcode (w : Slot) : BitVec 8 := bits w 0 8

/-! ### Fields -/

def Csel.code : Csel → BitVec 2
  | .uncounted => 0 | .setA => 1 | .setB => 2

def Csel.ofCode (c : BitVec 2) : Option Csel :=
  match c.toNat with
  | 0 => some .uncounted | 1 => some .setA | 2 => some .setB | _ => none

def SrcClass.code : SrcClass → BitVec 3
  | .v => 0 | .s => 1 | .p => 2 | .special => 3 | .const => 4 | .lit => 5

def SrcClass.ofCode (c : BitVec 3) : Option SrcClass :=
  match c.toNat with
  | 0 => some .v | 1 => some .s | 2 => some .p | 3 => some .special | 4 => some .const | 5 => some .lit | _ => none

def DstClass.code : DstClass → BitVec 3
  | .v => 0 | .s => 1 | .p => 2 | .acc => 4 | .tacc => 5

def DstClass.ofCode (c : BitVec 3) : Option DstClass :=
  match c.toNat with
  | 0 => some .v | 1 => some .s | 2 => some .p | 4 => some .acc | 5 => some .tacc | _ => none

/-- Rounding codes of R62. -/
def Rnd.code : Rnd → BitVec 3
  | .rn => 0 | .rz => 1 | .ru => 2 | .rd => 3 | .rna => 4 | .dyn => 5

def Rnd.ofCode (c : BitVec 3) : Option Rnd :=
  match c.toNat with
  | 0 => some .rn | 1 => some .rz | 2 => some .ru | 3 => some .rd | 4 => some .rna | 5 => some .dyn | _ => none

/-- R38. -/
def Src.bits (x : Src) : BitVec 16 := BitVec.ofBool x.neg ++ x.blane ++ x.lmod ++ x.cls.code ++ x.num

def Src.ofBits (b : BitVec 16) : Option Src :=
  (SrcClass.ofCode (b.extractLsb' 8 3)).map fun c =>
    { neg := b.getLsbD 15, blane := b.extractLsb' 13 2, lmod := b.extractLsb' 11 2, cls := c, num := b.extractLsb' 0 8 }

/-- Bits [31:16] of a slot: destination modifiers, class and number (R35). -/
def Dst.bits (mods : BitVec 5) (d : Dst) : BitVec 16 := mods ++ d.cls.code ++ d.num

def Dst.ofBits (b : BitVec 16) : Option Dst :=
  (DstClass.ofCode (b.extractLsb' 8 3)).map fun c => { cls := c, num := b.extractLsb' 0 8 }

/-- Bits [15:0]: reserved bits zero, PNEG, PRED, CSEL, OPC. -/
def Hdr.bits (opc : BitVec 8) (h : Hdr) : BitVec 16 :=
  (0 : BitVec 2) ++ BitVec.ofBool h.pneg ++ h.pred ++ h.csel.code ++ opc

def Hdr.ofBits (b : BitVec 16) : Option Hdr :=
  if b.extractLsb' 14 2 = 0 then
    (Csel.ofCode (b.extractLsb' 8 2)).map fun c => { pneg := b.getLsbD 13, pred := b.extractLsb' 10 3, csel := c }
  else none

/-- The header, the destination modifiers and the destination. -/
def parseHead (w : Slot) : Option (Hdr × BitVec 5 × Dst) := do
  let h ← Hdr.ofBits (bits w 0 16)
  let d ← Dst.ofBits (bits w 16 16)
  pure (h, bits w 27 5, d)

/-- R35: destination modifiers that an instruction does not assign are zero. -/
def parseHead0 (w : Slot) : Option (Hdr × Dst) := do
  let (h, m, d) ← parseHead w
  if m = 0 then pure (h, d) else none

/-! ### Formats (R47) -/

def parseNop (w : Slot) : Option NopOp :=
  if bits w 8 2 = 0 && bits w 14 82 = 0 then some { pneg := w.getLsbD 13, pred := bits w 10 3 } else none

def encodeNop (opc : BitVec 8) (x : NopOp) : Slot :=
  (0 : BitVec 80) ++ Hdr.bits opc { pneg := x.pneg, pred := x.pred, csel := .uncounted }

/-- V3 with the MOD layout of R82. -/
def parseAlu (w : Slot) : Option AluOp := do
  let (h, sub, d) ← parseHead w
  let a ← Src.ofBits (bits w 32 16)
  let b ← Src.ofBits (bits w 48 16)
  let c ← Src.ofBits (bits w 64 16)
  let ty ← Ty.ofCode (bits w 83 5)
  let rnd ← Rnd.ofCode (bits w 88 3)
  if bits w 80 3 = 0 then
    pure { h := h, sub := sub, dst := d, a := a, b := b, c := c, ty := ty, rnd := rnd, sat := w.getLsbD 91,
           abs0 := w.getLsbD 92, abs1 := w.getLsbD 93, aux := bits w 94 2 }
  else none

def encodeAlu (opc : BitVec 8) (x : AluOp) : Slot :=
  (x.aux ++ BitVec.ofBool x.abs1 ++ BitVec.ofBool x.abs0 ++ BitVec.ofBool x.sat ++ x.rnd.code ++ x.ty.code ++
    (0 : BitVec 3)) ++ x.c.bits ++ x.b.bits ++ x.a.bits ++ Dst.bits x.sub x.dst ++ Hdr.bits opc x.h

/-- VI: the destination modifiers are the type code. -/
def parseLit (w : Slot) : Option LitOp := do
  let (h, m, d) ← parseHead w
  let a ← Src.ofBits (bits w 32 16)
  let b ← Src.ofBits (bits w 48 16)
  let ty ← Ty.ofCode m
  pure { h := h, ty := ty, dst := d, a := a, b := b, imm := bits w 64 32 }

def encodeLit (opc : BitVec 8) (x : LitOp) : Slot :=
  x.imm ++ x.b.bits ++ x.a.bits ++ Dst.bits x.ty.code x.dst ++ Hdr.bits opc x.h

/-- V3 with the MOD layout of R96. -/
def parseXl (w : Slot) : Option XlOp := do
  let (h, sub, d) ← parseHead w
  let a ← Src.ofBits (bits w 32 16)
  let b ← Src.ofBits (bits w 48 16)
  let c ← Src.ofBits (bits w 64 16)
  let ty ← Ty.ofCode (bits w 83 5)
  pure { h := h, sub := sub, dst := d, a := a, b := b, c := c, ctl := bits w 88 8, ty := ty, minw := bits w 80 3 }

def encodeXl (opc : BitVec 8) (x : XlOp) : Slot :=
  (x.ctl ++ x.ty.code ++ x.minw) ++ x.c.bits ++ x.b.bits ++ x.a.bits ++ Dst.bits x.sub x.dst ++ Hdr.bits opc x.h

/-- B format (R49). -/
def parseFlow (w : Slot) : Option FlowOp := do
  let (h, d) ← parseHead0 w
  let c ← Src.ofBits (bits w 32 16)
  if bits w 83 13 = 0 then
    pure { h := h, link := d, cond := c, offs := bits w 48 29, slot := bits w 77 3, nocut := w.getLsbD 80,
           hint := bits w 81 2 }
  else none

def encodeFlow (opc : BitVec 8) (x : FlowOp) : Slot :=
  ((0 : BitVec 13) ++ x.hint ++ BitVec.ofBool x.nocut) ++ x.slot ++ x.offs ++ x.cond.bits ++ Dst.bits 0 x.link ++
    Hdr.bits opc x.h

/-- BRX and RET: only SRC0. -/
def parseJump (w : Slot) : Option JumpOp := do
  let h ← Hdr.ofBits (bits w 0 16)
  let a ← Src.ofBits (bits w 32 16)
  if bits w 16 16 = 0 && bits w 48 48 = 0 then pure { h := h, a := a } else none

def encodeJump (opc : BitVec 8) (x : JumpOp) : Slot :=
  (0 : BitVec 48) ++ x.a.bits ++ (0 : BitVec 16) ++ Hdr.bits opc x.h

/-- X format. -/
def parseCtl (w : Slot) : Option CtlOp := do
  let (h, d) ← parseHead0 w
  let a ← Src.ofBits (bits w 32 16)
  let b ← Src.ofBits (bits w 48 16)
  pure { h := h, dst := d, a := a, b := b, imm := bits w 64 32 }

def encodeCtl (opc : BitVec 8) (x : CtlOp) : Slot :=
  x.imm ++ x.b.bits ++ x.a.bits ++ Dst.bits 0 x.dst ++ Hdr.bits opc x.h

/-- E format, MINW in MOD[2:0]. -/
def parseEng (w : Slot) : Option EngOp := do
  let (h, d) ← parseHead0 w
  let a ← Src.ofBits (bits w 32 16)
  let b ← Src.ofBits (bits w 48 16)
  let c ← Src.ofBits (bits w 64 16)
  pure { h := h, dst := d, a := a, b := b, c := c, mod := bits w 83 13, minw := bits w 80 3 }

def encodeEng (opc : BitVec 8) (x : EngOp) : Slot :=
  (x.mod ++ x.minw) ++ x.c.bits ++ x.b.bits ++ x.a.bits ++ Dst.bits 0 x.dst ++ Hdr.bits opc x.h

/-- M format (R48). -/
def parseMem (w : Slot) : Option MemOp := do
  let (h, d) ← parseHead0 w
  let a ← Src.ofBits (bits w 32 16)
  if w.getLsbD 95 then none
  else
    pure { h := h, reg := d, addr := a, off := bits w 48 32, ord := bits w 80 2, scope := bits w 82 3,
           evict := bits w 85 3, space := bits w 88 3, szty := bits w 91 4 }

def encodeMem (opc : BitVec 8) (x : MemOp) : Slot :=
  ((0 : BitVec 1) ++ x.szty ++ x.space ++ x.evict ++ x.scope ++ x.ord) ++ x.off ++ x.addr.bits ++ Dst.bits 0 x.reg ++
    Hdr.bits opc x.h

/-! ### Instructions (R51) -/

/-- The instruction a slot's fields name, before the rules of its entry are checked; none where a field names nothing.
Opcodes outside the table answer `opcode`. -/
def parse (w : Slot) : Option Instr :=
  match (opcode w).toNat with
  | 0x00 => (parseNop w).map (fun x => .nop x)
  | 0x01 => (parseAlu w).map (fun x => .mov x)
  | 0x02 => (parseLit w).map (fun x => .movi x)
  | 0x03 => (parseAlu w).map (fun x => .sel x)
  | 0x04 => (parseAlu w).map (fun x => .iadd x)
  | 0x05 => (parseAlu w).map (fun x => .isub x)
  | 0x06 => (parseAlu w).map (fun x => .imul x)
  | 0x07 => (parseAlu w).map (fun x => .imulh x)
  | 0x08 => (parseAlu w).map (fun x => .imad x)
  | 0x09 => (parseAlu w).map (fun x => .imin x)
  | 0x0a => (parseAlu w).map (fun x => .imax x)
  | 0x0b => (parseAlu w).map (fun x => .iabs x)
  | 0x0c => (parseAlu w).map (fun x => .and x)
  | 0x0d => (parseAlu w).map (fun x => .or x)
  | 0x0e => (parseAlu w).map (fun x => .xor x)
  | 0x0f => (parseAlu w).map (fun x => .not x)
  | 0x10 => (parseAlu w).map (fun x => .shl x)
  | 0x11 => (parseAlu w).map (fun x => .shr x)
  | 0x12 => (parseAlu w).map (fun x => .rot x)
  | 0x13 => (parseAlu w).map (fun x => .bfx x)
  | 0x14 => (parseAlu w).map (fun x => .bfi x)
  | 0x15 => (parseAlu w).map (fun x => .popc x)
  | 0x16 => (parseAlu w).map (fun x => .clz x)
  | 0x17 => (parseAlu w).map (fun x => .brev x)
  | 0x18 => (parseAlu w).map (fun x => .icmp x)
  | 0x19 => (parseAlu w).map (fun x => .addc x)
  | 0x1a => (parseLit w).map (fun x => .lea x)
  | 0x1b => (parseAlu w).map (fun x => .iadd3 x)
  | 0x1c => (parseAlu w).map (fun x => .sati x)
  | 0x20 => (parseAlu w).map (fun x => .fadd x)
  | 0x21 => (parseAlu w).map (fun x => .fsub x)
  | 0x22 => (parseAlu w).map (fun x => .fmul x)
  | 0x23 => (parseAlu w).map (fun x => .ffma x)
  | 0x24 => (parseAlu w).map (fun x => .fmin x)
  | 0x25 => (parseAlu w).map (fun x => .fmax x)
  | 0x26 => (parseAlu w).map (fun x => .fcmp x)
  | 0x27 => (parseAlu w).map (fun x => .fclass x)
  | 0x28 => (parseAlu w).map (fun x => .frnd x)
  | 0x29 => (parseAlu w).map (fun x => .fcvt x)
  | 0x2a => (parseAlu w).map (fun x => .ftoi x)
  | 0x2b => (parseAlu w).map (fun x => .itof x)
  | 0x2c => (parseAlu w).map (fun x => .exp2 x)
  | 0x2d => (parseAlu w).map (fun x => .log2 x)
  | 0x2e => (parseAlu w).map (fun x => .rcp x)
  | 0x2f => (parseAlu w).map (fun x => .rsq x)
  | 0x30 => (parseAlu w).map (fun x => .sqrt x)
  | 0x31 => (parseAlu w).map (fun x => .sin x)
  | 0x32 => (parseAlu w).map (fun x => .cos x)
  | 0x33 => (parseAlu w).map (fun x => .fdot2 x)
  | 0x34 => (parseAlu w).map (fun x => .fpk2 x)
  | 0x35 => (parseAlu w).map (fun x => .fscale x)
  | 0x36 => (parseAlu w).map (fun x => .fmed3 x)
  | 0x37 => (parseAlu w).map (fun x => .ffrac x)
  | 0x38 => (parseAlu w).map (fun x => .hfma2 x)
  | 0x39 => (parseAlu w).map (fun x => .hadd2 x)
  | 0x3a => (parseAlu w).map (fun x => .hmul2 x)
  | 0x3b => (parseAlu w).map (fun x => .qdot4 x)
  | 0x40 => (parseXl w).map (fun x => .qswz x)
  | 0x41 => (parseXl w).map (fun x => .ballot x)
  | 0x42 => (parseXl w).map (fun x => .vote x)
  | 0x43 => (parseXl w).map (fun x => .shfl x)
  | 0x44 => (parseXl w).map (fun x => .bcast x)
  | 0x45 => (parseXl w).map (fun x => .redux x)
  | 0x46 => (parseXl w).map (fun x => .scanx x)
  | 0x47 => (parseXl w).map (fun x => .match x)
  | 0x48 => (parseXl w).map (fun x => .readlane x)
  | 0x49 => (parseXl w).map (fun x => .writelane x)
  | 0x4a => (parseXl w).map (fun x => .xshuf x)
  | 0x50 => (parseFlow w).map (fun x => .br x)
  | 0x51 => (parseFlow w).map (fun x => .brc x)
  | 0x52 => (parseJump w).map (fun x => .brx x)
  | 0x53 => (parseFlow w).map (fun x => .call x)
  | 0x54 => (parseJump w).map (fun x => .ret x)
  | 0x55 => (parseCtl w).map (fun x => .knit x)
  | 0x56 => (parseCtl w).map (fun x => .cutctl x)
  | 0x57 => (parseFlow w).map (fun x => .rep x)
  | 0x58 => (parseFlow w).map (fun x => .lpin x)
  | 0x59 => (parseCtl w).map (fun x => .exit x)
  | 0x5a => (parseCtl w).map (fun x => .waitn x)
  | 0x5b => (parseCtl w).map (fun x => .yield x)
  | 0x5c => (parseCtl w).map (fun x => .setfmt x)
  | 0x5d => (parseCtl w).map (fun x => .getst x)
  | 0x5e => (parseCtl w).map (fun x => .sleep x)
  | 0x60 => (parseMem w).map (fun x => .ld x)
  | 0x61 => (parseMem w).map (fun x => .st x)
  | 0x62 => (parseMem w).map (fun x => .lds x)
  | 0x63 => (parseMem w).map (fun x => .ldx x)
  | 0x64 => (parseMem w).map (fun x => .stx x)
  | 0x65 => (parseMem w).map (fun x => .ldw x)
  | 0x66 => (parseMem w).map (fun x => .prf x)
  | 0x67 => (parseMem w).map (fun x => if x.szty = 1 then .invlAll x else .invl x)
  | 0x68 => (parseMem w).map (fun x => if x.szty = 1 then .wblAll x else .wbl x)
  | 0x69 => (parseCtl w).map (fun x => .fence x)
  | 0x6a => (parseCtl w).map (fun x => .fencex x)
  | 0x6b => (parseMem w).map (fun x => .monw x)
  | 0x6c => (parseMem w).map (fun x => .atom x)
  | 0x6d => (parseMem w).map (fun x => .atomc x)
  | 0x6e => (parseMem w).map (fun x => .red x)
  | 0x70 => (parseEng w).map (fun x => .bcopy x)
  | 0x71 => (parseEng w).map (fun x => .gcopy x)
  | 0x72 => (parseEng w).map (fun x => .scopy x)
  | 0x73 => (parseEng w).map (fun x => .wswrite x)
  | 0x74 => (parseEng w).map (fun x => .wswin x)
  | 0x75 => (parseEng w).map (fun x => .cpoll x)
  | 0x76 => (parseMem w).map (fun x => .mcst x)
  | 0x77 => (parseMem w).map (fun x => .mred x)
  | 0x80 => (parseEng w).map (fun x => .macq x)
  | 0x81 => (parseEng w).map (fun x => .mrel x)
  | 0x82 => (parseEng w).map (fun x => .mma x)
  | 0x83 => (parseEng w).map (fun x => .mmas x)
  | 0x84 => (parseEng w).map (fun x => .mfence x)
  | 0x85 => (parseEng w).map (fun x => .mwait x)
  | 0x86 => (parseEng w).map (fun x => .mrd x)
  | 0x87 => (parseEng w).map (fun x => .mwr x)
  | 0x88 => (parseEng w).map (fun x => .mdrain x)
  | 0x90 => (parseEng w).map (fun x => .twld x)
  | 0x91 => (parseEng w).map (fun x => .tmac x)
  | 0x92 => (parseEng w).map (fun x => .tdrain x)
  | 0x93 => (parseEng w).map (fun x => if x.mod.getLsbD 0 then .tzeroPlane x else .tzero x)
  | 0x94 => (parseEng w).map (fun x => .tpack x)
  | 0x95 => (parseEng w).map (fun x => .tunpk x)
  | 0x96 => (parseEng w).map (fun x => .tqnt x)
  | 0x97 => (parseEng w).map (fun x => .tstat x)
  | 0xa0 => (parseEng w).map (fun x => .smp x)
  | 0xa1 => (parseEng w).map (fun x => .smpl x)
  | 0xa2 => (parseEng w).map (fun x => .smpg x)
  | 0xa3 => (parseEng w).map (fun x => .gath4 x)
  | 0xa4 => (parseEng w).map (fun x => .txld x)
  | 0xa5 => (parseEng w).map (fun x => .ldec x)
  | 0xa6 => (parseEng w).map (fun x => .edge x)
  | 0xa7 => (parseEng w).map (fun x => .tileq x)
  | 0xa8 => (parseEng w).map (fun x => .emit x)
  | 0xa9 => (parseEng w).map (fun x => .rtrace x)
  | 0xaa => (parseEng w).map (fun x => .rhit x)
  | 0xab => (parseEng w).map (fun x => .imgst x)
  | 0xac => (parseCtl w).map (fun x => if x.imm = 1 then .rninvAll x else .rninv x)
  | 0xb0 => (parseCtl w).map (fun x => if x.imm.getLsbD 0 then .bariGroup x else .bari x)
  | 0xb1 => (parseCtl w).map (fun x => .arrive x)
  | 0xb2 => (parseCtl w).map (fun x => .arrdrop x)
  | 0xb3 => (parseCtl w).map (fun x => .bwait x)
  | 0xb4 => (parseCtl w).map (fun x => .bexpect x)
  | 0xb5 => (parseCtl w).map (fun x => .qpush x)
  | 0xb6 => (parseCtl w).map (fun x => .qpop x)
  | 0xb7 => (parseCtl w).map (fun x => .qtry x)
  | 0xb8 => (parseCtl w).map (fun x => if x.imm.getLsbD 4 then .qallowInit x else .qallow x)
  | 0xb9 => (parseCtl w).map (fun x => .gbar x)
  | 0xba => (parseCtl w).map (fun x => .launch x)
  | 0xbb => (parseCtl w).map (fun x => .grun x)
  | 0xbc => (parseCtl w).map (fun x => match (x.imm.extractLsb' 0 2).toNat with | 0 => .cancelHandle x | 1 => .cancelLaunch x | 2 => .cancelPhase x | _ => .cancelJob x)
  | 0xbd => (parseCtl w).map (fun x => .ccwait x)
  | 0xbe => (parseCtl w).map (fun x => .rosb x)
  | 0xbf => (parseCtl w).map (fun x => .rose x)
  | 0xc0 => (parseCtl w).map (fun x => .trap x)
  | 0xc1 => (parseCtl w).map (fun x => .brk x)
  | 0xc2 => (parseCtl w).map (fun x => match (x.imm.extractLsb' 0 2).toNat with | 0 => .rettReissue x | 1 => .rettSkip x | 2 => .rettPc x | _ => .rettEnd x)
  | 0xc3 => (parseCtl w).map (fun x => .rdsr x)
  | 0xc4 => (parseCtl w).map (fun x => .wrsr x)
  | 0xc5 => (parseCtl w).map (fun x => match (x.imm.extractLsb' 0 2).toNat with | 0 => .tlbinvAll x | 1 => .tlbinvAsid x | _ => .tlbinvPage x)
  | 0xc6 => (parseCtl w).map (fun x => match (x.imm.extractLsb' 0 2).toNat with | 0 => .assayPut x | 1 => .assayFrz x | _ => .assayRun x)
  | 0xc7 => (parseCtl w).map (fun x => .mark x)
  | 0xc8 => (parseCtl w).map (fun x => .logctl x)
  | 0xc9 => (parseCtl w).map (fun x => match (x.imm.extractLsb' 0 2).toNat with | 0 => .seqrdTime x | 1 => .seqrdDseq x | _ => .seqrdOrd x)
  | 0xca => (parseCtl w).map (fun x => .dvreq x)
  | 0xcb => (parseCtl w).map (fun x => match (x.imm.extractLsb' 0 2).toNat with | 0 => .haltSave x | 1 => .haltGo x | 2 => .haltReset x | _ => .haltDevice x)
  | _ => none

/-- The opcodes of R51's table. -/
def listed (opc : Nat) : Bool :=
  opc ≤ 0x1c || (0x20 ≤ opc && opc ≤ 0x3b) || (0x40 ≤ opc && opc ≤ 0x4a) || (0x50 ≤ opc && opc ≤ 0x5e) ||
  (0x60 ≤ opc && opc ≤ 0x77 && opc ≠ 0x6f) || (0x80 ≤ opc && opc ≤ 0x88) || (0x90 ≤ opc && opc ≤ 0x97) ||
  (0xa0 ≤ opc && opc ≤ 0xac) || (0xb0 ≤ opc && opc ≤ 0xcb)

/-- The decoder: total on any slot. -/
def decode (w : Slot) : Except DecErr Instr :=
  if listed (opcode w).toNat then
    match parse w with
    | none => .error .field
    | some i => if i.wf then .ok i else .error .form
  else .error (.opcode (opcode w).toNat)

/-- The slot of an instruction, from the same tables; an event has none. -/
def encode (i : Instr) : Option Slot :=
  match i with
  | .nop x => some (encodeNop 0x00 x)
  | .mov x => some (encodeAlu 0x01 x)
  | .movi x => some (encodeLit 0x02 x)
  | .sel x => some (encodeAlu 0x03 x)
  | .iadd x => some (encodeAlu 0x04 x)
  | .isub x => some (encodeAlu 0x05 x)
  | .imul x => some (encodeAlu 0x06 x)
  | .imulh x => some (encodeAlu 0x07 x)
  | .imad x => some (encodeAlu 0x08 x)
  | .imin x => some (encodeAlu 0x09 x)
  | .imax x => some (encodeAlu 0x0a x)
  | .iabs x => some (encodeAlu 0x0b x)
  | .and x => some (encodeAlu 0x0c x)
  | .or x => some (encodeAlu 0x0d x)
  | .xor x => some (encodeAlu 0x0e x)
  | .not x => some (encodeAlu 0x0f x)
  | .shl x => some (encodeAlu 0x10 x)
  | .shr x => some (encodeAlu 0x11 x)
  | .rot x => some (encodeAlu 0x12 x)
  | .bfx x => some (encodeAlu 0x13 x)
  | .bfi x => some (encodeAlu 0x14 x)
  | .popc x => some (encodeAlu 0x15 x)
  | .clz x => some (encodeAlu 0x16 x)
  | .brev x => some (encodeAlu 0x17 x)
  | .icmp x => some (encodeAlu 0x18 x)
  | .addc x => some (encodeAlu 0x19 x)
  | .lea x => some (encodeLit 0x1a x)
  | .iadd3 x => some (encodeAlu 0x1b x)
  | .sati x => some (encodeAlu 0x1c x)
  | .fadd x => some (encodeAlu 0x20 x)
  | .fsub x => some (encodeAlu 0x21 x)
  | .fmul x => some (encodeAlu 0x22 x)
  | .ffma x => some (encodeAlu 0x23 x)
  | .fmin x => some (encodeAlu 0x24 x)
  | .fmax x => some (encodeAlu 0x25 x)
  | .fcmp x => some (encodeAlu 0x26 x)
  | .fclass x => some (encodeAlu 0x27 x)
  | .frnd x => some (encodeAlu 0x28 x)
  | .fcvt x => some (encodeAlu 0x29 x)
  | .ftoi x => some (encodeAlu 0x2a x)
  | .itof x => some (encodeAlu 0x2b x)
  | .exp2 x => some (encodeAlu 0x2c x)
  | .log2 x => some (encodeAlu 0x2d x)
  | .rcp x => some (encodeAlu 0x2e x)
  | .rsq x => some (encodeAlu 0x2f x)
  | .sqrt x => some (encodeAlu 0x30 x)
  | .sin x => some (encodeAlu 0x31 x)
  | .cos x => some (encodeAlu 0x32 x)
  | .fdot2 x => some (encodeAlu 0x33 x)
  | .fpk2 x => some (encodeAlu 0x34 x)
  | .fscale x => some (encodeAlu 0x35 x)
  | .fmed3 x => some (encodeAlu 0x36 x)
  | .ffrac x => some (encodeAlu 0x37 x)
  | .hfma2 x => some (encodeAlu 0x38 x)
  | .hadd2 x => some (encodeAlu 0x39 x)
  | .hmul2 x => some (encodeAlu 0x3a x)
  | .qdot4 x => some (encodeAlu 0x3b x)
  | .qswz x => some (encodeXl 0x40 x)
  | .ballot x => some (encodeXl 0x41 x)
  | .vote x => some (encodeXl 0x42 x)
  | .shfl x => some (encodeXl 0x43 x)
  | .bcast x => some (encodeXl 0x44 x)
  | .redux x => some (encodeXl 0x45 x)
  | .scanx x => some (encodeXl 0x46 x)
  | .match x => some (encodeXl 0x47 x)
  | .readlane x => some (encodeXl 0x48 x)
  | .writelane x => some (encodeXl 0x49 x)
  | .xshuf x => some (encodeXl 0x4a x)
  | .xshufMatch _ _ => none
  | .xshufTimeout _ => none
  | .br x => some (encodeFlow 0x50 x)
  | .brc x => some (encodeFlow 0x51 x)
  | .stackSpillDone _ => none
  | .brx x => some (encodeJump 0x52 x)
  | .call x => some (encodeFlow 0x53 x)
  | .ret x => some (encodeJump 0x54 x)
  | .knit x => some (encodeCtl 0x55 x)
  | .knitFuse _ _ => none
  | .knitTimeout _ _ => none
  | .implicitKnitFuse _ _ => none
  | .implicitKnitTimeout _ _ => none
  | .cutctl x => some (encodeCtl 0x56 x)
  | .rep x => some (encodeFlow 0x57 x)
  | .lpin x => some (encodeFlow 0x58 x)
  | .exit x => some (encodeCtl 0x59 x)
  | .lastExitResume _ => none
  | .waitn x => some (encodeCtl 0x5a x)
  | .waitnRelease _ => none
  | .missCut _ => none
  | .lineWaitRelease _ => none
  | .lineRefetch _ => none
  | .yield x => some (encodeCtl 0x5b x)
  | .setfmt x => some (encodeCtl 0x5c x)
  | .getst x => some (encodeCtl 0x5d x)
  | .sleep x => some (encodeCtl 0x5e x)
  | .sleepExpiry _ => none
  | .ld x => some (encodeMem 0x60 x)
  | .st x => some (encodeMem 0x61 x)
  | .lds x => some (encodeMem 0x62 x)
  | .ldx x => some (encodeMem 0x63 x)
  | .stx x => some (encodeMem 0x64 x)
  | .ldw x => some (encodeMem 0x65 x)
  | .prf x => some (encodeMem 0x66 x)
  | .invl x => some (encodeMem 0x67 x)
  | .invlAll x => some (encodeMem 0x67 x)
  | .wbl x => some (encodeMem 0x68 x)
  | .wblAll x => some (encodeMem 0x68 x)
  | .fence x => some (encodeCtl 0x69 x)
  | .fenceWaitDone _ => none
  | .fencex x => some (encodeCtl 0x6a x)
  | .fencexWaitDone _ => none
  | .monw x => some (encodeMem 0x6b x)
  | .monwWake _ => none
  | .monwPollExpiry _ => none
  | .atom x => some (encodeMem 0x6c x)
  | .atomc x => some (encodeMem 0x6d x)
  | .red x => some (encodeMem 0x6e x)
  | .atomicStep _ _ => none
  | .fixedOrderResolve _ => none
  | .bcopy x => some (encodeEng 0x70 x)
  | .gcopy x => some (encodeEng 0x71 x)
  | .scopy x => some (encodeEng 0x72 x)
  | .copyWritePerformed _ _ => none
  | .copyComplete _ => none
  | .wswrite x => some (encodeEng 0x73 x)
  | .wswriteComplete _ => none
  | .wswin x => some (encodeEng 0x74 x)
  | .wsWindowEnd _ _ => none
  | .cpoll x => some (encodeEng 0x75 x)
  | .mcst x => some (encodeMem 0x76 x)
  | .mred x => some (encodeMem 0x77 x)
  | .mcstDeliveryPerformed _ _ _ => none
  | .macq x => some (encodeEng 0x80 x)
  | .macqGrant _ => none
  | .macqTimeout _ => none
  | .mrel x => some (encodeEng 0x81 x)
  | .mma x => some (encodeEng 0x82 x)
  | .mmas x => some (encodeEng 0x83 x)
  | .fmuOperandsConsumed _ _ => none
  | .fmuOpComplete _ _ => none
  | .mfence x => some (encodeEng 0x84 x)
  | .mwait x => some (encodeEng 0x85 x)
  | .mwaitRelease _ => none
  | .mrd x => some (encodeEng 0x86 x)
  | .mwr x => some (encodeEng 0x87 x)
  | .mdrain x => some (encodeEng 0x88 x)
  | .twld x => some (encodeEng 0x90 x)
  | .tmac x => some (encodeEng 0x91 x)
  | .tdrain x => some (encodeEng 0x92 x)
  | .tzero x => some (encodeEng 0x93 x)
  | .tzeroPlane x => some (encodeEng 0x93 x)
  | .taOperandsConsumed _ _ => none
  | .taOpStart _ => none
  | .twldComplete _ => none
  | .tmacComplete _ => none
  | .tdrainComplete _ _ => none
  | .tzeroComplete _ => none
  | .tpack x => some (encodeEng 0x94 x)
  | .tunpk x => some (encodeEng 0x95 x)
  | .tqnt x => some (encodeEng 0x96 x)
  | .tstat x => some (encodeEng 0x97 x)
  | .smp x => some (encodeEng 0xa0 x)
  | .smpl x => some (encodeEng 0xa1 x)
  | .smpg x => some (encodeEng 0xa2 x)
  | .gath4 x => some (encodeEng 0xa3 x)
  | .txld x => some (encodeEng 0xa4 x)
  | .ldec x => some (encodeEng 0xa5 x)
  | .samplerComplete _ _ => none
  | .edge x => some (encodeEng 0xa6 x)
  | .tileq x => some (encodeEng 0xa7 x)
  | .tileRecordHandout _ _ => none
  | .emit x => some (encodeEng 0xa8 x)
  | .rasterAccept _ => none
  | .rtrace x => some (encodeEng 0xa9 x)
  | .rtraceComplete _ _ => none
  | .rhit x => some (encodeEng 0xaa x)
  | .imgst x => some (encodeEng 0xab x)
  | .imgstComplete _ _ => none
  | .rninv x => some (encodeCtl 0xac x)
  | .rninvAll x => some (encodeCtl 0xac x)
  | .bari x => some (encodeCtl 0xb0 x)
  | .bariGroup x => some (encodeCtl 0xb0 x)
  | .arrive x => some (encodeCtl 0xb1 x)
  | .arrdrop x => some (encodeCtl 0xb2 x)
  | .bwait x => some (encodeCtl 0xb3 x)
  | .bwaitPass _ => none
  | .bexpect x => some (encodeCtl 0xb4 x)
  | .qpush x => some (encodeCtl 0xb5 x)
  | .qpushResume _ => none
  | .qpop x => some (encodeCtl 0xb6 x)
  | .qpopResume _ => none
  | .qtry x => some (encodeCtl 0xb7 x)
  | .qallow x => some (encodeCtl 0xb8 x)
  | .qallowInit x => some (encodeCtl 0xb8 x)
  | .gbar x => some (encodeCtl 0xb9 x)
  | .gbarComplete _ => none
  | .launch x => some (encodeCtl 0xba x)
  | .grun x => some (encodeCtl 0xbb x)
  | .cancelHandle x => some (encodeCtl 0xbc x)
  | .cancelLaunch x => some (encodeCtl 0xbc x)
  | .cancelPhase x => some (encodeCtl 0xbc x)
  | .cancelJob x => some (encodeCtl 0xbc x)
  | .ccwait x => some (encodeCtl 0xbd x)
  | .ccwaitWake _ => none
  | .ccwaitPollExpiry _ => none
  | .rosb x => some (encodeCtl 0xbe x)
  | .rosbAdmit _ => none
  | .rose x => some (encodeCtl 0xbf x)
  | .trap x => some (encodeCtl 0xc0 x)
  | .brk x => some (encodeCtl 0xc1 x)
  | .rettReissue x => some (encodeCtl 0xc2 x)
  | .rettSkip x => some (encodeCtl 0xc2 x)
  | .rettPc x => some (encodeCtl 0xc2 x)
  | .rettEnd x => some (encodeCtl 0xc2 x)
  | .rdsr x => some (encodeCtl 0xc3 x)
  | .wrsr x => some (encodeCtl 0xc4 x)
  | .bootctlReadyWrite => none
  | .tlbinvAll x => some (encodeCtl 0xc5 x)
  | .tlbinvAsid x => some (encodeCtl 0xc5 x)
  | .tlbinvPage x => some (encodeCtl 0xc5 x)
  | .assayPut x => some (encodeCtl 0xc6 x)
  | .assayFrz x => some (encodeCtl 0xc6 x)
  | .assayRun x => some (encodeCtl 0xc6 x)
  | .mark x => some (encodeCtl 0xc7 x)
  | .logctl x => some (encodeCtl 0xc8 x)
  | .seqrdTime x => some (encodeCtl 0xc9 x)
  | .seqrdDseq x => some (encodeCtl 0xc9 x)
  | .seqrdOrd x => some (encodeCtl 0xc9 x)
  | .dvreq x => some (encodeCtl 0xca x)
  | .haltSave x => some (encodeCtl 0xcb x)
  | .haltGo x => some (encodeCtl 0xcb x)
  | .haltReset x => some (encodeCtl 0xcb x)
  | .haltDevice x => some (encodeCtl 0xcb x)
  | .contextReset _ => none
  | .loadComplete _ _ => none
  | .storePerformed _ _ => none
  | .ldwComplete _ _ => none
  | .prefetchPlaced _ _ => none
  | .l1Evict _ _ => none
  | .pageWalk _ _ _ => none
  | .fltdoneWrite _ => none
  | .partRestore _ => none
  | .faultBufferDrain _ => none
  | .trapBufferDrain _ => none
  | .jobaddrWrite _ _ _ => none
  | .jobIntake _ => none
  | .unitLeaveWaiting _ => none
  | .unitChecking _ => none
  | .phaseStart _ => none
  | .graphNodeStart _ _ => none
  | .weightStage _ => none
  | .groupDispatch _ _ => none
  | .waveDispatch _ => none
  | .groupEnd _ => none
  | .unitEnd _ => none
  | .partSwap _ _ => none
  | .forcedSwap _ _ => none
  | .preempt _ => none
  | .groupRestore _ _ => none
  | .drawWatchdog _ => none
  | .freezeAttach _ => none
  | .freezeRelease _ => none
  | .freezeLimitExpiry _ => none
  | .bpBroadcastWrite _ _ _ => none
  | .hpctlWrite _ => none
  | .profileSample _ _ => none
  | .bucketWindow => none
  | .qbktWrite _ _ _ => none
  | .requestInject _ _ => none
  | .hostMemRequest _ _ _ => none
  | .backInvalidate _ _ => none
  | .domainRequestIn _ => none
  | .fabricLossResponse _ => none
  | .fabricTimeout _ => none
  | .collOpen _ => none
  | .collClose _ => none
  | .collDeliveryIn _ _ => none
  | .rstreqWrite _ _ => none
  | .coldReset _ => none
  | .warmResetHost _ => none
  | .warmResetFatal _ => none
  | .planisherWindow _ => none
  | .lowRailWindow _ _ _ _ => none
  | .lowRailWake _ _ => none
  | .lowRailWakeDone _ _ => none
  | .dvfsRampEnd _ => none
  | .thermalSample _ => none
  | .tripChange _ => none
  | .trip4PowerOff => none
  | .deviceTimeWrap => none
  | .registerWrite _ _ => none
  | .spdmRequest _ => none
  | .configRequest _ _ => none

/-- What the decoder reads from an instruction whose bits are `w`, bit 0 the least significant bit of its first word;
the bits above `nbits` are zero. -/
def decodeTableWord (nbits w : Nat) : Option Instr :=
  match decode (BitVec.ofNat 96 (w % 2 ^ nbits)) with
  | .ok i => some i
  | .error _ => none

end Sys2Proof
end

