-- ==== Sys2Proof/Machine/Regs.lean ====
section
/-! DEFINITION. What the fields of an instruction name: the registers it reads and writes (R45, R86), its predicate and
counter, its MINW (R50), whether it is a control-mode instruction (R362). -/

namespace Sys2Proof.Machine

open Sys2Proof

/-- A run of registers that an instruction names: class (0 V, 1 S, 2 P; 3 for what has no limit of R45), first number,
length, and whether the instruction only writes them. -/
structure RegUse where
  cls   : Nat
  num   : Nat
  len   : Nat
  write : Bool
deriving DecidableEq, Repr

namespace RegUse

/-- A source, a pair when `wide`. -/
def src (wide : Bool) (x : Src) : RegUse :=
  { cls := match x.cls with | .v => 0 | .s => 1 | .p => 2 | _ => 3, num := x.num.toNat,
    len := if wide && x.cls != .p then 2 else 1, write := false }

/-- A run of `n` registers that a source field starts. -/
def run (n : Nat) (x : Src) : RegUse := { src false x with len := n }

def dstClass (d : Dst) : Nat := match d.cls with | .v => 0 | .s => 1 | .p => 2 | _ => 3

/-- A destination, a pair when `wide`. -/
def dst (wide : Bool) (d : Dst) : RegUse :=
  { cls := dstClass d, num := d.num.toNat, len := if wide then 2 else 1, write := true }

/-- A predicate that an instruction writes beside its destination. -/
def predDst (n : Nat) : RegUse := { cls := 2, num := n, len := 1, write := true }

/-- A destination run. -/
def dstRun (n : Nat) (d : Dst) : RegUse := { cls := dstClass d, num := d.num.toNat, len := n, write := true }

/-- A run that the destination field names and the instruction reads. -/
def readRun (n : Nat) (d : Dst) : RegUse := { cls := dstClass d, num := d.num.toNat, len := n, write := false }

/-- Width of the source type that SUBOP names. -/
def subWide (c : BitVec 5) : Bool := match Ty.ofCode c with | some t => t.isWide | none => false

/-- Registers of a texel: four, or two with H. -/
def sampRegs (x : EngOp) : Nat := if x.mod.getLsbD 0 then 2 else 4

end RegUse

end Sys2Proof.Machine

namespace Sys2Proof

open Machine

open RegUse in
/-- The registers an instruction names or implies. -/
def Instr.uses (i : Instr) : List RegUse :=
  match i with
  | .nop _ => []
  | .mov x => [src x.ty.isWide x.a, dst x.ty.isWide x.dst]
  | .movi x => [dst x.ty.isWide x.dst]
  | .sel x => [src x.ty.isWide x.a, src x.ty.isWide x.b, src false x.c, dst x.ty.isWide x.dst]
  | .iadd x => [src x.ty.isWide x.a, src x.ty.isWide x.b, dst x.ty.isWide x.dst]
  | .isub x => [src x.ty.isWide x.a, src x.ty.isWide x.b, dst x.ty.isWide x.dst]
  | .imul x => [src x.ty.isWide x.a, src x.ty.isWide x.b, dst x.ty.isWide x.dst]
  | .imulh x => [src x.ty.isWide x.a, src x.ty.isWide x.b, dst x.ty.isWide x.dst]
  | .imad x => [src x.ty.isWide x.a, src x.ty.isWide x.b, src x.ty.isWide x.c, dst x.ty.isWide x.dst]
  | .imin x => [src x.ty.isWide x.a, src x.ty.isWide x.b, dst x.ty.isWide x.dst]
  | .imax x => [src x.ty.isWide x.a, src x.ty.isWide x.b, dst x.ty.isWide x.dst]
  | .iabs x => [src x.ty.isWide x.a, dst x.ty.isWide x.dst]
  | .and x => [src x.ty.isWide x.a, src x.ty.isWide x.b, dst x.ty.isWide x.dst]
  | .or x => [src x.ty.isWide x.a, src x.ty.isWide x.b, dst x.ty.isWide x.dst]
  | .xor x => [src x.ty.isWide x.a, src x.ty.isWide x.b, dst x.ty.isWide x.dst]
  | .not x => [src x.ty.isWide x.a, dst x.ty.isWide x.dst]
  | .shl x => [src x.ty.isWide x.a, src false x.b, dst x.ty.isWide x.dst]
  | .shr x => [src x.ty.isWide x.a, src false x.b, dst x.ty.isWide x.dst]
  | .rot x => [src x.ty.isWide x.a, src false x.b, dst x.ty.isWide x.dst]
  | .bfx x => [src x.ty.isWide x.a, src false x.b, dst x.ty.isWide x.dst]
  | .bfi x => [src x.ty.isWide x.a, src x.ty.isWide x.b, src false x.c, dst x.ty.isWide x.dst]
  | .popc x => [src x.ty.isWide x.a, dst false x.dst]
  | .clz x => [src x.ty.isWide x.a, dst false x.dst]
  | .brev x => [src x.ty.isWide x.a, dst x.ty.isWide x.dst]
  | .icmp x => [src x.ty.isWide x.a, src x.ty.isWide x.b, dst false x.dst]
  | .addc x => [src x.ty.isWide x.a, src x.ty.isWide x.b, src x.ty.isWide x.c, dst x.ty.isWide x.dst,
                predDst (x.sub.extractLsb' 0 3).toNat]
  | .lea x => [src true x.a, src x.ty.isWide x.b, dst true x.dst]
  | .iadd3 x => [src x.ty.isWide x.a, src x.ty.isWide x.b, src x.ty.isWide x.c, dst x.ty.isWide x.dst]
  | .sati x => [src (subWide x.sub) x.a, dst x.ty.isWide x.dst]
  | .fadd x => [src x.ty.isWide x.a, src x.ty.isWide x.b, dst x.ty.isWide x.dst]
  | .fsub x => [src x.ty.isWide x.a, src x.ty.isWide x.b, dst x.ty.isWide x.dst]
  | .fmul x => [src x.ty.isWide x.a, src x.ty.isWide x.b, dst x.ty.isWide x.dst]
  | .ffma x => [src x.ty.isWide x.a, src x.ty.isWide x.b, src x.ty.isWide x.c, dst x.ty.isWide x.dst]
  | .fmin x => [src x.ty.isWide x.a, src x.ty.isWide x.b, dst x.ty.isWide x.dst]
  | .fmax x => [src x.ty.isWide x.a, src x.ty.isWide x.b, dst x.ty.isWide x.dst]
  | .fcmp x => [src x.ty.isWide x.a, src x.ty.isWide x.b, dst false x.dst]
  | .fclass x => if x.dst.cls = .p then [src x.ty.isWide x.a, src false x.b, dst false x.dst] else [src x.ty.isWide x.a, dst false x.dst]
  | .frnd x => [src x.ty.isWide x.a, dst x.ty.isWide x.dst]
  | .fcvt x => if x.aux = 0 then [src (x.sub = 5) x.a, dst x.ty.isWide x.dst] else [src false x.a, src false x.b, dst x.ty.isWide x.dst]
  | .ftoi x => [src (x.sub = 5) x.a, dst x.ty.isWide x.dst]
  | .itof x => [src (subWide x.sub) x.a, dst x.ty.isWide x.dst]
  | .exp2 x => [src x.ty.isWide x.a, dst x.ty.isWide x.dst]
  | .log2 x => [src x.ty.isWide x.a, dst x.ty.isWide x.dst]
  | .rcp x => [src x.ty.isWide x.a, dst x.ty.isWide x.dst]
  | .rsq x => [src x.ty.isWide x.a, dst x.ty.isWide x.dst]
  | .sqrt x => [src x.ty.isWide x.a, dst x.ty.isWide x.dst]
  | .sin x => [src x.ty.isWide x.a, dst x.ty.isWide x.dst]
  | .cos x => [src x.ty.isWide x.a, dst x.ty.isWide x.dst]
  | .fdot2 x => [src false x.a, src false x.b, src false x.c, dst false x.dst]
  | .fpk2 x => [src false x.a, src false x.b, src false x.c, dst false x.dst]
  | .fscale x => [src x.ty.isWide x.a, src false x.b, dst x.ty.isWide x.dst]
  | .fmed3 x => [src x.ty.isWide x.a, src x.ty.isWide x.b, src x.ty.isWide x.c, dst x.ty.isWide x.dst]
  | .ffrac x => [src x.ty.isWide x.a, dst x.ty.isWide x.dst]
  | .hfma2 x => [src false x.a, src false x.b, src false x.c, dst false x.dst]
  | .hadd2 x => [src false x.a, src false x.b, dst false x.dst]
  | .hmul2 x => [src false x.a, src false x.b, dst false x.dst]
  | .qdot4 x => [src false x.a, src false x.b, src false x.c, dst false x.dst]
  | .qswz x => [src x.ty.isWide x.a, dst x.ty.isWide x.dst]
  | .ballot x => [src x.ty.isWide x.a, dst true x.dst]
  | .vote x => [src x.ty.isWide x.a, dst false x.dst]
  | .shfl x => [src x.ty.isWide x.a, src false x.b, src x.ty.isWide x.c, dst x.ty.isWide x.dst]
  | .bcast x => [src x.ty.isWide x.a, dst x.ty.isWide x.dst]
  | .redux x => [src x.ty.isWide x.a, dst x.ty.isWide x.dst]
  | .scanx x => [src x.ty.isWide x.a, dst x.ty.isWide x.dst]
  | .match x => [src x.ty.isWide x.a, dst true x.dst]
  | .readlane x => [src x.ty.isWide x.a, src false x.b, dst x.ty.isWide x.dst]
  | .writelane x => [src x.ty.isWide x.a, src false x.b, dst x.ty.isWide x.dst]
  | .xshuf x => [src x.ty.isWide x.a, src false x.b, dst x.ty.isWide x.dst]
  | .xshufMatch _ _ => []
  | .xshufTimeout _ => []
  | .br _ => []
  | .brc x => [src false x.cond]
  | .stackSpillDone _ => []
  | .brx x => [src true x.a]
  | .call x => [dst true x.link]
  | .ret x => [src true x.a]
  | .knit _ => []
  | .knitFuse _ _ => []
  | .knitTimeout _ _ => []
  | .implicitKnitFuse _ _ => []
  | .implicitKnitTimeout _ _ => []
  | .cutctl x => [dst false x.dst]
  | .rep x => [src false x.cond]
  | .lpin x => [src false x.cond]
  | .exit _ => []
  | .lastExitResume _ => []
  | .waitn x => [src false x.a]
  | .waitnRelease _ => []
  | .missCut _ => []
  | .lineWaitRelease _ => []
  | .lineRefetch _ => []
  | .yield _ => []
  | .setfmt x => [src false x.a, src false x.b]
  | .getst x => [dst false x.dst]
  | .sleep x => [src false x.a]
  | .sleepExpiry _ => []
  | .ld x => [src true x.addr, dstRun (WF.sizeRegs x.szty) x.reg]
  | .st x => [src true x.addr, readRun (WF.sizeRegs x.szty) x.reg]
  | .lds x => [src true x.addr, dstRun (WF.sizeRegs x.szty) x.reg]
  | .ldx x => [src true x.addr, dstRun (WF.sizeRegs x.szty) x.reg]
  | .stx x => [src true x.addr, readRun (WF.sizeRegs x.szty) x.reg]
  | .ldw x => [src true x.addr, readRun 1 x.reg]
  | .prf x => [src true x.addr]
  | .invl x => [src true x.addr]
  | .invlAll _ => []
  | .wbl x => [src true x.addr]
  | .wblAll _ => []
  | .fence _ => []
  | .fenceWaitDone _ => []
  | .fencex _ => []
  | .fencexWaitDone _ => []
  | .monw x => [src true x.addr, readRun (if x.szty.toNat < 8 then 1 else 2) x.reg]
  | .monwWake _ => []
  | .monwPollExpiry _ => []
  | .atom x => [src true x.addr, readRun (if WF.atomWide x.szty then 2 else 1) x.reg, dstRun (if WF.atomWide x.szty then 2 else 1) x.reg]
  | .atomc x => [src true x.addr, readRun (if x.szty = 1 then 4 else 2) x.reg, dstRun (if x.szty = 1 then 2 else 1) x.reg]
  | .red x => [src true x.addr, readRun (if WF.atomWide x.szty then 2 else 1) x.reg]
  | .atomicStep _ _ => []
  | .fixedOrderResolve _ => []
  | .bcopy x => [run 8 x.a, run (if x.mod.getLsbD 1 then 4 else 1) x.b, dst false x.dst]
  | .gcopy x => [run 8 x.a, run (if x.mod.getLsbD 1 then 4 else 1) x.b, run 2 x.c, dst false x.dst]
  | .scopy x => [run 8 x.a, run (if x.mod.getLsbD 1 then 4 else 1) x.b, run 2 x.c, dst false x.dst]
  | .copyWritePerformed _ _ => []
  | .copyComplete _ => []
  | .wswrite x => [run 2 x.a, src false x.b, readRun 1 x.dst]
  | .wswriteComplete _ => []
  | .wswin x => [src false x.a, dst true x.dst]
  | .wsWindowEnd _ _ => []
  | .cpoll x => [src false x.a, dst false x.dst]
  | .mcst x => [src true x.addr, readRun (WF.sizeRegs x.szty) x.reg]
  | .mred x => [src true x.addr, readRun (if WF.atomWide x.szty then 2 else 1) x.reg]
  | .mcstDeliveryPerformed _ _ _ => []
  | .macq _ => []
  | .macqGrant _ => []
  | .macqTimeout _ => []
  | .mrel _ => []
  | .mma x => [run 8 x.a]
  | .mmas x => [run 8 x.a]
  | .fmuOperandsConsumed _ _ => []
  | .fmuOpComplete _ _ => []
  | .mfence x => [dst false x.dst]
  | .mwait x => [src false x.a]
  | .mwaitRelease _ => []
  | .mrd x => [src false x.a, dst (WF.cellWide x.mod) x.dst]
  | .mwr x => [src false x.a, src (WF.cellWide x.mod) x.b]
  | .mdrain x => [run 2 x.a, src false x.b]
  | .twld x => [run 2 x.a]
  | .tmac x => [run 2 x.a]
  | .tdrain x => [run 6 x.a]
  | .tzero _ => []
  | .tzeroPlane _ => []
  | .taOperandsConsumed _ _ => []
  | .taOpStart _ => []
  | .twldComplete _ => []
  | .tmacComplete _ => []
  | .tdrainComplete _ _ => []
  | .tzeroComplete _ => []
  | .tpack x => [src false x.a, src false x.b, src false x.c, dst false x.dst]
  | .tunpk x => [src false x.a, src false x.b, dst true x.dst]
  | .tqnt x => [src false x.a, src false x.b, dst false x.dst]
  | .tstat x => [dst false x.dst]
  | .smp x => [run 2 x.a, run 8 x.b, run 1 x.c, dstRun (sampRegs x) x.dst]
  | .smpl x => [run 3 x.a, run 8 x.b, run 1 x.c, dstRun (sampRegs x) x.dst]
  | .smpg x => [run 6 x.a, run 8 x.b, run 1 x.c, dstRun (sampRegs x) x.dst]
  | .gath4 x => [run 3 x.a, run 8 x.b, run 1 x.c, dstRun 4 x.dst]
  | .txld x => [run 3 x.a, run 8 x.b, dstRun (sampRegs x) x.dst]
  | .ldec x => [run 4 x.a, src false x.b, run 2 x.c, dst false x.dst]
  | .samplerComplete _ _ => []
  | .edge x => [run 12 x.a, src false x.b, dst false x.dst]
  | .tileq x => [dstRun 16 x.dst]
  | .tileRecordHandout _ _ => []
  | .emit x => [run 6 x.a, src false x.b]
  | .rasterAccept _ => []
  | .rtrace x => [run 8 x.a, run 2 x.b]
  | .rtraceComplete _ _ => []
  | .rhit x => [dstRun 8 x.dst]
  | .imgst x => [run 3 x.a, run (sampRegs x) x.b, run 8 x.c]
  | .imgstComplete _ _ => []
  | .rninv x => [run 2 x.a]
  | .rninvAll _ => []
  | .bari x => [src false x.a, src false x.b]
  | .bariGroup x => [src false x.a]
  | .arrive x => [src false x.a, dst false x.dst]
  | .arrdrop x => [src false x.a]
  | .bwait x => [src false x.a, src false x.b]
  | .bwaitPass _ => []
  | .bexpect x => [src false x.a, src false x.b]
  | .qpush x => [src false x.a]
  | .qpushResume _ => []
  | .qpop x => [dst false x.dst]
  | .qpopResume _ => []
  | .qtry x => [dst true x.dst]
  | .qallow x => [src false x.a, src false x.b]
  | .qallowInit x => [src false x.a, src false x.b]
  | .gbar _ => []
  | .gbarComplete _ => []
  | .launch x => [run 2 x.a, dst false x.dst]
  | .grun x => [run 2 x.a, dst false x.dst]
  | .cancelHandle x => [src false x.a]
  | .cancelLaunch _ => []
  | .cancelPhase _ => []
  | .cancelJob _ => []
  | .ccwait x => [run 2 x.a, run 2 x.b, dst true x.dst]
  | .ccwaitWake _ => []
  | .ccwaitPollExpiry _ => []
  | .rosb x => [run 16 x.a]
  | .rosbAdmit _ => []
  | .rose _ => []
  | .trap x => if x.a = Src.none then [] else [src false x.a]
  | .brk _ => []
  | .rettReissue x => [src false x.a, dst false x.dst]
  | .rettSkip x => [src false x.a, dst false x.dst]
  | .rettPc x => [src false x.a, run 2 x.b, dst false x.dst]
  | .rettEnd x => [src false x.a, dst false x.dst]
  | .rdsr x => [dst (x.imm.getLsbD 16) x.dst]
  | .wrsr x => [src false x.a]
  | .bootctlReadyWrite => []
  | .tlbinvAll _ => []
  | .tlbinvAsid x => [src false x.a]
  | .tlbinvPage x => [src false x.a, run 2 x.b]
  | .assayPut x => [src false x.a]
  | .assayFrz _ => []
  | .assayRun _ => []
  | .mark x => [src false x.a]
  | .logctl x => [src false x.a, dst false x.dst]
  | .seqrdTime x => [dst true x.dst]
  | .seqrdDseq x => [dst true x.dst]
  | .seqrdOrd x => [dst true x.dst]
  | .dvreq x => [src false x.a, src false x.b, dst false x.dst]
  | .haltSave x => [src false x.a, dst false x.dst]
  | .haltGo x => [src false x.a, dst false x.dst]
  | .haltReset x => [src false x.a, dst false x.dst]
  | .haltDevice x => [dst false x.dst]
  | .contextReset _ => []
  | .loadComplete _ _ => []
  | .storePerformed _ _ => []
  | .ldwComplete _ _ => []
  | .prefetchPlaced _ _ => []
  | .l1Evict _ _ => []
  | .pageWalk _ _ _ => []
  | .fltdoneWrite _ => []
  | .partRestore _ => []
  | .faultBufferDrain _ => []
  | .trapBufferDrain _ => []
  | .jobaddrWrite _ _ _ => []
  | .jobIntake _ => []
  | .unitLeaveWaiting _ => []
  | .unitChecking _ => []
  | .phaseStart _ => []
  | .graphNodeStart _ _ => []
  | .weightStage _ => []
  | .groupDispatch _ _ => []
  | .waveDispatch _ => []
  | .groupEnd _ => []
  | .unitEnd _ => []
  | .partSwap _ _ => []
  | .forcedSwap _ _ => []
  | .preempt _ => []
  | .groupRestore _ _ => []
  | .drawWatchdog _ => []
  | .freezeAttach _ => []
  | .freezeRelease _ => []
  | .freezeLimitExpiry _ => []
  | .bpBroadcastWrite _ _ _ => []
  | .hpctlWrite _ => []
  | .profileSample _ _ => []
  | .bucketWindow => []
  | .qbktWrite _ _ _ => []
  | .requestInject _ _ => []
  | .hostMemRequest _ _ _ => []
  | .backInvalidate _ _ => []
  | .domainRequestIn _ => []
  | .fabricLossResponse _ => []
  | .fabricTimeout _ => []
  | .collOpen _ => []
  | .collClose _ => []
  | .collDeliveryIn _ _ => []
  | .rstreqWrite _ _ => []
  | .coldReset _ => []
  | .warmResetHost _ => []
  | .warmResetFatal _ => []
  | .planisherWindow _ => []
  | .lowRailWindow _ _ _ _ => []
  | .lowRailWake _ _ => []
  | .lowRailWakeDone _ _ => []
  | .dvfsRampEnd _ => []
  | .thermalSample _ => []
  | .tripChange _ => []
  | .trip4PowerOff => []
  | .deviceTimeWrap => []
  | .registerWrite _ _ => []
  | .spdmRequest _ => []
  | .configRequest _ _ => []

/-- PNEG, PRED and CSEL; an event has none. -/
def Instr.head (i : Instr) : Option (Bool × BitVec 3 × Csel) :=
  match i with
  | .nop x => some (x.pneg, x.pred, .uncounted)
  | .mov x => some (x.h.pneg, x.h.pred, x.h.csel)
  | .movi x => some (x.h.pneg, x.h.pred, x.h.csel)
  | .sel x => some (x.h.pneg, x.h.pred, x.h.csel)
  | .iadd x => some (x.h.pneg, x.h.pred, x.h.csel)
  | .isub x => some (x.h.pneg, x.h.pred, x.h.csel)
  | .imul x => some (x.h.pneg, x.h.pred, x.h.csel)
  | .imulh x => some (x.h.pneg, x.h.pred, x.h.csel)
  | .imad x => some (x.h.pneg, x.h.pred, x.h.csel)
  | .imin x => some (x.h.pneg, x.h.pred, x.h.csel)
  | .imax x => some (x.h.pneg, x.h.pred, x.h.csel)
  | .iabs x => some (x.h.pneg, x.h.pred, x.h.csel)
  | .and x => some (x.h.pneg, x.h.pred, x.h.csel)
  | .or x => some (x.h.pneg, x.h.pred, x.h.csel)
  | .xor x => some (x.h.pneg, x.h.pred, x.h.csel)
  | .not x => some (x.h.pneg, x.h.pred, x.h.csel)
  | .shl x => some (x.h.pneg, x.h.pred, x.h.csel)
  | .shr x => some (x.h.pneg, x.h.pred, x.h.csel)
  | .rot x => some (x.h.pneg, x.h.pred, x.h.csel)
  | .bfx x => some (x.h.pneg, x.h.pred, x.h.csel)
  | .bfi x => some (x.h.pneg, x.h.pred, x.h.csel)
  | .popc x => some (x.h.pneg, x.h.pred, x.h.csel)
  | .clz x => some (x.h.pneg, x.h.pred, x.h.csel)
  | .brev x => some (x.h.pneg, x.h.pred, x.h.csel)
  | .icmp x => some (x.h.pneg, x.h.pred, x.h.csel)
  | .addc x => some (x.h.pneg, x.h.pred, x.h.csel)
  | .lea x => some (x.h.pneg, x.h.pred, x.h.csel)
  | .iadd3 x => some (x.h.pneg, x.h.pred, x.h.csel)
  | .sati x => some (x.h.pneg, x.h.pred, x.h.csel)
  | .fadd x => some (x.h.pneg, x.h.pred, x.h.csel)
  | .fsub x => some (x.h.pneg, x.h.pred, x.h.csel)
  | .fmul x => some (x.h.pneg, x.h.pred, x.h.csel)
  | .ffma x => some (x.h.pneg, x.h.pred, x.h.csel)
  | .fmin x => some (x.h.pneg, x.h.pred, x.h.csel)
  | .fmax x => some (x.h.pneg, x.h.pred, x.h.csel)
  | .fcmp x => some (x.h.pneg, x.h.pred, x.h.csel)
  | .fclass x => some (x.h.pneg, x.h.pred, x.h.csel)
  | .frnd x => some (x.h.pneg, x.h.pred, x.h.csel)
  | .fcvt x => some (x.h.pneg, x.h.pred, x.h.csel)
  | .ftoi x => some (x.h.pneg, x.h.pred, x.h.csel)
  | .itof x => some (x.h.pneg, x.h.pred, x.h.csel)
  | .exp2 x => some (x.h.pneg, x.h.pred, x.h.csel)
  | .log2 x => some (x.h.pneg, x.h.pred, x.h.csel)
  | .rcp x => some (x.h.pneg, x.h.pred, x.h.csel)
  | .rsq x => some (x.h.pneg, x.h.pred, x.h.csel)
  | .sqrt x => some (x.h.pneg, x.h.pred, x.h.csel)
  | .sin x => some (x.h.pneg, x.h.pred, x.h.csel)
  | .cos x => some (x.h.pneg, x.h.pred, x.h.csel)
  | .fdot2 x => some (x.h.pneg, x.h.pred, x.h.csel)
  | .fpk2 x => some (x.h.pneg, x.h.pred, x.h.csel)
  | .fscale x => some (x.h.pneg, x.h.pred, x.h.csel)
  | .fmed3 x => some (x.h.pneg, x.h.pred, x.h.csel)
  | .ffrac x => some (x.h.pneg, x.h.pred, x.h.csel)
  | .hfma2 x => some (x.h.pneg, x.h.pred, x.h.csel)
  | .hadd2 x => some (x.h.pneg, x.h.pred, x.h.csel)
  | .hmul2 x => some (x.h.pneg, x.h.pred, x.h.csel)
  | .qdot4 x => some (x.h.pneg, x.h.pred, x.h.csel)
  | .qswz x => some (x.h.pneg, x.h.pred, x.h.csel)
  | .ballot x => some (x.h.pneg, x.h.pred, x.h.csel)
  | .vote x => some (x.h.pneg, x.h.pred, x.h.csel)
  | .shfl x => some (x.h.pneg, x.h.pred, x.h.csel)
  | .bcast x => some (x.h.pneg, x.h.pred, x.h.csel)
  | .redux x => some (x.h.pneg, x.h.pred, x.h.csel)
  | .scanx x => some (x.h.pneg, x.h.pred, x.h.csel)
  | .match x => some (x.h.pneg, x.h.pred, x.h.csel)
  | .readlane x => some (x.h.pneg, x.h.pred, x.h.csel)
  | .writelane x => some (x.h.pneg, x.h.pred, x.h.csel)
  | .xshuf x => some (x.h.pneg, x.h.pred, x.h.csel)
  | .xshufMatch _ _ => none
  | .xshufTimeout _ => none
  | .br x => some (x.h.pneg, x.h.pred, x.h.csel)
  | .brc x => some (x.h.pneg, x.h.pred, x.h.csel)
  | .stackSpillDone _ => none
  | .brx x => some (x.h.pneg, x.h.pred, x.h.csel)
  | .call x => some (x.h.pneg, x.h.pred, x.h.csel)
  | .ret x => some (x.h.pneg, x.h.pred, x.h.csel)
  | .knit x => some (x.h.pneg, x.h.pred, x.h.csel)
  | .knitFuse _ _ => none
  | .knitTimeout _ _ => none
  | .implicitKnitFuse _ _ => none
  | .implicitKnitTimeout _ _ => none
  | .cutctl x => some (x.h.pneg, x.h.pred, x.h.csel)
  | .rep x => some (x.h.pneg, x.h.pred, x.h.csel)
  | .lpin x => some (x.h.pneg, x.h.pred, x.h.csel)
  | .exit x => some (x.h.pneg, x.h.pred, x.h.csel)
  | .lastExitResume _ => none
  | .waitn x => some (x.h.pneg, x.h.pred, x.h.csel)
  | .waitnRelease _ => none
  | .missCut _ => none
  | .lineWaitRelease _ => none
  | .lineRefetch _ => none
  | .yield x => some (x.h.pneg, x.h.pred, x.h.csel)
  | .setfmt x => some (x.h.pneg, x.h.pred, x.h.csel)
  | .getst x => some (x.h.pneg, x.h.pred, x.h.csel)
  | .sleep x => some (x.h.pneg, x.h.pred, x.h.csel)
  | .sleepExpiry _ => none
  | .ld x => some (x.h.pneg, x.h.pred, x.h.csel)
  | .st x => some (x.h.pneg, x.h.pred, x.h.csel)
  | .lds x => some (x.h.pneg, x.h.pred, x.h.csel)
  | .ldx x => some (x.h.pneg, x.h.pred, x.h.csel)
  | .stx x => some (x.h.pneg, x.h.pred, x.h.csel)
  | .ldw x => some (x.h.pneg, x.h.pred, x.h.csel)
  | .prf x => some (x.h.pneg, x.h.pred, x.h.csel)
  | .invl x => some (x.h.pneg, x.h.pred, x.h.csel)
  | .invlAll x => some (x.h.pneg, x.h.pred, x.h.csel)
  | .wbl x => some (x.h.pneg, x.h.pred, x.h.csel)
  | .wblAll x => some (x.h.pneg, x.h.pred, x.h.csel)
  | .fence x => some (x.h.pneg, x.h.pred, x.h.csel)
  | .fenceWaitDone _ => none
  | .fencex x => some (x.h.pneg, x.h.pred, x.h.csel)
  | .fencexWaitDone _ => none
  | .monw x => some (x.h.pneg, x.h.pred, x.h.csel)
  | .monwWake _ => none
  | .monwPollExpiry _ => none
  | .atom x => some (x.h.pneg, x.h.pred, x.h.csel)
  | .atomc x => some (x.h.pneg, x.h.pred, x.h.csel)
  | .red x => some (x.h.pneg, x.h.pred, x.h.csel)
  | .atomicStep _ _ => none
  | .fixedOrderResolve _ => none
  | .bcopy x => some (x.h.pneg, x.h.pred, x.h.csel)
  | .gcopy x => some (x.h.pneg, x.h.pred, x.h.csel)
  | .scopy x => some (x.h.pneg, x.h.pred, x.h.csel)
  | .copyWritePerformed _ _ => none
  | .copyComplete _ => none
  | .wswrite x => some (x.h.pneg, x.h.pred, x.h.csel)
  | .wswriteComplete _ => none
  | .wswin x => some (x.h.pneg, x.h.pred, x.h.csel)
  | .wsWindowEnd _ _ => none
  | .cpoll x => some (x.h.pneg, x.h.pred, x.h.csel)
  | .mcst x => some (x.h.pneg, x.h.pred, x.h.csel)
  | .mred x => some (x.h.pneg, x.h.pred, x.h.csel)
  | .mcstDeliveryPerformed _ _ _ => none
  | .macq x => some (x.h.pneg, x.h.pred, x.h.csel)
  | .macqGrant _ => none
  | .macqTimeout _ => none
  | .mrel x => some (x.h.pneg, x.h.pred, x.h.csel)
  | .mma x => some (x.h.pneg, x.h.pred, x.h.csel)
  | .mmas x => some (x.h.pneg, x.h.pred, x.h.csel)
  | .fmuOperandsConsumed _ _ => none
  | .fmuOpComplete _ _ => none
  | .mfence x => some (x.h.pneg, x.h.pred, x.h.csel)
  | .mwait x => some (x.h.pneg, x.h.pred, x.h.csel)
  | .mwaitRelease _ => none
  | .mrd x => some (x.h.pneg, x.h.pred, x.h.csel)
  | .mwr x => some (x.h.pneg, x.h.pred, x.h.csel)
  | .mdrain x => some (x.h.pneg, x.h.pred, x.h.csel)
  | .twld x => some (x.h.pneg, x.h.pred, x.h.csel)
  | .tmac x => some (x.h.pneg, x.h.pred, x.h.csel)
  | .tdrain x => some (x.h.pneg, x.h.pred, x.h.csel)
  | .tzero x => some (x.h.pneg, x.h.pred, x.h.csel)
  | .tzeroPlane x => some (x.h.pneg, x.h.pred, x.h.csel)
  | .taOperandsConsumed _ _ => none
  | .taOpStart _ => none
  | .twldComplete _ => none
  | .tmacComplete _ => none
  | .tdrainComplete _ _ => none
  | .tzeroComplete _ => none
  | .tpack x => some (x.h.pneg, x.h.pred, x.h.csel)
  | .tunpk x => some (x.h.pneg, x.h.pred, x.h.csel)
  | .tqnt x => some (x.h.pneg, x.h.pred, x.h.csel)
  | .tstat x => some (x.h.pneg, x.h.pred, x.h.csel)
  | .smp x => some (x.h.pneg, x.h.pred, x.h.csel)
  | .smpl x => some (x.h.pneg, x.h.pred, x.h.csel)
  | .smpg x => some (x.h.pneg, x.h.pred, x.h.csel)
  | .gath4 x => some (x.h.pneg, x.h.pred, x.h.csel)
  | .txld x => some (x.h.pneg, x.h.pred, x.h.csel)
  | .ldec x => some (x.h.pneg, x.h.pred, x.h.csel)
  | .samplerComplete _ _ => none
  | .edge x => some (x.h.pneg, x.h.pred, x.h.csel)
  | .tileq x => some (x.h.pneg, x.h.pred, x.h.csel)
  | .tileRecordHandout _ _ => none
  | .emit x => some (x.h.pneg, x.h.pred, x.h.csel)
  | .rasterAccept _ => none
  | .rtrace x => some (x.h.pneg, x.h.pred, x.h.csel)
  | .rtraceComplete _ _ => none
  | .rhit x => some (x.h.pneg, x.h.pred, x.h.csel)
  | .imgst x => some (x.h.pneg, x.h.pred, x.h.csel)
  | .imgstComplete _ _ => none
  | .rninv x => some (x.h.pneg, x.h.pred, x.h.csel)
  | .rninvAll x => some (x.h.pneg, x.h.pred, x.h.csel)
  | .bari x => some (x.h.pneg, x.h.pred, x.h.csel)
  | .bariGroup x => some (x.h.pneg, x.h.pred, x.h.csel)
  | .arrive x => some (x.h.pneg, x.h.pred, x.h.csel)
  | .arrdrop x => some (x.h.pneg, x.h.pred, x.h.csel)
  | .bwait x => some (x.h.pneg, x.h.pred, x.h.csel)
  | .bwaitPass _ => none
  | .bexpect x => some (x.h.pneg, x.h.pred, x.h.csel)
  | .qpush x => some (x.h.pneg, x.h.pred, x.h.csel)
  | .qpushResume _ => none
  | .qpop x => some (x.h.pneg, x.h.pred, x.h.csel)
  | .qpopResume _ => none
  | .qtry x => some (x.h.pneg, x.h.pred, x.h.csel)
  | .qallow x => some (x.h.pneg, x.h.pred, x.h.csel)
  | .qallowInit x => some (x.h.pneg, x.h.pred, x.h.csel)
  | .gbar x => some (x.h.pneg, x.h.pred, x.h.csel)
  | .gbarComplete _ => none
  | .launch x => some (x.h.pneg, x.h.pred, x.h.csel)
  | .grun x => some (x.h.pneg, x.h.pred, x.h.csel)
  | .cancelHandle x => some (x.h.pneg, x.h.pred, x.h.csel)
  | .cancelLaunch x => some (x.h.pneg, x.h.pred, x.h.csel)
  | .cancelPhase x => some (x.h.pneg, x.h.pred, x.h.csel)
  | .cancelJob x => some (x.h.pneg, x.h.pred, x.h.csel)
  | .ccwait x => some (x.h.pneg, x.h.pred, x.h.csel)
  | .ccwaitWake _ => none
  | .ccwaitPollExpiry _ => none
  | .rosb x => some (x.h.pneg, x.h.pred, x.h.csel)
  | .rosbAdmit _ => none
  | .rose x => some (x.h.pneg, x.h.pred, x.h.csel)
  | .trap x => some (x.h.pneg, x.h.pred, x.h.csel)
  | .brk x => some (x.h.pneg, x.h.pred, x.h.csel)
  | .rettReissue x => some (x.h.pneg, x.h.pred, x.h.csel)
  | .rettSkip x => some (x.h.pneg, x.h.pred, x.h.csel)
  | .rettPc x => some (x.h.pneg, x.h.pred, x.h.csel)
  | .rettEnd x => some (x.h.pneg, x.h.pred, x.h.csel)
  | .rdsr x => some (x.h.pneg, x.h.pred, x.h.csel)
  | .wrsr x => some (x.h.pneg, x.h.pred, x.h.csel)
  | .bootctlReadyWrite => none
  | .tlbinvAll x => some (x.h.pneg, x.h.pred, x.h.csel)
  | .tlbinvAsid x => some (x.h.pneg, x.h.pred, x.h.csel)
  | .tlbinvPage x => some (x.h.pneg, x.h.pred, x.h.csel)
  | .assayPut x => some (x.h.pneg, x.h.pred, x.h.csel)
  | .assayFrz x => some (x.h.pneg, x.h.pred, x.h.csel)
  | .assayRun x => some (x.h.pneg, x.h.pred, x.h.csel)
  | .mark x => some (x.h.pneg, x.h.pred, x.h.csel)
  | .logctl x => some (x.h.pneg, x.h.pred, x.h.csel)
  | .seqrdTime x => some (x.h.pneg, x.h.pred, x.h.csel)
  | .seqrdDseq x => some (x.h.pneg, x.h.pred, x.h.csel)
  | .seqrdOrd x => some (x.h.pneg, x.h.pred, x.h.csel)
  | .dvreq x => some (x.h.pneg, x.h.pred, x.h.csel)
  | .haltSave x => some (x.h.pneg, x.h.pred, x.h.csel)
  | .haltGo x => some (x.h.pneg, x.h.pred, x.h.csel)
  | .haltReset x => some (x.h.pneg, x.h.pred, x.h.csel)
  | .haltDevice x => some (x.h.pneg, x.h.pred, x.h.csel)
  | .contextReset _ => none
  | .loadComplete _ _ => none
  | .storePerformed _ _ => none
  | .ldwComplete _ _ => none
  | .prefetchPlaced _ _ => none
  | .l1Evict _ _ => none
  | .pageWalk _ _ _ => none
  | .fltdoneWrite _ => none
  | .partRestore _ => none
  | .faultBufferDrain _ => none
  | .trapBufferDrain _ => none
  | .jobaddrWrite _ _ _ => none
  | .jobIntake _ => none
  | .unitLeaveWaiting _ => none
  | .unitChecking _ => none
  | .phaseStart _ => none
  | .graphNodeStart _ _ => none
  | .weightStage _ => none
  | .groupDispatch _ _ => none
  | .waveDispatch _ => none
  | .groupEnd _ => none
  | .unitEnd _ => none
  | .partSwap _ _ => none
  | .forcedSwap _ _ => none
  | .preempt _ => none
  | .groupRestore _ _ => none
  | .drawWatchdog _ => none
  | .freezeAttach _ => none
  | .freezeRelease _ => none
  | .freezeLimitExpiry _ => none
  | .bpBroadcastWrite _ _ _ => none
  | .hpctlWrite _ => none
  | .profileSample _ _ => none
  | .bucketWindow => none
  | .qbktWrite _ _ _ => none
  | .requestInject _ _ => none
  | .hostMemRequest _ _ _ => none
  | .backInvalidate _ _ => none
  | .domainRequestIn _ => none
  | .fabricLossResponse _ => none
  | .fabricTimeout _ => none
  | .collOpen _ => none
  | .collClose _ => none
  | .collDeliveryIn _ _ => none
  | .rstreqWrite _ _ => none
  | .coldReset _ => none
  | .warmResetHost _ => none
  | .warmResetFatal _ => none
  | .planisherWindow _ => none
  | .lowRailWindow _ _ _ _ => none
  | .lowRailWake _ _ => none
  | .lowRailWakeDone _ _ => none
  | .dvfsRampEnd _ => none
  | .thermalSample _ => none
  | .tripChange _ => none
  | .trip4PowerOff => none
  | .deviceTimeWrap => none
  | .registerWrite _ _ => none
  | .spdmRequest _ => none
  | .configRequest _ _ => none

/-- MINW (R50, R317); 0 where the format has none. -/
def Instr.width (i : Instr) : Nat :=
  match i with
  | .nop _ => 0
  | .mov _ => 0
  | .movi _ => 0
  | .sel _ => 0
  | .iadd _ => 0
  | .isub _ => 0
  | .imul _ => 0
  | .imulh _ => 0
  | .imad _ => 0
  | .imin _ => 0
  | .imax _ => 0
  | .iabs _ => 0
  | .and _ => 0
  | .or _ => 0
  | .xor _ => 0
  | .not _ => 0
  | .shl _ => 0
  | .shr _ => 0
  | .rot _ => 0
  | .bfx _ => 0
  | .bfi _ => 0
  | .popc _ => 0
  | .clz _ => 0
  | .brev _ => 0
  | .icmp _ => 0
  | .addc _ => 0
  | .lea _ => 0
  | .iadd3 _ => 0
  | .sati _ => 0
  | .fadd _ => 0
  | .fsub _ => 0
  | .fmul _ => 0
  | .ffma _ => 0
  | .fmin _ => 0
  | .fmax _ => 0
  | .fcmp _ => 0
  | .fclass _ => 0
  | .frnd _ => 0
  | .fcvt _ => 0
  | .ftoi _ => 0
  | .itof _ => 0
  | .exp2 _ => 0
  | .log2 _ => 0
  | .rcp _ => 0
  | .rsq _ => 0
  | .sqrt _ => 0
  | .sin _ => 0
  | .cos _ => 0
  | .fdot2 _ => 0
  | .fpk2 _ => 0
  | .fscale _ => 0
  | .fmed3 _ => 0
  | .ffrac _ => 0
  | .hfma2 _ => 0
  | .hadd2 _ => 0
  | .hmul2 _ => 0
  | .qdot4 _ => 0
  | .qswz x => x.minw.toNat
  | .ballot x => x.minw.toNat
  | .vote x => x.minw.toNat
  | .shfl x => x.minw.toNat
  | .bcast x => x.minw.toNat
  | .redux x => x.minw.toNat
  | .scanx x => x.minw.toNat
  | .match x => x.minw.toNat
  | .readlane x => x.minw.toNat
  | .writelane x => x.minw.toNat
  | .xshuf x => x.minw.toNat
  | .xshufMatch _ _ => 0
  | .xshufTimeout _ => 0
  | .br _ => 0
  | .brc _ => 0
  | .stackSpillDone _ => 0
  | .brx _ => 0
  | .call _ => 0
  | .ret _ => 0
  | .knit _ => 0
  | .knitFuse _ _ => 0
  | .knitTimeout _ _ => 0
  | .implicitKnitFuse _ _ => 0
  | .implicitKnitTimeout _ _ => 0
  | .cutctl _ => 0
  | .rep _ => 0
  | .lpin _ => 0
  | .exit _ => 0
  | .lastExitResume _ => 0
  | .waitn _ => 0
  | .waitnRelease _ => 0
  | .missCut _ => 0
  | .lineWaitRelease _ => 0
  | .lineRefetch _ => 0
  | .yield _ => 0
  | .setfmt _ => 0
  | .getst _ => 0
  | .sleep _ => 0
  | .sleepExpiry _ => 0
  | .ld _ => 0
  | .st _ => 0
  | .lds _ => 0
  | .ldx _ => 0
  | .stx _ => 0
  | .ldw _ => 0
  | .prf _ => 0
  | .invl _ => 0
  | .invlAll _ => 0
  | .wbl _ => 0
  | .wblAll _ => 0
  | .fence _ => 0
  | .fenceWaitDone _ => 0
  | .fencex _ => 0
  | .fencexWaitDone _ => 0
  | .monw _ => 0
  | .monwWake _ => 0
  | .monwPollExpiry _ => 0
  | .atom _ => 0
  | .atomc _ => 0
  | .red _ => 0
  | .atomicStep _ _ => 0
  | .fixedOrderResolve _ => 0
  | .bcopy x => x.minw.toNat
  | .gcopy x => x.minw.toNat
  | .scopy x => x.minw.toNat
  | .copyWritePerformed _ _ => 0
  | .copyComplete _ => 0
  | .wswrite x => x.minw.toNat
  | .wswriteComplete _ => 0
  | .wswin x => x.minw.toNat
  | .wsWindowEnd _ _ => 0
  | .cpoll x => x.minw.toNat
  | .mcst _ => 0
  | .mred _ => 0
  | .mcstDeliveryPerformed _ _ _ => 0
  | .macq x => x.minw.toNat
  | .macqGrant _ => 0
  | .macqTimeout _ => 0
  | .mrel x => x.minw.toNat
  | .mma x => x.minw.toNat
  | .mmas x => x.minw.toNat
  | .fmuOperandsConsumed _ _ => 0
  | .fmuOpComplete _ _ => 0
  | .mfence x => x.minw.toNat
  | .mwait x => x.minw.toNat
  | .mwaitRelease _ => 0
  | .mrd x => x.minw.toNat
  | .mwr x => x.minw.toNat
  | .mdrain x => x.minw.toNat
  | .twld x => x.minw.toNat
  | .tmac x => x.minw.toNat
  | .tdrain x => x.minw.toNat
  | .tzero x => x.minw.toNat
  | .tzeroPlane x => x.minw.toNat
  | .taOperandsConsumed _ _ => 0
  | .taOpStart _ => 0
  | .twldComplete _ => 0
  | .tmacComplete _ => 0
  | .tdrainComplete _ _ => 0
  | .tzeroComplete _ => 0
  | .tpack x => x.minw.toNat
  | .tunpk x => x.minw.toNat
  | .tqnt x => x.minw.toNat
  | .tstat x => x.minw.toNat
  | .smp x => x.minw.toNat
  | .smpl x => x.minw.toNat
  | .smpg x => x.minw.toNat
  | .gath4 x => x.minw.toNat
  | .txld x => x.minw.toNat
  | .ldec x => x.minw.toNat
  | .samplerComplete _ _ => 0
  | .edge x => x.minw.toNat
  | .tileq x => x.minw.toNat
  | .tileRecordHandout _ _ => 0
  | .emit x => x.minw.toNat
  | .rasterAccept _ => 0
  | .rtrace x => x.minw.toNat
  | .rtraceComplete _ _ => 0
  | .rhit x => x.minw.toNat
  | .imgst x => x.minw.toNat
  | .imgstComplete _ _ => 0
  | .rninv _ => 0
  | .rninvAll _ => 0
  | .bari x => (x.imm.extractLsb' 16 3).toNat
  | .bariGroup x => (x.imm.extractLsb' 16 3).toNat
  | .arrive x => (x.imm.extractLsb' 16 3).toNat
  | .arrdrop x => (x.imm.extractLsb' 16 3).toNat
  | .bwait x => (x.imm.extractLsb' 16 3).toNat
  | .bwaitPass _ => 0
  | .bexpect x => (x.imm.extractLsb' 16 3).toNat
  | .qpush x => (x.imm.extractLsb' 16 3).toNat
  | .qpushResume _ => 0
  | .qpop x => (x.imm.extractLsb' 16 3).toNat
  | .qpopResume _ => 0
  | .qtry x => (x.imm.extractLsb' 16 3).toNat
  | .qallow x => (x.imm.extractLsb' 16 3).toNat
  | .qallowInit x => (x.imm.extractLsb' 16 3).toNat
  | .gbar x => (x.imm.extractLsb' 16 3).toNat
  | .gbarComplete _ => 0
  | .launch x => (x.imm.extractLsb' 16 3).toNat
  | .grun x => (x.imm.extractLsb' 16 3).toNat
  | .cancelHandle x => (x.imm.extractLsb' 16 3).toNat
  | .cancelLaunch x => (x.imm.extractLsb' 16 3).toNat
  | .cancelPhase x => (x.imm.extractLsb' 16 3).toNat
  | .cancelJob x => (x.imm.extractLsb' 16 3).toNat
  | .ccwait x => (x.imm.extractLsb' 16 3).toNat
  | .ccwaitWake _ => 0
  | .ccwaitPollExpiry _ => 0
  | .rosb x => (x.imm.extractLsb' 16 3).toNat
  | .rosbAdmit _ => 0
  | .rose x => (x.imm.extractLsb' 16 3).toNat
  | .trap _ => 0
  | .brk _ => 0
  | .rettReissue _ => 0
  | .rettSkip _ => 0
  | .rettPc _ => 0
  | .rettEnd _ => 0
  | .rdsr _ => 0
  | .wrsr _ => 0
  | .bootctlReadyWrite => 0
  | .tlbinvAll _ => 0
  | .tlbinvAsid _ => 0
  | .tlbinvPage _ => 0
  | .assayPut _ => 0
  | .assayFrz _ => 0
  | .assayRun _ => 0
  | .mark _ => 0
  | .logctl _ => 0
  | .seqrdTime _ => 0
  | .seqrdDseq _ => 0
  | .seqrdOrd _ => 0
  | .dvreq _ => 0
  | .haltSave _ => 0
  | .haltGo _ => 0
  | .haltReset _ => 0
  | .haltDevice _ => 0
  | .contextReset _ => 0
  | .loadComplete _ _ => 0
  | .storePerformed _ _ => 0
  | .ldwComplete _ _ => 0
  | .prefetchPlaced _ _ => 0
  | .l1Evict _ _ => 0
  | .pageWalk _ _ _ => 0
  | .fltdoneWrite _ => 0
  | .partRestore _ => 0
  | .faultBufferDrain _ => 0
  | .trapBufferDrain _ => 0
  | .jobaddrWrite _ _ _ => 0
  | .jobIntake _ => 0
  | .unitLeaveWaiting _ => 0
  | .unitChecking _ => 0
  | .phaseStart _ => 0
  | .graphNodeStart _ _ => 0
  | .weightStage _ => 0
  | .groupDispatch _ _ => 0
  | .waveDispatch _ => 0
  | .groupEnd _ => 0
  | .unitEnd _ => 0
  | .partSwap _ _ => 0
  | .forcedSwap _ _ => 0
  | .preempt _ => 0
  | .groupRestore _ _ => 0
  | .drawWatchdog _ => 0
  | .freezeAttach _ => 0
  | .freezeRelease _ => 0
  | .freezeLimitExpiry _ => 0
  | .bpBroadcastWrite _ _ _ => 0
  | .hpctlWrite _ => 0
  | .profileSample _ _ => 0
  | .bucketWindow => 0
  | .qbktWrite _ _ _ => 0
  | .requestInject _ _ => 0
  | .hostMemRequest _ _ _ => 0
  | .backInvalidate _ _ => 0
  | .domainRequestIn _ => 0
  | .fabricLossResponse _ => 0
  | .fabricTimeout _ => 0
  | .collOpen _ => 0
  | .collClose _ => 0
  | .collDeliveryIn _ _ => 0
  | .rstreqWrite _ _ => 0
  | .coldReset _ => 0
  | .warmResetHost _ => 0
  | .warmResetFatal _ => 0
  | .planisherWindow _ => 0
  | .lowRailWindow _ _ _ _ => 0
  | .lowRailWake _ _ => 0
  | .lowRailWakeDone _ _ => 0
  | .dvfsRampEnd _ => 0
  | .thermalSample _ => 0
  | .tripChange _ => 0
  | .trip4PowerOff => 0
  | .deviceTimeWrap => 0
  | .registerWrite _ _ => 0
  | .spdmRequest _ => 0
  | .configRequest _ _ => 0

/-- Control-mode instructions (R362): an RDSR is one from number 0x0100 upward. -/
def Instr.control (i : Instr) : Bool :=
  match i with
  | .nop _ => false
  | .mov _ => false
  | .movi _ => false
  | .sel _ => false
  | .iadd _ => false
  | .isub _ => false
  | .imul _ => false
  | .imulh _ => false
  | .imad _ => false
  | .imin _ => false
  | .imax _ => false
  | .iabs _ => false
  | .and _ => false
  | .or _ => false
  | .xor _ => false
  | .not _ => false
  | .shl _ => false
  | .shr _ => false
  | .rot _ => false
  | .bfx _ => false
  | .bfi _ => false
  | .popc _ => false
  | .clz _ => false
  | .brev _ => false
  | .icmp _ => false
  | .addc _ => false
  | .lea _ => false
  | .iadd3 _ => false
  | .sati _ => false
  | .fadd _ => false
  | .fsub _ => false
  | .fmul _ => false
  | .ffma _ => false
  | .fmin _ => false
  | .fmax _ => false
  | .fcmp _ => false
  | .fclass _ => false
  | .frnd _ => false
  | .fcvt _ => false
  | .ftoi _ => false
  | .itof _ => false
  | .exp2 _ => false
  | .log2 _ => false
  | .rcp _ => false
  | .rsq _ => false
  | .sqrt _ => false
  | .sin _ => false
  | .cos _ => false
  | .fdot2 _ => false
  | .fpk2 _ => false
  | .fscale _ => false
  | .fmed3 _ => false
  | .ffrac _ => false
  | .hfma2 _ => false
  | .hadd2 _ => false
  | .hmul2 _ => false
  | .qdot4 _ => false
  | .qswz _ => false
  | .ballot _ => false
  | .vote _ => false
  | .shfl _ => false
  | .bcast _ => false
  | .redux _ => false
  | .scanx _ => false
  | .match _ => false
  | .readlane _ => false
  | .writelane _ => false
  | .xshuf _ => false
  | .xshufMatch _ _ => false
  | .xshufTimeout _ => false
  | .br _ => false
  | .brc _ => false
  | .stackSpillDone _ => false
  | .brx _ => false
  | .call _ => false
  | .ret _ => false
  | .knit _ => false
  | .knitFuse _ _ => false
  | .knitTimeout _ _ => false
  | .implicitKnitFuse _ _ => false
  | .implicitKnitTimeout _ _ => false
  | .cutctl _ => false
  | .rep _ => false
  | .lpin _ => false
  | .exit _ => false
  | .lastExitResume _ => false
  | .waitn _ => false
  | .waitnRelease _ => false
  | .missCut _ => false
  | .lineWaitRelease _ => false
  | .lineRefetch _ => false
  | .yield _ => false
  | .setfmt _ => false
  | .getst _ => false
  | .sleep _ => false
  | .sleepExpiry _ => false
  | .ld _ => false
  | .st _ => false
  | .lds _ => false
  | .ldx _ => false
  | .stx _ => false
  | .ldw _ => false
  | .prf _ => false
  | .invl _ => false
  | .invlAll _ => false
  | .wbl _ => false
  | .wblAll _ => false
  | .fence _ => false
  | .fenceWaitDone _ => false
  | .fencex _ => false
  | .fencexWaitDone _ => false
  | .monw _ => false
  | .monwWake _ => false
  | .monwPollExpiry _ => false
  | .atom _ => false
  | .atomc _ => false
  | .red _ => false
  | .atomicStep _ _ => false
  | .fixedOrderResolve _ => false
  | .bcopy _ => false
  | .gcopy _ => false
  | .scopy _ => false
  | .copyWritePerformed _ _ => false
  | .copyComplete _ => false
  | .wswrite _ => true
  | .wswriteComplete _ => false
  | .wswin _ => false
  | .wsWindowEnd _ _ => false
  | .cpoll _ => false
  | .mcst _ => false
  | .mred _ => false
  | .mcstDeliveryPerformed _ _ _ => false
  | .macq _ => false
  | .macqGrant _ => false
  | .macqTimeout _ => false
  | .mrel _ => false
  | .mma _ => false
  | .mmas _ => false
  | .fmuOperandsConsumed _ _ => false
  | .fmuOpComplete _ _ => false
  | .mfence _ => false
  | .mwait _ => false
  | .mwaitRelease _ => false
  | .mrd _ => false
  | .mwr _ => false
  | .mdrain _ => false
  | .twld _ => false
  | .tmac _ => false
  | .tdrain _ => false
  | .tzero _ => false
  | .tzeroPlane _ => false
  | .taOperandsConsumed _ _ => false
  | .taOpStart _ => false
  | .twldComplete _ => false
  | .tmacComplete _ => false
  | .tdrainComplete _ _ => false
  | .tzeroComplete _ => false
  | .tpack _ => false
  | .tunpk _ => false
  | .tqnt _ => false
  | .tstat _ => false
  | .smp _ => false
  | .smpl _ => false
  | .smpg _ => false
  | .gath4 _ => false
  | .txld _ => false
  | .ldec _ => false
  | .samplerComplete _ _ => false
  | .edge _ => false
  | .tileq _ => false
  | .tileRecordHandout _ _ => false
  | .emit _ => false
  | .rasterAccept _ => false
  | .rtrace _ => false
  | .rtraceComplete _ _ => false
  | .rhit _ => false
  | .imgst _ => false
  | .imgstComplete _ _ => false
  | .rninv _ => false
  | .rninvAll _ => false
  | .bari _ => false
  | .bariGroup _ => false
  | .arrive _ => false
  | .arrdrop _ => false
  | .bwait _ => false
  | .bwaitPass _ => false
  | .bexpect _ => false
  | .qpush _ => false
  | .qpushResume _ => false
  | .qpop _ => false
  | .qpopResume _ => false
  | .qtry _ => false
  | .qallow _ => false
  | .qallowInit _ => false
  | .gbar _ => false
  | .gbarComplete _ => false
  | .launch _ => false
  | .grun _ => false
  | .cancelHandle _ => false
  | .cancelLaunch _ => false
  | .cancelPhase _ => false
  | .cancelJob _ => false
  | .ccwait _ => false
  | .ccwaitWake _ => false
  | .ccwaitPollExpiry _ => false
  | .rosb _ => false
  | .rosbAdmit _ => false
  | .rose _ => false
  | .trap _ => false
  | .brk _ => false
  | .rettReissue _ => true
  | .rettSkip _ => true
  | .rettPc _ => true
  | .rettEnd _ => true
  | .rdsr x => 0x100 ≤ x.imm.toNat % 65536
  | .wrsr _ => true
  | .bootctlReadyWrite => false
  | .tlbinvAll _ => true
  | .tlbinvAsid _ => true
  | .tlbinvPage _ => true
  | .assayPut _ => true
  | .assayFrz _ => true
  | .assayRun _ => true
  | .mark _ => false
  | .logctl _ => true
  | .seqrdTime _ => false
  | .seqrdDseq _ => false
  | .seqrdOrd _ => false
  | .dvreq _ => true
  | .haltSave _ => true
  | .haltGo _ => true
  | .haltReset _ => true
  | .haltDevice _ => true
  | .contextReset _ => false
  | .loadComplete _ _ => false
  | .storePerformed _ _ => false
  | .ldwComplete _ _ => false
  | .prefetchPlaced _ _ => false
  | .l1Evict _ _ => false
  | .pageWalk _ _ _ => false
  | .fltdoneWrite _ => false
  | .partRestore _ => false
  | .faultBufferDrain _ => false
  | .trapBufferDrain _ => false
  | .jobaddrWrite _ _ _ => false
  | .jobIntake _ => false
  | .unitLeaveWaiting _ => false
  | .unitChecking _ => false
  | .phaseStart _ => false
  | .graphNodeStart _ _ => false
  | .weightStage _ => false
  | .groupDispatch _ _ => false
  | .waveDispatch _ => false
  | .groupEnd _ => false
  | .unitEnd _ => false
  | .partSwap _ _ => false
  | .forcedSwap _ _ => false
  | .preempt _ => false
  | .groupRestore _ _ => false
  | .drawWatchdog _ => false
  | .freezeAttach _ => false
  | .freezeRelease _ => false
  | .freezeLimitExpiry _ => false
  | .bpBroadcastWrite _ _ _ => false
  | .hpctlWrite _ => false
  | .profileSample _ _ => false
  | .bucketWindow => false
  | .qbktWrite _ _ _ => false
  | .requestInject _ _ => false
  | .hostMemRequest _ _ _ => false
  | .backInvalidate _ _ => false
  | .domainRequestIn _ => false
  | .fabricLossResponse _ => false
  | .fabricTimeout _ => false
  | .collOpen _ => false
  | .collClose _ => false
  | .collDeliveryIn _ _ => false
  | .rstreqWrite _ _ => false
  | .coldReset _ => false
  | .warmResetHost _ => false
  | .warmResetFatal _ => false
  | .planisherWindow _ => false
  | .lowRailWindow _ _ _ _ => false
  | .lowRailWake _ _ => false
  | .lowRailWakeDone _ _ => false
  | .dvfsRampEnd _ => false
  | .thermalSample _ => false
  | .tripChange _ => false
  | .trip4PowerOff => false
  | .deviceTimeWrap => false
  | .registerWrite _ _ => false
  | .spdmRequest _ => false
  | .configRequest _ _ => false

/-- The major opcode (R51); 0xFF for an event. -/
def Instr.opc (i : Instr) : Nat :=
  match i with
  | .nop _ => 0x00
  | .mov _ => 0x01
  | .movi _ => 0x02
  | .sel _ => 0x03
  | .iadd _ => 0x04
  | .isub _ => 0x05
  | .imul _ => 0x06
  | .imulh _ => 0x07
  | .imad _ => 0x08
  | .imin _ => 0x09
  | .imax _ => 0x0a
  | .iabs _ => 0x0b
  | .and _ => 0x0c
  | .or _ => 0x0d
  | .xor _ => 0x0e
  | .not _ => 0x0f
  | .shl _ => 0x10
  | .shr _ => 0x11
  | .rot _ => 0x12
  | .bfx _ => 0x13
  | .bfi _ => 0x14
  | .popc _ => 0x15
  | .clz _ => 0x16
  | .brev _ => 0x17
  | .icmp _ => 0x18
  | .addc _ => 0x19
  | .lea _ => 0x1a
  | .iadd3 _ => 0x1b
  | .sati _ => 0x1c
  | .fadd _ => 0x20
  | .fsub _ => 0x21
  | .fmul _ => 0x22
  | .ffma _ => 0x23
  | .fmin _ => 0x24
  | .fmax _ => 0x25
  | .fcmp _ => 0x26
  | .fclass _ => 0x27
  | .frnd _ => 0x28
  | .fcvt _ => 0x29
  | .ftoi _ => 0x2a
  | .itof _ => 0x2b
  | .exp2 _ => 0x2c
  | .log2 _ => 0x2d
  | .rcp _ => 0x2e
  | .rsq _ => 0x2f
  | .sqrt _ => 0x30
  | .sin _ => 0x31
  | .cos _ => 0x32
  | .fdot2 _ => 0x33
  | .fpk2 _ => 0x34
  | .fscale _ => 0x35
  | .fmed3 _ => 0x36
  | .ffrac _ => 0x37
  | .hfma2 _ => 0x38
  | .hadd2 _ => 0x39
  | .hmul2 _ => 0x3a
  | .qdot4 _ => 0x3b
  | .qswz _ => 0x40
  | .ballot _ => 0x41
  | .vote _ => 0x42
  | .shfl _ => 0x43
  | .bcast _ => 0x44
  | .redux _ => 0x45
  | .scanx _ => 0x46
  | .match _ => 0x47
  | .readlane _ => 0x48
  | .writelane _ => 0x49
  | .xshuf _ => 0x4a
  | .xshufMatch _ _ => 0xff
  | .xshufTimeout _ => 0xff
  | .br _ => 0x50
  | .brc _ => 0x51
  | .stackSpillDone _ => 0xff
  | .brx _ => 0x52
  | .call _ => 0x53
  | .ret _ => 0x54
  | .knit _ => 0x55
  | .knitFuse _ _ => 0xff
  | .knitTimeout _ _ => 0xff
  | .implicitKnitFuse _ _ => 0xff
  | .implicitKnitTimeout _ _ => 0xff
  | .cutctl _ => 0x56
  | .rep _ => 0x57
  | .lpin _ => 0x58
  | .exit _ => 0x59
  | .lastExitResume _ => 0xff
  | .waitn _ => 0x5a
  | .waitnRelease _ => 0xff
  | .missCut _ => 0xff
  | .lineWaitRelease _ => 0xff
  | .lineRefetch _ => 0xff
  | .yield _ => 0x5b
  | .setfmt _ => 0x5c
  | .getst _ => 0x5d
  | .sleep _ => 0x5e
  | .sleepExpiry _ => 0xff
  | .ld _ => 0x60
  | .st _ => 0x61
  | .lds _ => 0x62
  | .ldx _ => 0x63
  | .stx _ => 0x64
  | .ldw _ => 0x65
  | .prf _ => 0x66
  | .invl _ => 0x67
  | .invlAll _ => 0x67
  | .wbl _ => 0x68
  | .wblAll _ => 0x68
  | .fence _ => 0x69
  | .fenceWaitDone _ => 0xff
  | .fencex _ => 0x6a
  | .fencexWaitDone _ => 0xff
  | .monw _ => 0x6b
  | .monwWake _ => 0xff
  | .monwPollExpiry _ => 0xff
  | .atom _ => 0x6c
  | .atomc _ => 0x6d
  | .red _ => 0x6e
  | .atomicStep _ _ => 0xff
  | .fixedOrderResolve _ => 0xff
  | .bcopy _ => 0x70
  | .gcopy _ => 0x71
  | .scopy _ => 0x72
  | .copyWritePerformed _ _ => 0xff
  | .copyComplete _ => 0xff
  | .wswrite _ => 0x73
  | .wswriteComplete _ => 0xff
  | .wswin _ => 0x74
  | .wsWindowEnd _ _ => 0xff
  | .cpoll _ => 0x75
  | .mcst _ => 0x76
  | .mred _ => 0x77
  | .mcstDeliveryPerformed _ _ _ => 0xff
  | .macq _ => 0x80
  | .macqGrant _ => 0xff
  | .macqTimeout _ => 0xff
  | .mrel _ => 0x81
  | .mma _ => 0x82
  | .mmas _ => 0x83
  | .fmuOperandsConsumed _ _ => 0xff
  | .fmuOpComplete _ _ => 0xff
  | .mfence _ => 0x84
  | .mwait _ => 0x85
  | .mwaitRelease _ => 0xff
  | .mrd _ => 0x86
  | .mwr _ => 0x87
  | .mdrain _ => 0x88
  | .twld _ => 0x90
  | .tmac _ => 0x91
  | .tdrain _ => 0x92
  | .tzero _ => 0x93
  | .tzeroPlane _ => 0x93
  | .taOperandsConsumed _ _ => 0xff
  | .taOpStart _ => 0xff
  | .twldComplete _ => 0xff
  | .tmacComplete _ => 0xff
  | .tdrainComplete _ _ => 0xff
  | .tzeroComplete _ => 0xff
  | .tpack _ => 0x94
  | .tunpk _ => 0x95
  | .tqnt _ => 0x96
  | .tstat _ => 0x97
  | .smp _ => 0xa0
  | .smpl _ => 0xa1
  | .smpg _ => 0xa2
  | .gath4 _ => 0xa3
  | .txld _ => 0xa4
  | .ldec _ => 0xa5
  | .samplerComplete _ _ => 0xff
  | .edge _ => 0xa6
  | .tileq _ => 0xa7
  | .tileRecordHandout _ _ => 0xff
  | .emit _ => 0xa8
  | .rasterAccept _ => 0xff
  | .rtrace _ => 0xa9
  | .rtraceComplete _ _ => 0xff
  | .rhit _ => 0xaa
  | .imgst _ => 0xab
  | .imgstComplete _ _ => 0xff
  | .rninv _ => 0xac
  | .rninvAll _ => 0xac
  | .bari _ => 0xb0
  | .bariGroup _ => 0xb0
  | .arrive _ => 0xb1
  | .arrdrop _ => 0xb2
  | .bwait _ => 0xb3
  | .bwaitPass _ => 0xff
  | .bexpect _ => 0xb4
  | .qpush _ => 0xb5
  | .qpushResume _ => 0xff
  | .qpop _ => 0xb6
  | .qpopResume _ => 0xff
  | .qtry _ => 0xb7
  | .qallow _ => 0xb8
  | .qallowInit _ => 0xb8
  | .gbar _ => 0xb9
  | .gbarComplete _ => 0xff
  | .launch _ => 0xba
  | .grun _ => 0xbb
  | .cancelHandle _ => 0xbc
  | .cancelLaunch _ => 0xbc
  | .cancelPhase _ => 0xbc
  | .cancelJob _ => 0xbc
  | .ccwait _ => 0xbd
  | .ccwaitWake _ => 0xff
  | .ccwaitPollExpiry _ => 0xff
  | .rosb _ => 0xbe
  | .rosbAdmit _ => 0xff
  | .rose _ => 0xbf
  | .trap _ => 0xc0
  | .brk _ => 0xc1
  | .rettReissue _ => 0xc2
  | .rettSkip _ => 0xc2
  | .rettPc _ => 0xc2
  | .rettEnd _ => 0xc2
  | .rdsr _ => 0xc3
  | .wrsr _ => 0xc4
  | .bootctlReadyWrite => 0xff
  | .tlbinvAll _ => 0xc5
  | .tlbinvAsid _ => 0xc5
  | .tlbinvPage _ => 0xc5
  | .assayPut _ => 0xc6
  | .assayFrz _ => 0xc6
  | .assayRun _ => 0xc6
  | .mark _ => 0xc7
  | .logctl _ => 0xc8
  | .seqrdTime _ => 0xc9
  | .seqrdDseq _ => 0xc9
  | .seqrdOrd _ => 0xc9
  | .dvreq _ => 0xca
  | .haltSave _ => 0xcb
  | .haltGo _ => 0xcb
  | .haltReset _ => 0xcb
  | .haltDevice _ => 0xcb
  | .contextReset _ => 0xff
  | .loadComplete _ _ => 0xff
  | .storePerformed _ _ => 0xff
  | .ldwComplete _ _ => 0xff
  | .prefetchPlaced _ _ => 0xff
  | .l1Evict _ _ => 0xff
  | .pageWalk _ _ _ => 0xff
  | .fltdoneWrite _ => 0xff
  | .partRestore _ => 0xff
  | .faultBufferDrain _ => 0xff
  | .trapBufferDrain _ => 0xff
  | .jobaddrWrite _ _ _ => 0xff
  | .jobIntake _ => 0xff
  | .unitLeaveWaiting _ => 0xff
  | .unitChecking _ => 0xff
  | .phaseStart _ => 0xff
  | .graphNodeStart _ _ => 0xff
  | .weightStage _ => 0xff
  | .groupDispatch _ _ => 0xff
  | .waveDispatch _ => 0xff
  | .groupEnd _ => 0xff
  | .unitEnd _ => 0xff
  | .partSwap _ _ => 0xff
  | .forcedSwap _ _ => 0xff
  | .preempt _ => 0xff
  | .groupRestore _ _ => 0xff
  | .drawWatchdog _ => 0xff
  | .freezeAttach _ => 0xff
  | .freezeRelease _ => 0xff
  | .freezeLimitExpiry _ => 0xff
  | .bpBroadcastWrite _ _ _ => 0xff
  | .hpctlWrite _ => 0xff
  | .profileSample _ _ => 0xff
  | .bucketWindow => 0xff
  | .qbktWrite _ _ _ => 0xff
  | .requestInject _ _ => 0xff
  | .hostMemRequest _ _ _ => 0xff
  | .backInvalidate _ _ => 0xff
  | .domainRequestIn _ => 0xff
  | .fabricLossResponse _ => 0xff
  | .fabricTimeout _ => 0xff
  | .collOpen _ => 0xff
  | .collClose _ => 0xff
  | .collDeliveryIn _ _ => 0xff
  | .rstreqWrite _ _ => 0xff
  | .coldReset _ => 0xff
  | .warmResetHost _ => 0xff
  | .warmResetFatal _ => 0xff
  | .planisherWindow _ => 0xff
  | .lowRailWindow _ _ _ _ => 0xff
  | .lowRailWake _ _ => 0xff
  | .lowRailWakeDone _ _ => 0xff
  | .dvfsRampEnd _ => 0xff
  | .thermalSample _ => 0xff
  | .tripChange _ => 0xff
  | .trip4PowerOff => 0xff
  | .deviceTimeWrap => 0xff
  | .registerWrite _ _ => 0xff
  | .spdmRequest _ => 0xff
  | .configRequest _ _ => 0xff

end Sys2Proof
end

