-- ==== Sys2Proof/Machine/Ops.lean ====
section
/-! DEFINITION. The operations every instruction shares: counters and retirement (R30 to R34), taking a trap (R363),
far faults (R339), the checks before issue (R52), and moving on to the successor (R25, R269). -/

namespace Sys2Proof.Machine

open Sys2Proof

/-! ### Trap codes (R361) -/

def codeInstrAddr : Nat := 0x001
def codeLineKind : Nat := 0x002
def codeLineParity : Nat := 0x003
def codeBranchTarget : Nat := 0x004
def codeIllegal : Nat := 0x005
def codePriv : Nat := 0x006
def codeRegRange : Nat := 0x007
def codeWidth : Nat := 0x008
def codeCounter : Nat := 0x009
def codeFmtValue : Nat := 0x00A
def codeFmtCombo : Nat := 0x00B
def codeStack : Nat := 0x101
def codeRepNest : Nat := 0x102
def codeKnit : Nat := 0x103
def codeXshufShape : Nat := 0x104
def codeXshufTimeout : Nat := 0x105
def codeTrapInstr : Nat := 0x106
def codeBrkInstr : Nat := 0x107
def codeBrkMatch : Nat := 0x108
def codeLogFull : Nat := 0x109
def codeSrNum : Nat := 0x10A
def codeAccToken : Nat := 0x201
def codeMmaDesc : Nat := 0x202
def codeBatchRange : Nat := 0x203
def codeTaGrant : Nat := 0x204
def codeTaDesc : Nat := 0x205
def codeTritCode : Nat := 0x206
def codeSampleDesc : Nat := 0x207
def codeTileStream : Nat := 0x208
def codeWsAccess : Nat := 0x209
def codeWsWrite : Nat := 0x20A
def codeWsBusy : Nat := 0x20B
def codeWsDesc : Nat := 0x20C
def codeCopyDesc : Nat := 0x20D
def codeMemAlign : Nat := 0x301
def codeLsRange : Nat := 0x302
def codePrivRange : Nat := 0x303
def codeCollGroup : Nat := 0x305
def codeCollRange : Nat := 0x306
def codeTlbArg : Nat := 0x307
def codeBarState : Nat := 0x401
def codeBarRegs : Nat := 0x402
def codeBarCount : Nat := 0x403
def codeQueueState : Nat := 0x404
def codeQueueOver : Nat := 0x405
def codeGbarFit : Nat := 0x406
def codeRosState : Nat := 0x407
def codeWorkDesc : Nat := 0x408
def codeWorkLimit : Nat := 0x409
def codeMemData : Nat := 0x601
def codeMatrixData : Nat := 0x602
def codeTaData : Nat := 0x603
def codeTritIllegal : Nat := 0x604
def codeSampler : Nat := 0x605
def codeRay : Nat := 0x606
def codeCopyData : Nat := 0x607
def codeOverfill : Nat := 0x608
def codeLoss : Nat := 0x609

/-- A precise trap with nothing beyond its code and PC. -/
def TrapInfo.plain (code : Nat) (pc : Dword) : TrapInfo :=
  { code := code, defer := false, pc := pc, addr := 0, lane := none, val := 0, evt := none, cpc := 0, mask := 0,
    aux0 := 0, aux1 := 0, merged := 0 }

/-- R361: ADDR and VAL of ILLEGAL_INSTR and PRIV_INSTR hold the instruction. -/
def TrapInfo.ofSlot (code : Nat) (pc : Dword) (w : Slot) : TrapInfo :=
  { TrapInfo.plain code pc with addr := w.extractLsb' 0 64, val := w.extractLsb' 64 32 }

/-! ### PCs (R25) -/

/-- R25: the low bits of a slot's PC. -/
def slotOffsets : List Nat := [0x04, 0x10, 0x1C, 0x28, 0x34]

/-- The slot of a PC, if its low bits are legal. -/
def slotOf (pc : Dword) : Option Nat := slotOffsets.findIdx? fun o => o == pc.toNat % 64

/-- R25: a legal PC within the virtual range. -/
def pcLegal (pc : Dword) : Bool := (slotOf pc).isSome && pc.toNat < 2 ^ 57

/-- R25: the sequential successor. -/
def successor (pc : Dword) : Dword := if pc.toNat % 64 = 0x34 then pc + 16 else pc + 12

def lineBase (pc : Dword) : Dword := pc &&& ~~~ 63

/-! ### Counters (R30 to R34) -/

/-- The count of counter n in quad q of a wave: its counted operations that have not retired there (R30). -/
def State.count (s : State) (wave n q : Nat) : Nat :=
  (s.ops.filter fun o => o.wave = wave && o.ctr = some n && o.quads.getLsbD q).length

/-- Quads of a wave in which an older operation of a counter stands. -/
def blockedAt (b : List (Nat × Nat × QuadMask)) (wave n : Nat) : QuadMask :=
  b.foldl (fun m e => if e.1 = wave && e.2.1 = n then m ||| e.2.2 else m) 0

/-- R30: operations retire in issue order, quad by quad; a complete one that no quad still counts is gone. -/
def retireFrom (b : List (Nat × Nat × QuadMask)) : List Op → List Op
  | [] => []
  | o :: r =>
    match o.ctr with
    | none => if o.done then retireFrom b r else o :: retireFrom b r
    | some n =>
      let left := if o.done then o.quads &&& blockedAt b o.wave n else o.quads
      if o.done && left = 0 then retireFrom b r
      else { o with quads := left } :: retireFrom ((o.wave, n, left) :: b) r

def State.retire (s : State) : State := { s with ops := retireFrom [] s.ops }

/-- The counter that CSEL names on the part's line (R31): 15 names none. -/
def lineCounter (p : Part) : Csel → Option Nat
  | .uncounted => none
  | .setA => some (match p.line with | some l => (l.bits.extractLsb' 22 4).toNat | none => 15)
  | .setB => some (match p.line with | some l => (l.bits.extractLsb' 26 4).toNat | none => 15)

/-! ### Queues of system software (R340, R366) -/

/-- Serial of trap and fault records (R340, R364): from 1, skipping 0. -/
def State.nextSerial (s : State) : State × Word :=
  let n := s.trans.serial
  ({ s with trans := { s.trans with serial := if n + 1 = 0 then 1 else n + 1 } }, n)

/-- A queue's base and log size where its table word is legal. -/
def queueOf (e : Nat) : Option (Nat × Nat) :=
  let lg := field e 7 4
  if field e 63 52 = 0 && field e 11 8 = 0 && paLocal (field e 51 12 * 4096) && 4 ≤ lg && lg ≤ 12 then
    some (field e 51 12 * 4096, lg)
  else none

/-- R366: the trap queue of a context with its IRQ bit; none when absent. -/
def State.trapQueue (s : State) (n : Nat) : Option (Nat × Nat × Bool) :=
  let a := s.tables.tqtab + 16 * n
  let e := s.natAt (.dev a) 8
  if nbit e 0 && field e 3 2 = 0 && s.natAt (.dev (a + 8)) 8 = 0 then
    (queueOf e).map fun q => (q.1, q.2, nbit e 1)
  else none

/-- R335: the fault queue of an ASID, as its entry in force gives it; none when absent, or when the entry is in error. -/
def State.faultQueue (s : State) (n : Nat) : Option (Nat × Nat) :=
  let e := match (s.asidEntry n).2 with | some e => e.2 | none => 1
  if field e 3 0 = 0 then queueOf e else none

/-- What becomes of a record: written or kept in a buffer; no room for it; or an uncorrectable error where it goes. -/
inductive Put where
  | done | full | bad
deriving DecidableEq, Repr

/-- A record of `size` bytes goes into a queue with a 64-byte header, and TAIL advances: a release at system scope of
everything the device wrote before (R340, R363), so that a reader which acquires it keeps no older line. Its writes are requests of class 0 of a cluster (R324). -/
def State.queuePut (s : State) (cluster base lg size : Nat) (rec : List Byte) : State × Put :=
  let t := s.natAt (.dev base) 4
  let h := s.natAt (.dev (base + 4)) 4
  let a := base + 64 + size * (t % 2 ^ lg)
  if s.badAt (.dev base) 8 then (s, .bad)
  else if (t + 2 ^ 32 - h) % 2 ^ 32 = 2 ^ lg then (s, .full)
  else if s.badAt (.dev a) size then (s, .bad)
  else
    let s := (s.ask cluster 0 true (.dev a) size).ask cluster 0 true (.dev base) 4
    let s := (s.writeAt (.dev a) rec).writeAt (.dev base) (leBytes 4 ((t + 1) % 2 ^ 32))
    (s.carry base (BitVec.allOnes 512, s.time), .done)

/-- R363 step 5: the interrupt of a context. -/
def State.interrupt (s : State) (n : Nat) : State :=
  match s.trapQueue n with
  | some (_, _, true) => s.send (.msix n)
  | _ => s

/-- R366, R367: a trap record is written to its queue, or waits in the cluster's buffer of 32. -/
def State.putTrap (s : State) (core n : Nat) (rec : List Byte) : State × Put :=
  let wait := fun (s : State) =>
    if (s.cluster (clusterOf core)).tbuf.length < 32 then
      (s.modCluster (clusterOf core) fun c => { c with tbuf := c.tbuf ++ [(n, rec)] }, .done)
    else (s, .full)
  match s.trapQueue n with
  | none => wait s
  | some (base, lg, irq) =>
    match s.queuePut (clusterOf core) base lg 128 rec with
    | (s, .done) => (if irq then s.send (.msix n) else s, .done)
    | (_, .full) => wait s
    | (s, .bad) => (s, .bad)

/-- R340, R341: the same for a fault record. -/
def State.putFault (s : State) (core n : Nat) (rec : List Byte) : State × Put :=
  let wait := fun (s : State) =>
    if (s.cluster (clusterOf core)).fbuf.length < 32 then
      (s.modCluster (clusterOf core) fun c => { c with fbuf := c.fbuf ++ [(n, rec)] }, .done)
    else (s, .full)
  let s := (s.asidEntry n).1
  match s.faultQueue n with
  | none => wait s
  | some (base, lg) =>
    match s.queuePut (clusterOf core) base lg 64 rec with
    | (s, .done) => (s.interrupt n, .done)
    | (_, .full) => wait s
    | (s, .bad) => (s, .bad)

/-- Whether a trap record of a context would find room. -/
def State.trapRoom (s : State) (core n : Nat) : Bool := (s.putTrap core n (List.replicate 128 0)).2 != .full

/-- Whether a fault record would. -/
def State.faultRoom (s : State) (core n : Nat) : Bool := (s.putFault core n (List.replicate 64 0)).2 != .full

/-! ### Records -/

/-- A trap record of 128 bytes (R365). -/
def trapBytes (o : Who) (t : TrapInfo) (time : Time) (id : Word) (seq : Nat) : List Byte :=
  leBytes 4 (t.code * 65536 + (if o.u.ctl then 2 else 0) + (if t.defer then 1 else 0)) ++ leBytes 4 id.toNat ++
  leBytes 8 t.pc.toNat ++ leBytes 8 t.addr.toNat ++
  leBytes 4 (match t.lane with | some l => l | none => 0xFFFFFFFF) ++ leBytes 4 t.val.toNat ++
  leBytes 4 (o.w.index * 2 ^ 20 + o.pr.part * 65536 + o.p.quads.toNat) ++
  leBytes 4 ((if o.u.ctl then 0 else o.u.ctx) * 65536 + o.g.core) ++
  leBytes 6 time.toNat ++ leBytes 2 seq ++ leBytes 8 o.frame.toNat ++
  leBytes 4 o.u.launchix.toNat ++
  leBytes 4 (match t.evt with | some e => 16 + e | none => 0) ++
  leBytes 8 t.cpc.toNat ++ leBytes 8 t.mask.toNat ++ leBytes 4 t.aux0.toNat ++ leBytes 4 t.aux1.toNat ++
  leBytes 4 t.merged.toNat ++ leBytes 36 0

/-- A fault record of 64 bytes (R340). -/
def faultBytes (type : Nat) (id : Word) (va : Dword) (level acc : Nat) (launchix : Word) (pc : Dword)
    (wave part quads core : Nat) (time : Time) : List Byte :=
  leBytes 4 type ++ leBytes 4 id.toNat ++ leBytes 8 va.toNat ++ leBytes 4 (level * 16 + acc) ++
  leBytes 4 launchix.toNat ++ leBytes 8 pc.toNat ++ leBytes 4 (wave * 2 ^ 20 + part * 65536 + quads) ++
  leBytes 4 core ++ leBytes 6 time.toNat ++ leBytes 2 0 ++ leBytes 16 0

/-! ### Stopping a part -/

/-- R195: before a save, the signatures that a part's relaxed loads hold are applied to its core's L1. -/
def State.flushSigs (s : State) (o : Who) : State :=
  match o.p.sigs with
  | none => s
  | some g => (s.applySig o.g.core g false).modPart o.pr fun p => { p with sigs := none }

/-- R270: a save releases the part's pin. -/
def State.unpin (s : State) (o : Who) : State :=
  s.modPart o.pr fun p => { p with pin := [], repin := p.repin || !p.pin.isEmpty }

/-- A device fatal error (R363, R367): the warm reset follows. -/
def State.fatal (s : State) : State :=
  let s := { s with boot := { s.boot with fatal := true } }
  s.platformAll 4 0 0

/-- R373: a reset of a context begins; nothing of it issues again, and its intake entries are discarded. A failure of control mode is a fatal error. -/
def State.beginReset (s : State) (ctl : Bool) (n : Nat) : State :=
  if ctl then s.fatal
  else
    s.modCtx n fun c =>
      { c with resets := true, intake := [], heldOn := none,
               dropped := BitVec.ofNat 16 (min (c.dropped.toNat + c.intake.length) 65535) }

/-- Whether a counted operation of the part's quads has not retired (R34, R363 step 1), or a register that the frame is to
hold is still to be written (R193). -/
def State.counting (s : State) (o : Who) : Bool :=
  s.ops.any fun x => x.wave = o.pr.wave &&
    ((x.ctr.isSome && (x.quads &&& o.p.quads) != 0) ||
     (!x.done && (x.kind = .load || x.kind = .atom) && (x.all &&& o.p.quads) != 0))

/-- R389: a trap in a context whose HOLD is set freezes its parts on the core. -/
def State.freezeOnTrap (s : State) (o : Who) : State :=
  if !o.u.ctl && (s.ctx o.u.ctx).logctl.getLsbD 3 then
    s.modCore o.g.core fun c =>
      if c.freeze.frozen then c
      else { c with freeze := { frozen := true, ctx := o.u.ctx, attached := false, since := 0 } }
  else s

/-- R363 steps 2 to 5: frame, record, TAIL and interrupt of a part whose counted instructions have retired. Nothing
happens while the trap buffer is full (R367), or its write lacks credit (R325). -/
def State.finishTrap (s : State) (o : Who) (t : TrapInfo) (time : Time) : State :=
  let n := if o.u.ctl then 0 else o.u.ctx
  if o.u.ctl && (s.trapQueue 0).isNone then s.fatal
  else if !s.trapRoom o.g.core n || s.portWaits (clusterOf o.g.core) 0 10 then s.modPart o.pr fun p => { p with stall := 25 }
  else
    let s := (s.flushSigs o).unpin o
    let (s, id) := s.nextSerial
    let (s, saved) := s.savePart o 2 id
    if !saved then s.beginReset o.u.ctl o.u.ctx
    else
      let (s, q) := s.nextSeq o.g.core
      let (s, put) := s.putTrap o.g.core n (trapBytes o t time id q)
      let s := if put = .bad then s.beginReset o.u.ctl o.u.ctx else s
      let s := s.modCore o.g.core fun c =>
        { c with trapcnt := if c.trapcnt = BitVec.allOnes 32 then c.trapcnt else c.trapcnt + 1 }
      let s := s.modPart o.pr fun p => { p with status := .trapped id t.pc t.code, sigs := none, stall := 0 }
      let s := s.decide o 3 3 o.pr.part t.pc.toNat o.p.quads.toNat id.toNat
      let s := s.event o.g.core o.u { kind := 11, code := 0, wid := o.wid, part := o.pr.part, pc := t.pc.toNat,
                                      dseq := (o.w.seqs.dseq + 1).toNat, qmask := o.p.quads.toNat, data := t.code }
      s.freezeOnTrap o

/-- R339, R340: the save of a part that a far fault parks, and the fault record, which merges with an open one of the
same ASID, page and TYPE. -/
def State.finishFault (s : State) (o : Who) (f : FarInfo) : State :=
  let page := f.va.toNat / 4096
  let merge := s.recs.find? fun r => r.asid = o.asid && r.page = page && r.type = 0
  if merge.isNone && (!s.faultRoom o.g.core o.asid || s.portWaits (clusterOf o.g.core) 0 6) then
    s.modPart o.pr fun p => { p with status := .resident, hold := .retry, stall := 25 }
  else
    let s := (s.flushSigs o).unpin o
    let (s, id, new) := match merge with
      | some r => (s, r.id, false)
      | none => let (s, id) := s.nextSerial; (s, id, true)
    let (s, saved) := s.savePart o 1 id
    if !saved then s.beginReset o.u.ctl o.u.ctx
    else
      let s := if new then
          let s := { s with recs := s.recs ++ [OpenRecord.mk id o.asid page 0] }
          match s.putFault o.g.core o.asid (faultBytes 0 id f.va f.level f.acc o.u.launchix o.p.pc o.w.index o.pr.part
              o.p.quads.toNat o.g.core f.time) with
          | (s, .bad) => s.beginReset o.u.ctl o.u.ctx
          | (s, _) => s
        else s
      let s := s.modPart o.pr fun p => { p with status := .faulted id, sigs := none, stall := 25 }
      s.decide o 3 2 o.pr.part o.p.pc.toNat o.p.quads.toNat id.toNat

/-- Whatever a stopping part still has to do, once its counted instructions have retired. -/
def State.finishPart (s : State) (pr : PartRef) : State :=
  match s.who pr with
  | none => s
  | some o =>
    match o.p.status with
    | .stopping t time => if s.counting o then s else s.finishTrap o t time
    | .parking f => if s.counting o then s else s.finishFault o f
    | _ => s

/-- Every part, in ascending wave and part id (R372). -/
def State.parts (s : State) : List PartRef :=
  s.waves.flatMap fun w => w.2.parts.map fun p => { wave := w.1, part := p.1 }

/-- Parts that are stopping. -/
def State.stoppers (s : State) : List PartRef :=
  s.waves.flatMap fun w => (w.2.parts.filter fun p =>
    match p.2.status with | .stopping _ _ => true | .parking _ => true | _ => false).map
      fun p => { wave := w.1, part := p.1 }

def State.finishStops (s : State) : State := s.stoppers.foldl State.finishPart s

/-- R168: a wave keeps 16 faults pending on counters; a further one is merged into the newest of its counter, else into
the newest of the wave, which keeps what it was. -/
def addPending (l : List Pending) (f : Pending) : List Pending :=
  if f.ctr.isNone || (l.filter fun p => p.ctr.isSome).length < 16 then l ++ [f]
  else
    let same := fun (p : Pending) => p.ctr.isSome && (p.ctr = f.ctr || !(l.any fun q => q.ctr = f.ctr))
    (replaceFirst same (fun p =>
      { p with mask := p.mask ||| f.mask, quads := p.quads ||| f.quads, also := p.also ++ (f.op, f.code) :: f.also,
               merged := if p.merged = BitVec.allOnes 32 then p.merged else p.merged + 1 }) l.reverse).reverse

/-- Whether a record holds a fault, as its own or as one merged into it (R168). -/
def Pending.holds (p f : Pending) : Bool := (p.op = f.op && p.code = f.code) || p.also.contains (f.op, f.code)

/-- R168: a fault becomes pending in the quads in which its instruction has now retired: in the record that holds it
already, or in one of its own, or merged where there is no room. -/
def landFault (pend : List Pending) (m : QuadMask) (f : Pending) : List Pending :=
  if pend.any fun p => p.holds f then
    replaceFirst (fun p => p.holds f) (fun p => { p with quads := p.quads ||| (f.quads &&& m) }) pend
  else addPending pend { f with quads := f.quads &&& m }

/-- R168, R30: the faults of an operation that leaves its counter in the quads of a mask. -/
def State.landFaults (s : State) (x : Op) (m : QuadMask) : State :=
  s.modWave x.wave fun w => { w with pend := x.owed.foldl (fun l f => landFault l m f) w.pend }

/-- A fault that has been delivered to one part is owed in no further quad (R168). -/
def State.disown (s : State) (f : Pending) : State :=
  { s with ops := s.ops.map fun x => if x.owed.isEmpty then x else { x with owed := x.owed.filter fun g => !f.holds g } }

/-- The faults that the next retirement makes pending, oldest operation first. -/
def State.landAll (s : State) : State :=
  let after := retireFrom [] s.ops
  (s.ops.filter fun x => !x.owed.isEmpty).foldl (fun s x =>
    let left := ((after.find? fun y => y.id == x.id).map fun y => y.quads).getD 0
    if x.quads &&& ~~~ left = 0 then s else s.landFaults x (x.quads &&& ~~~ left)) s

/-- Retirement and what waits for it. -/
def State.settle (s : State) : State := s.landAll.retire.finishStops

/-- TAKING A TRAP (R363): the part stops before the instruction at the record's PC; its counted instructions retire;
then its frame and its record are written, TAIL advances and the interrupt is signalled. -/
def State.takeTrap (s : State) (pr : PartRef) (t : TrapInfo) : State :=
  (s.modPart pr fun p => { p with status := .stopping t s.time, hold := .no, stall := 0, looked := false }).finishStops

/-- A far fault (R339): the part is saved without having issued. -/
def State.takeFar (s : State) (pr : PartRef) (f : FarInfo) : State :=
  (s.modPart pr fun p =>
    { p with status := .parking { f with time := s.time }, hold := .no, stall := 25, looked := false }).finishStops

/-- The part traps at its own PC. -/
def State.trapHere (s : State) (o : Who) (code : Nat) : State := s.takeTrap o.pr (TrapInfo.plain code o.p.pc)

/-- The same with a value. -/
def State.trapVal (s : State) (o : Who) (code val : Nat) : State :=
  s.takeTrap o.pr { TrapInfo.plain code o.p.pc with val := BitVec.ofNat 32 val }

/-- The part waits without having issued, and tries again. -/
def State.stallFor (s : State) (pr : PartRef) (reason : Nat) : State :=
  s.modPart pr fun p => { p with hold := .retry, stall := reason }

/-- The part has issued an instruction that waits. -/
def State.holdOn (s : State) (pr : PartRef) (i : Instr) (reason : Nat) : State :=
  s.modPart pr fun p => { p with hold := .instr i, stall := reason }

/-! ### Moving on -/

/-- R384: the copy that a part keeps on its way to a PC: that of the line which it does not leave. -/
def Part.keepFor (p : Part) (pc : Dword) : Option FetchedLine :=
  if lineBase p.pc = lineBase pc then (p.line.or p.kept).filter fun l => l.base = lineBase pc else none

/-- R269: whether a PC lies in a repeat's range. -/
def Repeat.has (r : Repeat) (pc : Dword) : Bool := r.start.toNat ≤ pc.toNat && pc.toNat ≤ r.stop.toNat

/-- R269: a repeat whose range the PC leaves ends, and its pin with it (R270). -/
def dropRepeat (p : Part) : Part :=
  match p.rep with
  | none => p
  | some r => if r.has p.pc then p else { p with rep := none, pin := [] }

/-- R251 settle: the part always runs its lowest-PC lanes. One call for each entry is enough. -/
def settleStack : Nat → Part → Part
  | 0, p => p
  | n + 1, p =>
    match p.stack with
    | [] => p
    | e :: r =>
      if p.active = 0 then settleStack n { p with pc := e.pc, active := e.mask, stack := r }
      else if p.pc = e.pc then settleStack n { p with active := p.active ||| e.mask, stack := r }
      else if e.pc.toNat < p.pc.toNat then
        settleStack n { p with pc := e.pc, active := e.mask, stack := insertEntry p.pc p.active e.fmt r }
      else p
where
  /-- R251 insert, the stack top first, lowest PC on top. -/
  insertEntry (pc : Dword) (m : LaneMask) (f : Word) : List StackEntry → List StackEntry
    | [] => [{ pc := pc, mask := m, fmt := f }]
    | e :: r =>
      if e.pc = pc then { e with mask := e.mask ||| m } :: r
      else if pc.toNat < e.pc.toNat then { pc := pc, mask := m, fmt := f } :: e :: r
      else e :: insertEntry pc m f r

/-- FMT after settle: that of the last entry taken off (R251, R76). -/
def settleFmt (n : Nat) (p : Part) (f : Word) : Word :=
  match n with
  | 0 => f
  | n + 1 =>
    match p.stack with
    | [] => f
    | e :: r =>
      if p.active = 0 then settleFmt n { p with pc := e.pc, active := e.mask, stack := r } e.fmt
      else if p.pc = e.pc then settleFmt n { p with active := p.active ||| e.mask, stack := r } e.fmt
      else if e.pc.toNat < p.pc.toNat then
        settleFmt n { p with pc := e.pc, active := e.mask, stack := settleStack.insertEntry p.pc p.active e.fmt r } e.fmt
      else f

/-- R251: settle for a part of a wave; a transfer that it makes is not checked against R28. More than 8 entries lie in the frame (R252); a pop that brings one back stalls. -/
def State.settlePart (s : State) (pr : PartRef) : State :=
  s.modWave pr.wave fun w =>
    match w.parts.get pr.part with
    | none => w
    | some p =>
      if p.stack.isEmpty then w
      else
        let n := 2 * p.stack.length + 1
        let q := dropRepeat (settleStack n p)
        let q := if q.pc = p.pc then q else { q with line := none, kept := p.keepFor q.pc, check := false }
        let q := if 8 < p.stack.length && q.stack != p.stack then { q with hold := .spill false, stall := 11 } else q
        (w.setFmt p.quads (settleFmt n p (nth w.fmt (lowQuad p.quads)))) |> fun w =>
          { w with parts := w.parts.put pr.part q }

/-- A transfer of control to a PC (R28: `check` asks for the target bit when the line is entered). The line is entered
anew; its copy is kept where the part does not leave it (R384). -/
def State.jumpTo (s : State) (pr : PartRef) (pc : Dword) (check : Bool) : State :=
  (s.modPart pr fun p =>
    dropRepeat { p with pc := pc, line := none, kept := p.keepFor pc, check := check, hold := .no, stall := 0, nobrk := false,
                        looked := false }).settlePart pr

/-- R269: after the end instruction of a repeat issues without transferring control, the loop-back or the end of the
repeat; otherwise the sequential successor (R25). The copy of the line is kept within the line. -/
def stepPc (p : Part) : Part :=
  let p := { p with hold := .no, stall := 0, nobrk := false, looked := false }
  let next := successor p.pc
  let seq : Part :=
    { p with pc := next, line := if lineBase next = lineBase p.pc then p.line else none, kept := none, check := false }
  match p.rep with
  | none => seq
  | some r =>
    if p.pc = r.stop then
      if 1 < r.rem.toNat then
        { p with pc := r.start, line := none, kept := p.keepFor r.start, check := true, rep := some { r with rem := r.rem - 1, idx := r.idx + 1 } }
      else { seq with rep := none, pin := [] }
    else dropRepeat seq

/-- The instruction has issued: on to its successor, and to the part's lowest lanes (R251). -/
def State.advance (s : State) (pr : PartRef) : State := (s.modPart pr stepPc).settlePart pr

/-! ### Lanes (R85, R36) -/

/-- Lanes whose predicate is true. -/
def predLanes (w : Wave) (pneg : Bool) (pred : BitVec 3) : LaneMask :=
  let m := w.preg pred.toNat
  if pneg then ~~~ m else m

/-- R85: the participating lanes. -/
def Who.lanes (o : Who) (h : Hdr) : LaneMask := o.p.active &&& ~~~ o.w.exited &&& predLanes o.w h.pneg h.pred

/-- Unexited quads of a wave. -/
def Wave.liveQuads (w : Wave) : QuadMask :=
  maskOf 16 fun q => q < w.nquads && w.exited.extractLsb' (4 * q) 4 != (15 : BitVec 4)

/-! ### Checks before issue (R52) -/

/-- What the checks of R52 answer. -/
inductive Verdict where
  /-- The instruction issues. -/
  | go
  /-- Negated P7: a no-operation (R36). -/
  | nop
  | trap (t : TrapInfo)
  /-- An implicit knit gathers this many quads (R262). -/
  | knit (need : Nat)
  /-- Not yet: the stall reason (R382). -/
  | stall (reason : Nat)
deriving DecidableEq, Repr

/-- R45: the first register named at or above the launch's limits. -/
def regFault (u : WorkUnit) (l : List RegUse) : Option (Nat × Nat) :=
  l.findSome? fun r =>
    let lim := if r.cls = 0 then u.valloc else u.scnt
    if 2 ≤ r.cls || r.num + r.len ≤ lim then none else some (r.cls, max r.num lim)

/-- R103, R117: the accumulator tiles an instruction names, against the group's grant; a pair with `two`. -/
def accFault (u : WorkUnit) (n : Nat) (two : Bool) : Option (Nat × Nat) :=
  if n + (if two then 2 else 1) ≤ u.acct then none else some (4, if n < u.acct then n + 1 else n)

/-- Accumulator tiles that an instruction names, with the FMT of the part (R117). -/
def accUse (fmt : Word) : Instr → Option (Nat × Bool)
  | .macq x => some (x.dst.num.toNat, false)
  | .mrel x => some (x.dst.num.toNat, false)
  | .mma x => some (x.dst.num.toNat, fmtC fmt = 0 && x.dst.num.toNat % 2 = 0)
  | .mmas x => some (x.dst.num.toNat, fmtC fmt = 0 && x.dst.num.toNat % 2 = 0)
  | .mdrain x => some (x.dst.num.toNat, fmtC fmt = 0 && x.dst.num.toNat % 2 = 0)
  | .mrd x => some ((x.mod.extractLsb' 0 3).toNat, WF.cellWide x.mod)
  | .mwr x => some (x.dst.num.toNat, WF.cellWide x.mod)
  | _ => none

/-- R50: quads that MINW asks for. -/
def needQuads (w : Wave) (minw : Nat) : Nat :=
  if minw = 0 then 0 else if minw = 6 then maskCount w.liveQuads else 2 ^ (minw - 1)

/-- Whether an operation of the part is still to write a register named. -/
def Op.writes (x : Op) (o : Who) (l : List RegUse) : Bool :=
  x.wave = o.pr.wave && !x.done && x.span != 0 && (x.all &&& o.p.quads) != 0 &&
    l.any fun r => r.cls = RegUse.dstClass x.dst && r.num < x.dst.num.toNat + x.span && x.dst.num.toNat < r.num + r.len

/-- R86, R193: a register named is still to be written by an operation of the wave. -/
def State.waitsFor (s : State) (o : Who) (l : List RegUse) : Bool := s.ops.any fun x => x.writes o l

/-- Pieces that have not been performed. -/
def Op.opens (x : Op) : List Piece :=
  (x.pieces.zipIdx.filter fun e => (x.seen.get e.2).isNone).map fun e => e.1

/-- R131: an outstanding operation of the part reads a bank in its turning window. -/
def State.turnsFor (s : State) (o : Who) (p : Op → Bool) : Bool :=
  s.ops.any fun x => x.wave = o.pr.wave && !x.done && (x.all &&& o.p.quads) != 0 && p x && x.opens.any fun q => s.turning q.loc

/-- Stall reason of a wait for registers: 19 for a read of a bank in its turning window (R131), 20 for sampler work (R171),
2 for an ATOM that replay holds (R236), else 3; the lowest among those of the operations waited for (R382). -/
def State.waitReason (s : State) (o : Who) (l : List RegUse) : Nat :=
  let reason := fun (x : Op) =>
    if x.opens.any fun q => s.turning q.loc then 19
    else if x.kind = .sample then 20
    else if x.kind = .atom && o.u.mode = 3 then 2 else 3
  ((s.ops.filter fun x => x.writes o l).map reason).foldl min 20

/-- R194: the held error that the instruction's reads meet first: V by lanes of the part, S by quads. -/
def heldError (o : Who) (l : List RegUse) : Option HeldErr :=
  o.w.errs.find? fun e => l.any fun r => !r.write && r.cls = e.cls && r.num ≤ e.num && e.num < r.num + r.len &&
    (if e.cls = 0 then o.p.quads.getLsbD (e.unit / 4) else o.p.quads.getLsbD e.unit)

/-- The MEM_DATA of a held error (R194, R361, R370), or its FABRIC_LOSS (R355): all lanes of the same register, and the
lowest address, with the port of that loss. -/
def memData (o : Who) (e : HeldErr) : TrapInfo :=
  let same := o.w.errs.filter fun x => x.cls = e.cls && x.num = e.num && x.loss.isSome = e.loss.isSome &&
    (if e.cls = 0 then o.p.quads.getLsbD (x.unit / 4) else o.p.quads.getLsbD x.unit)
  let mask : LaneMask := maskOf 64 fun l => same.any fun x => if e.cls = 0 then x.unit = l else x.unit = l / 4
  let low := (leastBy (fun x => x.addr.toNat) same).getD e
  let t : TrapInfo := { TrapInfo.plain codeMemData o.p.pc with
    defer := true, addr := low.addr, lane := maskLow mask, cpc := e.pc, mask := mask }
  match low.loss with
  | none => { t with val := BitVec.ofNat 32 (e.cls * 256 + e.num) }
  | some (port, late) => { t with code := codeLoss, aux0 := if late then 0x100000 else 0, aux1 := BitVec.ofNat 32 port }

/-- R386, R387: the lowest enabled breakpoint that matches the part at its PC. -/
def State.breakAt (s : State) (o : Who) : Option (Nat × Breakpoint) :=
  let hit := fun (b : Breakpoint) =>
    b.ctl.getLsbD 31 && (b.ctl.extractLsb' 16 10).toNat = (if o.u.ctl then 0 else o.u.ctx) &&
    o.p.pc = pair b.pclo b.pchi && (!b.ctl.getLsbD 30 || (b.ctl.extractLsb' 26 4).toNat = o.pr.part)
  ((s.core o.g.core).bp.zipIdx.find? fun x => hit x.1).map fun x => (x.2, x.1)

/-- The BRK_MATCH of breakpoint n (R387). -/
def brkTrap (o : Who) (n : Nat) : TrapInfo :=
  { TrapInfo.plain codeBrkMatch o.p.pc with
    val := BitVec.ofNat 32 (n + if o.p.rep.isSome then 8 else 0),
    aux0 := (o.p.rep.map fun r => r.idx).getD 0 }

/-- R49: the target of a B-format instruction, none where it lies outside the virtual range. -/
def flowTarget (pc : Dword) (x : FlowOp) : Option Dword :=
  let t : Int := (pc.toNat / 64 : Nat) + x.offs.toInt
  if t < 0 || 2 ^ 51 ≤ t then none
  else some (BitVec.ofNat 64 (t.toNat * 64 + slotOffsets.getD x.slot.toNat 0))

/-- R269: an end PC at or below the instruction's own, or an LPIN body of more than 8 lines. -/
def repIllegal (pc : Dword) : Instr → Bool
  | .rep x => match flowTarget pc x with | some t => t.toNat ≤ pc.toNat | none => false
  | .lpin x =>
    match flowTarget pc x with
    | some t => t.toNat ≤ pc.toNat || 8 < t.toNat / 64 - (successor pc).toNat / 64 + 1
    | none => false
  | _ => false

/-- The instructions of the normal path (R211). -/
def isNormal (i : Instr) : Bool := 0x60 ≤ i.opc && i.opc ≤ 0x6E || i.opc = 0x76 || i.opc = 0x77

/-- An acquire of the part holds its later accesses of the normal path (R213 item 2), those of barriers, tile queues and
CCWAIT with them. -/
def heldByAcquire (i : Instr) : Bool := isNormal i || 0xB0 ≤ i.opc && i.opc ≤ 0xB8 || i.opc = 0xBD

/-- Operations of the part's program order (R208) that are not complete. -/
def State.before (s : State) (o : Who) : List Op := s.ops.filter fun x => o.p.prior.contains x.id && !x.done

/-- The paths of R211, by their FENCEX bits. -/
def OpKind.path : OpKind → Nat
  | .copy => 1 | .wsWrite => 1
  | .mma => 2 | .mmas => 2 | .mdrain => 2
  | .twld => 3 | .tmac => 3 | .tdrain => 3 | .tzero => 3
  | .sample => 4 | .image => 4 | .emit => 4
  | .trace => 5
  | _ => 0

/-- Whether an operation's accesses are performed (R213): a prefetch and the like make none. -/
def Op.performed (x : Op) : Bool := x.done || x.kind = .prefetch || (x.pieces != [] && x.opens = [])

/-- Whether an earlier normal-path access of the part is not performed. -/
def State.accessesOut (s : State) (o : Who) : Bool :=
  (s.before o).any fun x => x.kind.path = 0 && x.kind != .done && !x.performed

/-- Whether a load or atomic that acquires is still outstanding. -/
def State.acquiring (s : State) (o : Who) : Bool :=
  (s.before o).any fun x => (x.kind = .load || x.kind = .atom) && (x.ord = 1 || x.ord = 3)

/-- R403: charge of an issue with n participating lanes; matrix and ternary operations are charged by their entry. -/
def chargeOf (i : Instr) (n extra : Nat) : Nat :=
  let c := i.opc
  if c ≤ 0x1C || (0x40 ≤ c && c ≤ 0x4A) then n
  else if c ≤ 0x2B || (0x33 ≤ c && c ≤ 0x3B) then 2 * n
  else if c ≤ 0x32 then 4 * n
  else if (0x60 ≤ c && c ≤ 0x6E) || c = 0x76 || c = 0x77 then 2 * n
  else if 0x70 ≤ c && c ≤ 0x75 then 16
  else if c = 0x82 || c = 0x83 || c = 0x91 || c = 0x92 then extra
  else if 0x80 ≤ c && c ≤ 0x88 then 4
  else if c = 0x90 then 32
  else if 0x93 ≤ c && c ≤ 0x97 then n
  else if 0xA0 ≤ c && c ≤ 0xAC then 3 * n
  else 1

/-- R126: W(p, c, k). -/
def Group.trit (g : Group) (p c k : Nat) : Int := (g.plane.get (p * 65536 + c * 256 + k)).getD 0

/-- The segment of a trit of a weight row (R126). -/
def segmentOf (k : Nat) : Nat := min (k / 40) 6

/-- R126: nz(p, c), the segments of a weight row that hold a nonzero trit. -/
def Group.nz (g : Group) (p c : Nat) : Nat :=
  (dedup ((g.plane.filter fun e => e.1 / 256 = p * 256 + c && e.2 != 0).map fun e => segmentOf (e.1 % 256))).length

/-- The sum of nz over the columns of a plane. -/
def Group.nzSum (g : Group) (p : Nat) : Nat :=
  (dedup ((g.plane.filter fun e => e.1 / 65536 = p && e.2 != 0).map
    fun e => e.1 / 256 * 8 + segmentOf (e.1 % 256))).length

/-- The weight w of R403 for a matrix operation's formats. -/
def matrixWeight (fmt : Word) : Nat :=
  match fmtA fmt with
  | 0 => 48 | 1 => 40 | 2 => 32 | 3 => 32
  | 4 => if fmtB fmt = 4 || fmtB fmt = 5 || fmtB fmt = 6 then 24 else 16
  | 5 => if fmtB fmt = 4 || fmtB fmt = 5 || fmtB fmt = 6 then 24 else 16
  | 6 => 24 | _ => 16

/-- R403: charges that depend on the operation's descriptor: K of a matrix operation, m of the array's. A TMAC is charged by
its plane as it stands at issue, a DESIGN CHOICE (log entry 75). -/
def extraCharge (o : Who) : Instr → Nat
  | .mma x => matrixWeight o.fmt * (o.sreg (x.a.num.toNat + 7)).toNat / 32
  | .mmas x => matrixWeight o.fmt * (o.sreg (x.a.num.toNat + 7)).toNat / 32
  | .tmac x =>
    (128 * field (o.sreg (x.a.num.toNat + 1)).toNat 22 16 * o.g.nzSum (x.mod.extractLsb' 1 1).toNat + 1791) / 1792
  | .tdrain x => 8 * field (o.sreg (x.a.num.toNat + 5)).toNat 6 0
  | _ => 0

/-- R403: the charge of an instruction; an island in low-rail mode charges half, rounded up. -/
def State.charge (s : State) (o : Who) (i : Instr) (h : Hdr) : Nat :=
  let c := chargeOf i (maskCount (o.lanes h)) (extraCharge o i)
  if (s.core o.g.core).isl.low.getLsbD o.w.sched then (c + 1) / 2 else c

/-- R404: the instruction's charge exceeds what is left of the window; but one that exceeds the whole budget issues at the
window's first clock, and so does one that was held for it (log entry 79). -/
def State.bubbles (s : State) (o : Who) (charge : Nat) : Bool :=
  let c := (s.core o.g.core).cur
  c.lim.toNat < charge + c.excess + c.used &&
    !(c.lim.toNat < charge + c.excess && (c.clks ≤ 1 || c.held.contains o.pr))

/-- Whether a group is of a context's jobs. -/
def State.ofContext (s : State) (ctx gid : Nat) : Bool :=
  match (s.groups.get gid).bind fun g => s.units.get g.unit with
  | some u => !u.ctl && u.ctx = ctx
  | none => false

/-- Whether an operation was issued on a core. -/
def State.onCore (s : State) (k : Nat) (x : Op) : Bool :=
  match s.groups.get x.group with
  | some g => g.core = k
  | none => false

/-- R394: the reservations that the open operations of a context hold in a ring, 128 for the event ring: those whose record
does not stand there yet. -/
def State.reserved (s : State) (ctx ring : Nat) (hit : Op → Bool) : Nat :=
  (s.ops.filter fun x => !x.done && !x.logs.contains ring && hit x && s.ofContext ctx x.group).length

/-- R394: the parts of a context on a core whose instruction has issued and waits, each with its reservation. -/
def State.waitReserved (s : State) (ctx core : Nat) : Nat :=
  ((s.waves.filter fun w => match s.groups.get w.2.group with
    | some g => g.core = core && s.ofContext ctx w.2.group
    | none => false).map fun w => (w.2.parts.filter fun p =>
      p.2.status = .resident && (match p.2.hold with | .instr _ => true | .width _ => true | _ => false)).length).foldl (· + ·) 0

/-- Home slices of an operation's pieces in local device memory. -/
def pieceSlices (l : List Piece) : List Nat :=
  dedup (l.filterMap fun p => match p.loc with | .dev a => some (homeSlice a) | _ => none)

/-- R394: the first ring without room for an instruction's record: the event ring of its core (0), beside its reserve of
64, or the memory-ordering ring of a slice it touches (1). -/
def State.logFull (s : State) (o : Who) (slices : List Nat) : Option (Nat × Nat) :=
  if o.u.mode != 2 then none
  else if s.ringFull (o.u.ering o.g.core) o.u.esize
      (64 + s.reserved o.u.ctx 128 (s.onCore o.g.core) + s.waitReserved o.u.ctx o.g.core) then some (0, o.g.core)
  else (slices.find? fun k => s.ringFull (o.u.mring k) o.u.msize
    (s.reserved o.u.ctx k fun x => (pieceSlices x.pieces).contains k)).map fun k => (1, k)

/-- Whether the part of an instruction's line names no counter for its CSEL (R31), or its end or body breaks R269. -/
def illegalHere (o : Who) (i : Instr) (h : Hdr) : Bool :=
  lineCounter o.p h.csel = some 15 || repIllegal o.p.pc i

/-- The registers an instruction names that its launch does not have (R45, R103). -/
def rangeFault (o : Who) (i : Instr) : Option (Nat × Nat) :=
  match regFault o.u i.uses with
  | some e => some e
  | none =>
    match accUse o.fmt i with
    | some (n, two) => accFault o.u n two
    | none => none

/-- The header that an instruction has or implies. -/
def headOf (i : Instr) : Hdr :=
  match i.head with
  | some (n, p, c) => { pneg := n, pred := p, csel := c }
  | none => { pneg := false, pred := 7, csel := .uncounted }

/-- Quads that MINW requires of the part, none where it does not need more than it holds (R262). -/
def widthShort (o : Who) (i : Instr) : Option Nat :=
  let need := needQuads o.w i.width
  if maskCount o.p.quads < need then some need else none

/-- R52: what stands before the issue of an instruction, in order. -/
def State.verdict (s : State) (o : Who) (i : Instr) (slices : List Nat) : Verdict :=
  let h := headOf i
  let pc := o.p.pc
  if illegalHere o i h then .trap (TrapInfo.ofSlot codeIllegal pc ((encode i).getD 0))
  else if h.pneg && h.pred = 7 then .nop
  else if i.control && !o.u.ctl then .trap (TrapInfo.ofSlot codePriv pc ((encode i).getD 0))
  else
    match rangeFault o i with
    | some (cls, num) => .trap { TrapInfo.plain codeRegRange pc with val := BitVec.ofNat 32 (cls * 256 + num) }
    | none =>
      if i.width != 6 && o.w.nquads < needQuads o.w i.width then
        .trap { TrapInfo.plain codeWidth pc with val := BitVec.ofNat 32 (needQuads o.w i.width) }
      else
        match widthShort o i with
        | some need => .knit need
        | none =>
          match (lineCounter o.p h.csel).bind fun n =>
              if (maskBits o.p.quads).any fun q => 63 ≤ s.count o.pr.wave n q then some n else none with
          | some n => .trap { TrapInfo.plain codeCounter pc with val := BitVec.ofNat 32 n }
          | none =>
            if s.waitsFor o i.uses then
              .stall (if heldByAcquire i && s.acquiring o then min 2 (s.waitReason o i.uses) else s.waitReason o i.uses)
            else if heldByAcquire i && s.acquiring o then .stall 2
            else if s.bubbles o (s.charge o i h) then .stall 27
            else
              match s.logFull o slices with
              | some (v, k) =>
                .trap { TrapInfo.plain codeLogFull pc with val := BitVec.ofNat 32 v, aux0 := BitVec.ofNat 32 k }
              | none =>
                match brkStop s o with
                | some t => .trap t
                | none =>
                  match heldError o i.uses with
                  | some e => .trap (memData o e)
                  | none => .go
where
  /-- R387: the BRK_MATCH of a breakpoint whose COUNT is zero. -/
  brkStop (s : State) (o : Who) : Option TrapInfo :=
    match (if o.p.nobrk then none else s.breakAt o) with
    | some (n, b) => if b.ctl.extractLsb' 0 16 = 0 then some (brkTrap o n) else none
    | none => none

/-- The scheduler has issued an instruction in this clock (R29, R250); its part is the youngest to have done so (R294). -/
def State.noteIssue (s : State) (o : Who) (i : Instr) (cost : Nat) : State :=
  (s.modCore o.g.core fun k =>
    { k with issued := k.issued.put o.w.sched (((k.issued.get o.w.sched).getD []) ++
        [{ part := o.pr, quads := o.p.quads, pc := o.p.pc, instr := i, cost := cost }]) }).modPart o.pr fun p =>
    { p with idle := 0, last := false }

/-- An issue: its charge (R403), the count of a breakpoint that lets it pass (R387), and the part's access ordinal
(R393). -/
def State.begin (s : State) (o : Who) (i : Instr) : State :=
  let c := s.charge o i (headOf i)
  let brk := if o.p.nobrk then none else s.breakAt o
  let s := (s.noteIssue o i c).modCore o.g.core fun k =>
    { k with cur := { k.cur with used := k.cur.used + c, held := k.cur.held.filter fun p => p != o.pr },
             bp := match brk with
               | none => k.bp
               | some (n, b) => k.bp.set n { b with ctl := b.ctl - 1 } }
  s.modPart o.pr fun p => { p with nobrk := false, stall := 0, ord := if isNormal i then p.ord + 1 else p.ord }

/-- R387: a BRK_MATCH raises the breakpoint's HITS, saturating. -/
def State.beforeTrap (s : State) (o : Who) (t : TrapInfo) : State :=
  if t.code = codeBrkMatch then
    s.modCore o.g.core fun k => { k with bp := raiseHits k.bp (t.val.toNat % 8) }
  else s
where
  raiseHits (l : List Breakpoint) (n : Nat) : List Breakpoint :=
    match l[n]? with
    | some b => l.set n { b with hits := if b.hits = BitVec.allOnes 32 then b.hits else b.hits + 1 }
    | none => l

/-- A fresh operation number. -/
def State.fresh1 (s : State) : State × Nat := ({ s with fresh := s.fresh + 1 }, s.fresh)

/-- An operation of the part that is complete at issue. -/
def blankOp (o : Who) (id : Nat) (ctr : Option Nat) (kind : OpKind) : Op :=
  { id := id, wave := o.pr.wave, group := o.w.group, part := o.pr.part, quads := o.p.quads, all := o.p.quads, ctr := ctr,
    pc := o.p.pc, kind := kind, done := false, code := 0, scope := 0, ord := 0, hint := 0, dst := { cls := .v, num := 0 },
    span := 0, mask := 0, args := [], lanes := [], pieces := [], acc := [], seen := [], prior := o.p.prior, fmt := o.fmt,
    batch := 0, sigs := none, fail := none, misc := 0, wid := o.wid, born := o.p.born.toNat, aord := o.p.ord.toNat,
    start := 0, owed := [] }

/-- The operation enters the table, and every later instruction of the part comes after it (R208). -/
def State.addOp (s : State) (o : Who) (x : Op) : State :=
  ({ s with ops := s.ops ++ [{ x with start := s.time }] }).modPart o.pr fun p =>
    { p with prior := (p.prior.filter fun i => (s.ops.any fun y => y.id = i)) ++ [x.id] }

/-- The counted part of an instruction that is complete at issue (R32, R30). -/
def State.countDone (s : State) (o : Who) (i : Instr) : State :=
  match lineCounter o.p (headOf i).csel with
  | none => s
  | some n =>
    let (s, id) := s.fresh1
    s.addOp o { blankOp o id (some n) .done with done := true }

/-- An instruction that is complete at issue: its counter, the successor, and whatever that retires. -/
def State.finish (s : State) (o : Who) (i : Instr) : State := ((s.countDone o i).advance o.pr).settle

/-- Quads of the live parts waiting in an episode. -/
def episodeQuads (w : Wave) (e : Episode) : QuadMask :=
  e.parts.foldl (fun m p => match w.parts.get p with | some q => m ||| q.quads | none => m) 0

/-- The knit timeout of the wave's launch, 2^KTO clk (R253). -/
def ktoClk (cutp : Word) : Nat := 2 ^ (cutp.extractLsb' 8 5).toNat

/-- R258, R262: the part joins the episode at its PC, or opens one. -/
def State.joinEpisode (s : State) (o : Who) (impl : Bool) (need : Nat) (hold : Hold) (reason : Nat) : State :=
  let s := s.modWave o.pr.wave fun w =>
    if w.eps.any fun e => e.pc = o.p.pc && e.impl = impl then
      { w with eps := w.eps.map fun e =>
          if e.pc = o.p.pc && e.impl = impl && !e.parts.contains o.pr.part then { e with parts := e.parts ++ [o.pr.part] } else e }
    else
      { w with eps := w.eps ++ [{ pc := o.p.pc, impl := impl, parts := [o.pr.part], timer := ktoClk o.cutp, need := need }] }
  s.modPart o.pr fun p => { p with hold := hold, stall := reason }

/-! ### Slots -/

/-- Whether a part holds a slot (R292). -/
def Part.slotted (p : Part) : Bool :=
  match p.status with
  | .resident | .stopping _ _ | .parking _ => true
  | _ => false

/-- Parts with slots on a scheduler of a core, with their waves. -/
def State.slotted (s : State) (core sched : Nat) : List (PartRef × Part) :=
  s.waves.flatMap fun w =>
    if w.2.sched = sched && (match s.groups.get w.2.group with | some g => g.core = core | none => false) then
      (w.2.parts.filter fun p => p.2.slotted).map fun p => ({ wave := w.1, part := p.1 }, p.2)
    else []

/-- Slots that a launch uses on a core. -/
def State.slotsOf (s : State) (unit core : Nat) : Nat :=
  ((s.waves.filter fun w => match s.groups.get w.2.group with
    | some g => g.unit = unit && g.core = core
    | none => false).map fun w => (w.2.parts.filter fun p => p.2.slotted).length).foldl (· + ·) 0 +
  ((s.groups.filter fun g => g.2.unit = unit && g.2.core = core && g.2.state != .saved && !g.2.begun).map
    fun g => g.2.scheds.length).foldl (· + ·) 0

/-- R289, R362: the slots open to a launch: 46 and 47 for control mode, the others for the rest. -/
def openSlots (ctl : Bool) : List Nat := if ctl then [46, 47] else List.range 46

/-- The slots of a scheduler that a launch may take: those open to it that no part holds; slot 46 of scheduler 0 of core 0 is
the boot ROM's while it runs (R411). -/
def State.openSlotsOn (s : State) (ctl : Bool) (core sched : Nat) : List Nat :=
  let used := (s.slotted core sched).map fun p => p.2.slot
  (openSlots ctl).filter fun k => !used.contains k && !(k = 46 && core = 0 && sched = 0 && s.boot.rom.isSome)

/-- Slots of a scheduler that wait for the waves of groups whose tiles have not arrived (R289, R290). -/
def State.slotsDue (s : State) (ctl : Bool) (core sched : Nat) : Nat :=
  ((s.groups.filter fun g => g.2.core = core && g.2.state != .saved && !g.2.begun &&
      (match s.units.get g.2.unit with | some u => u.ctl = ctl | none => false)).map
    fun g => (g.2.scheds.filter fun j => j = sched).length).foldl (· + ·) 0

/-- A free slot within the launch's quota (R295); control mode stands outside the quotas. -/
def State.freeSlot (s : State) (u : WorkUnit) (unit core sched : Nat) : Option Nat :=
  if !u.ctl && u.n 0x48 ≤ s.slotsOf unit core then none
  else
    let l := s.openSlotsOn u.ctl core sched
    if l.length ≤ s.slotsDue u.ctl core sched then none else l.head?

/-- R293: the active set has room. -/
def State.frontRoom (s : State) (core sched : Nat) : Bool :=
  ((s.slotted core sched).filter fun p => p.2.front).length < 8

/-! ### Cuts -/

/-- Stack masks restricted to a set of quads (R248). -/
def cutStack (q : QuadMask) (l : List StackEntry) : List StackEntry :=
  l.map fun e => { e with mask := e.mask &&& quadLanes q }

/-- One side of a cut: the parent's state on some of its quads. -/
def cutSide (p : Part) (q : QuadMask) (pc : Dword) (dseq : BitVec 16) : Part :=
  { p with quads := q, pc := pc, active := p.active &&& quadLanes q, stack := cutStack q p.stack, born := dseq, ord := 0,
           line := if lineBase pc = lineBase p.pc then p.line else none }

/-- A cut of a part into `q` and the rest, at the given PCs (R254 to R257). The part that holds the parent's lowest quad
keeps its id, slot and tokens; the other takes `slot`. The event names side `q` (R264). -/
def State.cut (s : State) (o : Who) (q : QuadMask) (pcQ pcR : Dword) (code slot : Nat) : State :=
  let r := o.p.quads &&& ~~~ q
  let s := s.waveEvent o code q o.p.pc
  let d := ((s.waves.get o.pr.wave).map fun w => w.seqs.dseq).getD 0
  let room := s.frontRoom o.g.core o.w.sched
  s.modWave o.pr.wave fun w =>
    match w.parts.get o.pr.part with
    | none => w
    | some p =>
      let a := cutSide p q pcQ d
      let b := cutSide p r pcR d
      let fresh := fun (x : Part) => { x with slot := slot, front := room }
      let qLow := q.getLsbD (lowQuad p.quads)
      { w with parts := (w.parts.put (lowQuad q) (if qLow then a else fresh a)).put (lowQuad r) (if qLow then fresh b else b) }

/-! ### Issue -/

/-- What an instruction's own checks find (R52 step 9): a trap, a far fault, or a wait before issue. -/
inductive Stop where
  | trap (t : TrapInfo)
  | far (f : FarInfo)
  | stall (reason : Nat)
deriving DecidableEq, Repr

/-- A stop of the part's own. -/
def State.stopAt (s : State) (pr : PartRef) : Stop → State
  | .trap t => s.takeTrap pr t
  | .far f => s.takeFar pr f
  | .stall r => s.stallFor pr r

/-- A fault cut (R256, R339): the quads whose translation is far go, parked; the rest keeps the slot. The part that
completes the instruction is answered. -/
def State.faultCut (s : State) (o : Who) (q : QuadMask) (f : FarInfo) : State × PartRef :=
  let s := s.cut o q o.p.pc o.p.pc 2 o.p.slot
  (s.takeFar { wave := o.pr.wave, part := lowQuad q } f, { wave := o.pr.wave, part := lowQuad (o.p.quads &&& ~~~ q) })

/-- THE ISSUE OF AN INSTRUCTION: the checks of R52, its own checks in their order, and then its effect. `slices` are the
home slices it touches, asked for in record mode. The instruction's own checks may find that some quads only meet a far
fault: those are cut away first, and what was found for the others follows. -/
def State.issueCut {α : Type} (s : State) (i : Instr) (slices : Who → State → List Nat)
    (check : Who → State → State × Option (QuadMask × FarInfo) × Except Stop α) (act : α → Who → State → State) :
    Host.Outcome State Fault Refusal :=
  match s.who s.cur with
  | none => .fault .noIssuer
  | some o =>
    match s.verdict o i (if o.u.mode = 2 then slices o s else []) with
    | .go =>
      match check o s with
      | (s', none, .ok a) => .next (act a o (s'.begin o i))
      | (s', none, .error e) => .next (s'.stopAt o.pr e)
      | (s', some (q, f), r) =>
        if !s.mayDecide o 0 then .next (s.stallFor o.pr 25) else
        let (s', pr) := s'.faultCut o q f
        match s'.who pr, r with
        | some o', .ok a => .next (act a o' (s'.begin o' i))
        | _, .error e => .next (s'.stopAt pr e)
        | none, .ok _ => .next s'
    | .nop => .next ((s.noteIssue o i 0).advance o.pr).settle
    | .trap t => .next ((s.beforeTrap o t).takeTrap o.pr t)
    | .knit need => .next (s.joinEpisode o true need (.width i) 10)
    | .stall r => .next (s.stallFor o.pr r)

/-- The same for an instruction that is never fault-cut. -/
def State.issueWith {α : Type} (s : State) (i : Instr) (slices : Who → State → List Nat)
    (check : Who → State → State × Except Stop α) (act : α → Who → State → State) :
    Host.Outcome State Fault Refusal :=
  s.issueCut i slices (fun o s => ((check o s).1, none, (check o s).2)) act

/-- The issue of an instruction without traps of its own. -/
def State.issue (s : State) (i : Instr) (act : Who → State → State) : Host.Outcome State Fault Refusal :=
  s.issueWith (α := Unit) i (fun _ _ => []) (fun _ s => (s, .ok ())) fun _ o s => act o s

/-- The issue of an instruction with traps of its own that reads no page. -/
def State.issueIf (s : State) (i : Instr) (check : Who → State → Option TrapInfo) (act : Who → State → State) :
    Host.Outcome State Fault Refusal :=
  s.issueWith (α := Unit) i (fun _ _ => [])
    (fun o s => match check o s with | some t => (s, .error (.trap t)) | none => (s, .ok ())) fun _ o s => act o s

end Sys2Proof.Machine
end

