-- ==== Sys2Proof/Machine/Operands.lean ====
section
/-! DEFINITION. The values that source fields deliver (R38 to R46, R84, R87), and the writing of destinations (R44,
R85). -/

namespace Sys2Proof.Machine

open Sys2Proof

/-- How an instruction's entry reads an operand (R42): an integer of a width, raw bits of a width, a floating value, or
a pair of halves. -/
inductive Read where
  | int (w : Nat)
  | raw (w : Nat)
  | flt (f : FloatFmt)
  | pk (f : FloatFmt)
deriving DecidableEq, Repr

/-- Bits of an operand. -/
def Read.bits : Read → Nat
  | .int w => w
  | .raw w => w
  | .flt f => f.width
  | .pk _ => 32

/-- Bits of a type (R37). -/
def tyBits : Ty → Nat
  | .i8 | .n8 => 8
  | .i16 | .n16 | .f16 | .bf16 => 16
  | .i32 | .n32 | .f32 => 32
  | .i64 | .n64 | .f64 => 64

/-- Whether an integer type is signed. -/
def tySigned : Ty → Bool
  | .i8 | .i16 | .i32 | .i64 => true
  | _ => false

/-- The format of a floating type. -/
def tyFmt : Ty → FloatFmt
  | .f64 => .f64 | .f16 => .f16 | .bf16 => .bf16 | _ => .f32

/-- How a type is read. -/
def Read.of (t : Ty) : Read := if t.isFloat then .flt (tyFmt t) else .int (tyBits t)

/-- Raw bits of a type's width (R88: MOV and SEL; R97). -/
def Read.rawOf (t : Ty) : Read := .raw (tyBits t)

/-! ### Inline constants (R39) -/

/-- The value of an entry: an integer, or a real. -/
def constNum (k : Nat) : Num :=
  if k < 64 then Num.ofInt k
  else if k < 80 then Num.ofInt ((k : Int) - 80)
  else
    match k with
    | 80 => .fin false 1 (-1) | 81 => .fin false 1 0 | 82 => .fin false 1 1 | 83 => .fin false 1 2
    | 84 => .fin true 1 (-1) | 85 => .fin true 1 0 | 86 => .fin true 1 1 | 87 => .fin true 1 2
    | 88 => .fin false 232605209918111709774537830547806037080859518310 (-160)
    | 89 => .fin false 4591442807048218921384805199743311128454155024418 (-160)
    | 90 => .fin false 1013035739299659071135698605846798551586536899366 (-160)
    | _ => .fin false 2108501164428393954197770173035669514763056903506 (-160)

/-- An entry as an integer operand of width w: the integer, sign-extended, or the binary32 pattern, zero-extended. -/
def constInt (k w : Nat) : Nat :=
  if k < 64 then k % 2 ^ w
  else if k < 80 then (2 ^ w - (80 - k)) % 2 ^ w
  else (constNum k).pack .f32 .rn % 2 ^ w

/-- An entry as an operand of a kind. -/
def constBits (k : Nat) : Read → Nat
  | .int w => constInt k w
  | .raw w => constInt k w
  | .flt f => (constNum k).pack f .rn
  | .pk f => (constNum k).pack f .rn * 65537

/-! ### Special registers (R46) -/

/-- Group coordinates. -/
def Who.groupX (o : Who) : Nat := o.g.g % o.u.n 0x10
def Who.groupY (o : Who) : Nat := o.g.g / o.u.n 0x10 % o.u.n 0x14
def Who.groupZ (o : Who) : Nat := o.g.g / (o.u.n 0x10 * o.u.n 0x14)

/-- The value of a special register in a lane; 10 gives both halves to a 64-bit operand. -/
def specialBits (s : State) (o : Who) (wide : Bool) (n lane : Nat) : Nat :=
  match n with
  | 0 => lane
  | 1 => lane / 4
  | 2 => o.w.index
  | 3 => o.p.quads.toNat
  | 4 => o.groupX
  | 5 => o.groupY
  | 6 => o.groupZ
  | 7 => o.u.launchix.toNat
  | 8 => clusterOf o.g.core
  | 9 => o.g.core
  | 10 => if wide then (s.seqclk o.g.core).toNat else (lo32 (s.seqclk o.g.core)).toNat
  | _ => (hi32 (s.seqclk o.g.core)).toNat

/-! ### Sources -/

/-- R41: the lane of the same quad that supplies the operand. -/
def modLane (x : Src) (lane : Nat) : Nat :=
  match x.lmod.toNat with
  | 1 => Nat.xor lane 1
  | 2 => Nat.xor lane 2
  | 3 => lane / 4 * 4 + x.blane.toNat
  | _ => lane

/-- Bits that a source field supplies before ABS and negate; `wide` for a 64-bit operand. -/
def rawBits (s : State) (o : Who) (k : Read) (x : Src) (lane : Nat) : Nat :=
  let wide := k.bits = 64
  let r := x.num.toNat
  match x.cls with
  | .v =>
    let l := modLane x lane
    if wide then (pair (o.w.vreg r l) (o.w.vreg (r + 1) l)).toNat else (o.w.vreg r l).toNat % 2 ^ k.bits
  | .s => if wide then (o.spair r).toNat else (o.sreg r).toNat % 2 ^ k.bits
  | .p => if (o.w.preg r).getLsbD (modLane x lane) then 1 else 0
  | .special => specialBits s o wide r lane % 2 ^ k.bits
  | .const => constBits r k
  | .lit => 0

/-- R84: ABS on the bits. -/
def absBits (k : Read) (v : Nat) : Nat :=
  match k with
  | .flt f => v % 2 ^ (f.width - 1)
  | .pk _ => v % 2 ^ 15 + v / 2 ^ 16 % 2 ^ 15 * 2 ^ 16
  | _ => v

/-- R42: the negate bit. -/
def negBits (k : Read) (v : Nat) : Nat :=
  match k with
  | .int w => (2 ^ w - v) % 2 ^ w
  | .raw w => 2 ^ w - 1 - v
  | .flt f => Nat.xor v (2 ^ (f.width - 1))
  | .pk _ => Nat.xor v 0x80008000

/-- What a source delivers in a lane: class and lane modifier, then ABS (R84), then negate (R42); a predicate's negate
is its logical NOT. -/
def State.operand (s : State) (o : Who) (k : Read) (abs : Bool) (x : Src) (lane : Nat) : Nat :=
  let v := rawBits s o k x lane
  let v := if abs then absBits k v else v
  if x.neg then (if x.cls = .p then 1 - v else negBits k v) else v

/-- A literal of a type (R40), of 8 to 64 bits. -/
def litBits (t : Ty) (imm : Word) : Nat :=
  match t with
  | .i64 => (imm.signExtend 64).toNat
  | .f64 => imm.toNat * 2 ^ 32
  | _ => imm.toNat % 2 ^ tyBits t

/-- A source of an X-format instruction read as N32, its literal included. -/
def State.scalar (s : State) (o : Who) (x : Src) (imm : Word) : Word :=
  let v : Word := if x.cls = .lit then imm else BitVec.ofNat 32 (rawBits s o (.int 32) x 0)
  if x.neg then -v else v

/-- The signed or unsigned value of W bits. -/
def asInt (signed : Bool) (w v : Nat) : Int := if signed && nbit v (w - 1) then (v : Int) - 2 ^ w else v

/-- An integer source in its type (R87). -/
def State.intOperand (s : State) (o : Who) (t : Ty) (x : Src) (lane : Nat) : Int :=
  asInt (tySigned t) (tyBits t) (s.operand o (.int (tyBits t)) false x lane)

/-- An operand of a shift or field instruction as an unsigned W-bit value. -/
def State.bitsOf (s : State) (o : Who) (t : Ty) (x : Src) (l : Nat) : Nat := s.operand o (.int (tyBits t)) false x l

/-- A 32-bit count or control. -/
def State.ctlOf (s : State) (o : Who) (x : Src) (l : Nat) : Nat := s.operand o (.int 32) false x l

/-- Bounds of an integer type (R66). -/
def tyMin (t : Ty) : Int := if tySigned t then -(2 ^ (tyBits t - 1)) else 0
def tyMax (t : Ty) : Int := if tySigned t then 2 ^ (tyBits t - 1) - 1 else 2 ^ tyBits t - 1

/-- R66: clamped to the range of a type. -/
def clampTy (t : Ty) (v : Int) : Int := max (tyMin t) (min (tyMax t) v)

/-- The register bits of an exact result: saturated or wrapped into W bits, then extended to the register (R87). -/
def intBits (t : Ty) (sat : Bool) (v : Int) : Nat :=
  let v := if sat then clampTy t v else v
  let w := tyBits t
  let b := (v % 2 ^ w).toNat
  if w < 32 then ((asInt (tySigned t) w b) % 2 ^ 32).toNat else b

/-! ### Destinations (R44, R85) -/

/-- A value written to the lanes of a mask of V register r, or to a pair. -/
def Wave.putV (w : Wave) (r : Nat) (wide : Bool) (m : LaneMask) (f : Nat → Nat) : Wave :=
  let w' := w.setV r m fun l => BitVec.ofNat 32 (f l)
  if wide then w'.setV (r + 1) m fun l => BitVec.ofNat 32 (f l / 2 ^ 32) else w'

/-- A value written to the copies of the quads of a part, or to a pair. -/
def Wave.putS (w : Wave) (r : Nat) (wide : Bool) (qs : QuadMask) (v : Nat) : Wave :=
  let w' := w.setS r qs (BitVec.ofNat 32 v)
  if wide then w'.setS (r + 1) qs (BitVec.ofNat 32 (v / 2 ^ 32)) else w'

/-- The result of a per-lane instruction: V in each participating lane, S once for the part, P as 0 or not 0. -/
def State.writeDst (s : State) (o : Who) (d : Dst) (wide : Bool) (m : LaneMask) (f : Nat → Nat) : State :=
  s.modWave o.pr.wave fun w =>
    match d.cls with
    | .v => w.putV d.num.toNat wide m f
    | .s => w.putS d.num.toNat wide o.p.quads (f (4 * lowQuad o.p.quads))
    | .p => w.setP d.num.toNat m fun l => f l != 0
    | _ => w

/-- An S result: the same word in every quad of the part. -/
def State.writeS (s : State) (o : Who) (d : Dst) (v : Nat) : State :=
  s.modWave o.pr.wave fun w => w.putS d.num.toNat false o.p.quads v

/-- An S pair. -/
def State.writeSS (s : State) (o : Who) (d : Dst) (v : Nat) : State :=
  s.modWave o.pr.wave fun w => w.putS d.num.toNat true o.p.quads v

/-- THE ISSUE OF A PER-LANE INSTRUCTION (R81, R85): every source is read, then the result of each participating lane is
written, and the instruction is complete. -/
def State.perLane (s : State) (i : Instr) (x : AluOp) (wide : Bool) (f : State → Who → Nat → Nat) :
    Host.Outcome State Fault Refusal :=
  s.issue i fun o s => (s.writeDst o x.dst wide (o.lanes x.h) (f s o)).finish o i

end Sys2Proof.Machine
end

