-- ==== Sys2Proof/Machine/Int.lean ====
section
/-! DEFINITION. NOP, moves, and the integer and logic instructions 0x01 to 0x1C (R81 to R89). -/

namespace Sys2Proof.Machine

open Sys2Proof

/-- NOP (R51): the PC advances. -/
def execNop (x : NopOp) (s : State) : Host.Outcome State Fault Refusal :=
  s.issue (.nop x) fun o s => (s.advance o.pr).settle

/-- MOV: raw bits (R88). -/
def execMov (x : AluOp) (s : State) : Host.Outcome State Fault Refusal :=
  s.perLane (.mov x) x x.ty.isWide fun s o l => s.operand o (.rawOf x.ty) false x.a l

/-- MOVI: IMM32 widened by R40, then extended to the register as R87 gives for a narrow type. -/
def execMovi (x : LitOp) (s : State) : Host.Outcome State Fault Refusal :=
  s.issue (.movi x) fun o s =>
    let v := litBits x.ty x.imm
    let v := if x.ty.isInt then intBits x.ty false v else v
    (s.writeDst o x.dst x.ty.isWide (o.lanes x.h) fun _ => v).finish o (.movi x)

/-- SEL: A if C is not 0, else B. -/
def execSel (x : AluOp) (s : State) : Host.Outcome State Fault Refusal :=
  s.perLane (.sel x) x x.ty.isWide fun s o l =>
    if s.operand o (.raw 32) false x.c l != 0 then s.operand o (.rawOf x.ty) false x.a l
    else s.operand o (.rawOf x.ty) false x.b l

/-- The exact result of two integer operands, wrapped or saturated. -/
def int2 (x : AluOp) (f : Int → Int → Int) (s : State) (o : Who) (l : Nat) : Nat :=
  intBits x.ty x.sat (f (s.intOperand o x.ty x.a l) (s.intOperand o x.ty x.b l))

def execIadd (x : AluOp) (s : State) : Host.Outcome State Fault Refusal :=
  s.perLane (.iadd x) x x.ty.isWide (int2 x fun a b => a + b)

def execIsub (x : AluOp) (s : State) : Host.Outcome State Fault Refusal :=
  s.perLane (.isub x) x x.ty.isWide (int2 x fun a b => a - b)

def execImul (x : AluOp) (s : State) : Host.Outcome State Fault Refusal :=
  s.perLane (.imul x) x x.ty.isWide (int2 x fun a b => a * b)

/-- floor(A × B ÷ 2^W). -/
def execImulh (x : AluOp) (s : State) : Host.Outcome State Fault Refusal :=
  s.perLane (.imulh x) x x.ty.isWide (int2 x fun a b => a * b / 2 ^ tyBits x.ty)

def execImad (x : AluOp) (s : State) : Host.Outcome State Fault Refusal :=
  s.perLane (.imad x) x x.ty.isWide fun s o l => int2 x (fun a b => a * b + s.intOperand o x.ty x.c l) s o l

def execImin (x : AluOp) (s : State) : Host.Outcome State Fault Refusal :=
  s.perLane (.imin x) x x.ty.isWide (int2 x fun a b => min a b)

def execImax (x : AluOp) (s : State) : Host.Outcome State Fault Refusal :=
  s.perLane (.imax x) x x.ty.isWide (int2 x fun a b => max a b)

def execIabs (x : AluOp) (s : State) : Host.Outcome State Fault Refusal :=
  s.perLane (.iabs x) x x.ty.isWide fun s o l => intBits x.ty x.sat ((s.intOperand o x.ty x.a l).natAbs : Nat)

/-! ### Logic: raw bits (R87); P takes bit 0 -/

/-- A logic result; a P destination takes its bit 0. -/
def logicBits (x : AluOp) (v : Nat) : Nat := if x.dst.cls = .p then v % 2 else v

def logic2 (x : AluOp) (f : Nat → Nat → Nat) (s : State) (o : Who) (l : Nat) : Nat :=
  logicBits x (f (s.operand o (.rawOf x.ty) false x.a l) (s.operand o (.rawOf x.ty) false x.b l))

def execAnd (x : AluOp) (s : State) : Host.Outcome State Fault Refusal :=
  s.perLane (.and x) x x.ty.isWide (logic2 x Nat.land)

def execOr (x : AluOp) (s : State) : Host.Outcome State Fault Refusal :=
  s.perLane (.or x) x x.ty.isWide (logic2 x Nat.lor)

def execXor (x : AluOp) (s : State) : Host.Outcome State Fault Refusal :=
  s.perLane (.xor x) x x.ty.isWide (logic2 x Nat.xor)

def execNot (x : AluOp) (s : State) : Host.Outcome State Fault Refusal :=
  s.perLane (.not x) x x.ty.isWide fun s o l =>
    logicBits x (2 ^ tyBits x.ty - 1 - s.operand o (.rawOf x.ty) false x.a l)

/-! ### Shifts and bit fields (R89) -/

/-- A shift of A by c. -/
def shlBits (w a c : Nat) : Nat := if w ≤ c then 0 else a * 2 ^ c % 2 ^ w
def shrBits (t : Ty) (a c : Nat) : Nat :=
  let w := tyBits t
  if tySigned t then ((asInt true w a / 2 ^ min c (w - 1)) % 2 ^ w).toNat else if w ≤ c then 0 else a / 2 ^ c
def rotBits (w a c : Nat) : Nat := (a * 2 ^ (c % w) + a / 2 ^ (w - c % w)) % 2 ^ w

def execShl (x : AluOp) (s : State) : Host.Outcome State Fault Refusal :=
  s.perLane (.shl x) x x.ty.isWide fun s o l => shlBits (tyBits x.ty) (s.bitsOf o x.ty x.a l) (s.ctlOf o x.b l)

def execShr (x : AluOp) (s : State) : Host.Outcome State Fault Refusal :=
  s.perLane (.shr x) x x.ty.isWide fun s o l => shrBits x.ty (s.bitsOf o x.ty x.a l) (s.ctlOf o x.b l)

def execRot (x : AluOp) (s : State) : Host.Outcome State Fault Refusal :=
  s.perLane (.rot x) x x.ty.isWide fun s o l => rotBits (tyBits x.ty) (s.bitsOf o x.ty x.a l) (s.ctlOf o x.b l)

/-- Offset and length of a field of W bits. -/
def fieldOf (w f : Nat) : Nat × Nat :=
  let o := min (f % 256) w
  (o, min (f / 256 % 256) (w - o))

/-- BFX. -/
def bfxBits (t : Ty) (a f : Nat) : Nat :=
  let w := tyBits t
  let (o, n) := fieldOf w f
  if n = 0 then 0 else ((asInt (tySigned t) n (a / 2 ^ o % 2 ^ n)) % 2 ^ w).toNat

/-- BFI: the low n bits of A replace bits o upward of B. -/
def bfiBits (w a b f : Nat) : Nat :=
  let (o, n) := fieldOf w f
  b % 2 ^ o + a % 2 ^ n * 2 ^ o + b / 2 ^ (o + n) * 2 ^ (o + n)

def execBfx (x : AluOp) (s : State) : Host.Outcome State Fault Refusal :=
  s.perLane (.bfx x) x x.ty.isWide fun s o l => bfxBits x.ty (s.bitsOf o x.ty x.a l) (s.ctlOf o x.b l)

def execBfi (x : AluOp) (s : State) : Host.Outcome State Fault Refusal :=
  s.perLane (.bfi x) x x.ty.isWide fun s o l =>
    bfiBits (tyBits x.ty) (s.bitsOf o x.ty x.a l) (s.bitsOf o x.ty x.b l) (s.ctlOf o x.c l)

/-- One bits among the low w. -/
def popBits (w a : Nat) : Nat := ((List.range w).filter fun i => nbit a i).length
/-- Leading zeros among W bits. -/
def clzBits (w a : Nat) : Nat := if a = 0 then w else w - 1 - Nat.log2 a
/-- Bit i placed at w − 1 − i. -/
def revBits (w a : Nat) : Nat := (List.range w).foldl (fun r i => if nbit a i then r + 2 ^ (w - 1 - i) else r) 0

def execPopc (x : AluOp) (s : State) : Host.Outcome State Fault Refusal :=
  s.perLane (.popc x) x false fun s o l => popBits (tyBits x.ty) (s.bitsOf o x.ty x.a l)

def execClz (x : AluOp) (s : State) : Host.Outcome State Fault Refusal :=
  s.perLane (.clz x) x false fun s o l => clzBits (tyBits x.ty) (s.bitsOf o x.ty x.a l)

def execBrev (x : AluOp) (s : State) : Host.Outcome State Fault Refusal :=
  s.perLane (.brev x) x x.ty.isWide fun s o l => revBits (tyBits x.ty) (s.bitsOf o x.ty x.a l)

/-- R88: the conditions 0 EQ, 1 NE, 2 LT, 3 LE, 4 GT, 5 GE. -/
def condInt (c : Nat) (a b : Int) : Bool :=
  match c with
  | 0 => a = b | 1 => a ≠ b | 2 => a < b | 3 => a ≤ b | 4 => b < a | _ => b ≤ a

def execIcmp (x : AluOp) (s : State) : Host.Outcome State Fault Refusal :=
  s.perLane (.icmp x) x false fun s o l =>
    if condInt x.sub.toNat (s.intOperand o x.ty x.a l) (s.intOperand o x.ty x.b l) then 1 else 0

/-- ADDC's exact sum. -/
def addcSum (x : AluOp) (s : State) (o : Who) (l : Nat) : Nat :=
  s.bitsOf o x.ty x.a l + s.bitsOf o x.ty x.b l + (if s.bitsOf o x.ty x.c l != 0 then 1 else 0)

/-- ADDC: the sum, and its carry into the predicate that SUBOP names in each participating lane (R89). -/
def execAddc (x : AluOp) (s : State) : Host.Outcome State Fault Refusal :=
  s.issue (.addc x) fun o s =>
    let w := tyBits x.ty
    let f := addcSum x s o
    let s := s.writeDst o x.dst x.ty.isWide (o.lanes x.h) fun l => f l % 2 ^ w
    let s := s.modWave o.pr.wave fun v => v.setP (x.sub.extractLsb' 0 3).toNat (o.lanes x.h) fun l => f l / 2 ^ w != 0
    s.finish o (.addc x)

/-- LEA: A + ext(B) × 2^IMM32[4:0] (R89). -/
def execLea (x : LitOp) (s : State) : Host.Outcome State Fault Refusal :=
  s.issue (.lea x) fun o s =>
    let f := fun (l : Nat) =>
      (((s.operand o (.int 64) false x.a l : Nat) + s.intOperand o x.ty x.b l * 2 ^ (x.imm.extractLsb' 0 5).toNat) % 2 ^ 64).toNat
    (s.writeDst o x.dst true (o.lanes x.h) f).finish o (.lea x)

def execIadd3 (x : AluOp) (s : State) : Host.Outcome State Fault Refusal :=
  s.perLane (.iadd3 x) x x.ty.isWide fun s o l => int2 x (fun a b => a + b + s.intOperand o x.ty x.c l) s o l

/-- SATI: A read as the source type of SUBOP, clamped to TYPE. -/
def execSati (x : AluOp) (s : State) : Host.Outcome State Fault Refusal :=
  s.perLane (.sati x) x x.ty.isWide fun s o l =>
    intBits x.ty true (s.intOperand o ((Ty.ofCode x.sub).getD .i32) x.a l)

end Sys2Proof.Machine
end

