-- ==== Sys2Proof/Machine/Flags.lean ====
section
/-! DEFINITION. The format register FMT and the conditions that instructions compute: SETFMT's value (R74, R275), the
cut policy (R271), comparison conditions (R88, R91), class masks (R91), saturation (R90). -/

namespace Sys2Proof.Machine

open Sys2Proof

/-- R275: (FMT AND NOT M) OR (A AND M). -/
def newFmt (fmt a m : Word) : Word := (fmt &&& ~~~ m) ||| (a &&& m)

/-- R271: the writable bits of CUTP under the mask of IMM32. -/
def newCutp (c imm : Word) : Word :=
  let m : Word := imm >>> 8 &&& 0xFF
  (c &&& ~~~ m) ||| (imm &&& 0xFF &&& m)

/-- The operand pattern after the input flush of R61. -/
def flushed (fmt : Word) (f : FloatFmt) (b : Nat) : Nat := if fmtFlushIn fmt && f.flushes then flushBits f b else b

/-- R90 step 4 on a pattern: NaN and anything below +0 give +0, anything above 1.0 gives 1.0. -/
def satBits (f : FloatFmt) (b : Nat) : Nat :=
  match unpack f b with
  | .nan => 0
  | .inf neg => if neg then 0 else f.bias * 2 ^ f.mw
  | .fin neg n e =>
    if neg then 0 else if Num.lt (.fin false 1 0) (.fin neg n e) then f.bias * 2 ^ f.mw else b

/-- The result of a rounding instruction: R63, R61, and saturation. -/
def finishFlt (fmt : Word) (mode : RMode) (sat : Bool) (f : FloatFmt) (v : Num) : Nat :=
  let b := roundFmt fmt mode f v
  if sat then satBits f b else b

/-- R91: FMIN on patterns, −0 below +0; NaN gives way to the other operand. -/
def fminBits (f : FloatFmt) (a b : Nat) : Nat :=
  let x := unpack f a
  let y := unpack f b
  if x.isNan then (if y.isNan then f.nanBits else b)
  else if y.isNan then a
  else if Num.lt x y then a
  else if Num.lt y x then b
  else if x.sign then a else b

/-- R91: FMAX. -/
def fmaxBits (f : FloatFmt) (a b : Nat) : Nat :=
  let x := unpack f a
  let y := unpack f b
  if x.isNan then (if y.isNan then f.nanBits else b)
  else if y.isNan then a
  else if Num.lt x y then b
  else if Num.lt y x then a
  else if x.sign then b else a

/-- R91: the conditions 0 EQ, 1 NE, 2 LT, 3 LE, 4 GT, 5 GE, 6 UN, 7 OR. -/
def condFlt (c : Nat) (a b : Num) : Bool :=
  if a.isNan || b.isNan then c = 1 || c = 6
  else
    match c with
    | 0 => Num.eq a b | 1 => !Num.eq a b | 2 => Num.lt a b | 3 => !Num.lt b a
    | 4 => Num.lt b a | 5 => !Num.lt a b | 6 => false | _ => true

/-- R91: the class mask of a pattern. -/
def classMask (f : FloatFmt) (b : Nat) : Nat :=
  let sub := b / 2 ^ f.mw % 2 ^ f.ew = 0
  match unpack f b with
  | .nan => 2 ^ 8
  | .inf neg => if neg then 1 else 2 ^ 7
  | .fin neg n _ =>
    if n = 0 then (if neg then 2 ^ 3 else 2 ^ 4)
    else if sub then (if neg then 2 ^ 2 else 2 ^ 5)
    else if neg then 2 else 2 ^ 6

/-- A value rounded to an integer by a mode (R90 FRND, R92 FTOI). -/
def roundInt (mode : RMode) (neg : Bool) (n : Nat) (e : Int) : Nat :=
  if 0 ≤ e then n * 2 ^ e.toNat else roundRatio mode neg n (2 ^ (-e).toNat)

end Sys2Proof.Machine
end

