-- ==== Sys2Proof/Machine/Trans.lean ====
section
/-! DEFINITION. The functions of R94: exact special results, and otherwise the exact value bracketed far below any
rounding distance and rounded once (log entry 9). -/

namespace Sys2Proof.Machine

open Sys2Proof

/-- Floor of the square root, bit by bit from bit `b - 1`. -/
def isqrtFrom (n : Nat) : Nat → Nat → Nat
  | 0, r => r
  | b + 1, r => if (r + 2 ^ b) * (r + 2 ^ b) ≤ n then isqrtFrom n b (r + 2 ^ b) else isqrtFrom n b r

/-- The square root of n / d with a sticky last bit, on the grid 2^-(p+1). -/
def sqrtNum (p n d : Nat) : Num :=
  let q := n * 2 ^ (2 * p) / d
  let r := isqrtFrom q (Nat.log2 q / 2 + 1) 0
  let exact : Bool := r * r * d = n * 2 ^ (2 * p)
  .fin false (2 * r + (if exact then 0 else 1)) (-(p : Int) - 1)

/-- 2π and ln 2 times 2^320, truncated. -/
def twoPi320 : Nat := 13420802360424337830311681948440006481608388178854297901454212848703426437343610760199000777828079
def ln2At320 : Nat := 1480553391661173448385607439722553250922680800745876974795605978609098082859138712941075737848984

def fixBits : Nat := 320

/-- Sum over k of y^k / k!, y on the grid 2^-320; every second term, with alternating signs, gives sine and cosine. -/
def expSeries (y : Nat) : Nat → Nat → Nat → Nat → Nat
  | 0, _, _, acc => acc
  | n + 1, k, term, acc => expSeries y n (k + 1) (term * y / 2 ^ fixBits / (k + 1)) (acc + term)

/-- Alternating series of even or odd terms: term k, step 2. -/
def trigSeries (y2 : Nat) : Nat → Nat → Nat → Bool → Int → Int
  | 0, _, _, _, acc => acc
  | n + 1, k, term, neg, acc =>
    trigSeries y2 n (k + 2) (term * y2 / 2 ^ fixBits / ((k + 1) * (k + 2))) (!neg) (if neg then acc - term else acc + term)

/-- Sum over k of z^(2k+1) / (2k+1). -/
def atanhSeries (z2 : Nat) : Nat → Nat → Nat → Nat → Nat
  | 0, _, _, acc => acc
  | n + 1, k, pow, acc => atanhSeries z2 n (k + 2) (pow * z2 / 2 ^ fixBits) (acc + pow / k)

/-- 2^x for a finite x with |x| not above 200. -/
def exp2Num (neg : Bool) (n : Nat) (e : Int) : Num :=
  -- x on the grid 2^-149 exactly
  let v : Int := Num.onGrid (-149) (.fin neg n e)
  let k : Int := v / 2 ^ 149
  let f : Nat := (v % 2 ^ 149).toNat
  if f = 0 then .fin false 1 k
  else
    let y := f * ln2At320 / 2 ^ 149
    .fin false (expSeries y 90 0 (2 ^ fixBits) 0) (k - fixBits)

/-- log2 of n * 2^e, n not 0. -/
def log2Num (n : Nat) (e : Int) : Num :=
  let lg := Nat.log2 n
  let k : Int := (lg : Int) + e
  if n = 2 ^ lg then Num.ofInt k
  else
    let z := (n - 2 ^ lg) * 2 ^ fixBits / (n + 2 ^ lg)
    let ln := 2 * atanhSeries (z * z / 2 ^ fixBits) 110 1 z 0
    let l := ln * 2 ^ fixBits / ln2At320
    Num.ofGrid (-(fixBits : Int)) false (k * 2 ^ fixBits + l)

/-- x - rint(x) in quarter turns: the quadrant and the rest, on the grid 2^-149, for a finite x (R94). -/
def turns (neg : Bool) (n : Nat) (e : Int) : Int :=
  let v : Int := Num.onGrid (-149) (.fin neg n (min e 0))
  if 0 ≤ e then 0
  else
    let one : Int := 2 ^ 149
    let q := v / one
    let r := v % one
    let up := one < 2 * r || (2 * r = one && q % 2 = 1)
    if up then r - one else r

/-- sin(2πf) for 0 ≤ f ≤ 1/4, f on the grid 2^-149. -/
def sinTurn (f : Nat) : Num :=
  if f = 0 then .fin false 0 0
  else if 4 * f = 2 ^ 149 then .fin false 1 0
  else
    let y := f * twoPi320 / 2 ^ 149
    Num.ofGrid (-(fixBits : Int)) false (trigSeries (y * y / 2 ^ fixBits) 50 1 y false 0)

/-- cos(2πf) for 0 ≤ f < 1/4, as the sine of the complement where that is exact. -/
def cosTurn (f : Nat) : Num :=
  if f = 0 then .fin false 1 0
  else if 4 * f = 2 ^ 149 then .fin false 0 0
  else
    let y := f * twoPi320 / 2 ^ 149
    Num.ofGrid (-(fixBits : Int)) false (trigSeries (y * y / 2 ^ fixBits) 50 0 (2 ^ fixBits) false 0)

/-- SIN of a finite x (R94). -/
def sinNum (neg : Bool) (n : Nat) (e : Int) : Num :=
  if n = 0 then .fin neg 0 0
  else
    let f := turns neg n e
    let a := f.natAbs
    let v := if 4 * a ≤ 2 ^ 149 then sinTurn a else sinTurn (2 ^ 148 - a)
    if v.isZero then .fin false 0 0 else if f < 0 then v.negate else v

/-- COS of a finite x. -/
def cosNum (neg : Bool) (n : Nat) (e : Int) : Num :=
  let a := (turns neg n e).natAbs
  if 4 * a ≤ 2 ^ 149 then cosTurn a
  else (cosTurn (2 ^ 148 - a)).negate

/-! ### The functions with their special results -/

def fnExp2 : Num → Num
  | .nan => .nan
  | .inf neg => if neg then .fin false 0 0 else .inf false
  | .fin neg n e =>
    if n = 0 then .fin false 1 0
    else if !neg && !(Num.lt (.fin neg n e) (Num.ofInt 128)) then .inf false
    else if Num.lt (.fin neg n e) (Num.ofInt (-150)) then .fin false 0 0
    else exp2Num neg n e

def fnLog2 : Num → Num
  | .nan => .nan
  | .inf neg => if neg then .nan else .inf false
  | .fin neg n e => if n = 0 then .inf true else if neg then .nan else log2Num n e

def fnSqrt : Num → Num
  | .nan => .nan
  | .inf neg => if neg then .nan else .inf false
  | .fin neg n e => if n = 0 then .fin neg 0 0 else if neg then .nan else sqrtNum 700 (ratio n e).1 (ratio n e).2

def fnRsq : Num → Num
  | .nan => .nan
  | .inf neg => if neg then .nan else .fin false 0 0
  | .fin neg n e => if n = 0 then .inf neg else if neg then .nan else sqrtNum 300 (ratio n e).2 (ratio n e).1

def fnSin : Num → Num
  | .fin neg n e => sinNum neg n e
  | _ => .nan

def fnCos : Num → Num
  | .fin neg n e => cosNum neg n e
  | _ => .nan

/-- RCP as a rounded pattern: the exact ratio rounded once. -/
def rcpBits (v : Num) : Nat :=
  match v with
  | .nan => FloatFmt.f32.nanBits
  | .inf neg => FloatFmt.f32.signed neg 0
  | .fin neg n e =>
    if n = 0 then FloatFmt.f32.signed neg FloatFmt.f32.infBits
    else roundIeee .f32 .rn neg (ratio n e).2 (ratio n e).1

end Sys2Proof.Machine
end

