-- ==== Sys2Proof/Machine/Float.lean ====
section
/-! DEFINITION. The floating-point instructions 0x20 to 0x3B (R90 to R95). -/

namespace Sys2Proof.Machine

open Sys2Proof

/-- A floating source: ABS, negate, input flush (R90 step 1), as a value. -/
def State.fltOperand (s : State) (o : Who) (f : FloatFmt) (abs : Bool) (x : Src) (l : Nat) : Num :=
  readNum o.fmt f (s.operand o (.flt f) abs x l)

/-- The same as a pattern. -/
def State.fltBits (s : State) (o : Who) (f : FloatFmt) (abs : Bool) (x : Src) (l : Nat) : Nat :=
  flushed o.fmt f (s.operand o (.flt f) abs x l)

/-- A rounded result of a V3 instruction in its TYPE. -/
def fltResult (x : AluOp) (o : Who) (v : Num) : Nat := finishFlt o.fmt (rmode o.fmt x.rnd) x.sat (tyFmt x.ty) v

/-- Rounding toward minus infinity, for the sign of an exact zero sum (R90). -/
def isRd (x : AluOp) (o : Who) : Bool := rmode o.fmt x.rnd = .rd

/-- A result of two operands, rounded once. -/
def flt2 (x : AluOp) (f : Who → Num → Num → Num) (s : State) (o : Who) (l : Nat) : Nat :=
  fltResult x o (f o (s.fltOperand o (tyFmt x.ty) x.abs0 x.a l) (s.fltOperand o (tyFmt x.ty) x.abs1 x.b l))

def execFadd (x : AluOp) (s : State) : Host.Outcome State Fault Refusal :=
  s.perLane (.fadd x) x x.ty.isWide (flt2 x fun o a b => a.add (isRd x o) b)

def execFsub (x : AluOp) (s : State) : Host.Outcome State Fault Refusal :=
  s.perLane (.fsub x) x x.ty.isWide (flt2 x fun o a b => a.add (isRd x o) b.negate)

def execFmul (x : AluOp) (s : State) : Host.Outcome State Fault Refusal :=
  s.perLane (.fmul x) x x.ty.isWide (flt2 x fun _ a b => a.mul b)

def execFfma (x : AluOp) (s : State) : Host.Outcome State Fault Refusal :=
  s.perLane (.ffma x) x x.ty.isWide fun s o l =>
    flt2 x (fun o a b => (a.mul b).add (isRd x o) (s.fltOperand o (tyFmt x.ty) false x.c l)) s o l

/-- A selected operand: the output flush, then SAT (R91). -/
def selected (x : AluOp) (o : Who) (b : Nat) : Nat :=
  let b := flushOut o.fmt (tyFmt x.ty) b
  if x.sat then satBits (tyFmt x.ty) b else b

def execFmin (x : AluOp) (s : State) : Host.Outcome State Fault Refusal :=
  s.perLane (.fmin x) x x.ty.isWide fun s o l =>
    let f := tyFmt x.ty
    selected x o (fminBits f (s.fltBits o f x.abs0 x.a l) (s.fltBits o f x.abs1 x.b l))

def execFmax (x : AluOp) (s : State) : Host.Outcome State Fault Refusal :=
  s.perLane (.fmax x) x x.ty.isWide fun s o l =>
    let f := tyFmt x.ty
    selected x o (fmaxBits f (s.fltBits o f x.abs0 x.a l) (s.fltBits o f x.abs1 x.b l))

def execFcmp (x : AluOp) (s : State) : Host.Outcome State Fault Refusal :=
  s.perLane (.fcmp x) x false fun s o l =>
    let f := tyFmt x.ty
    if condFlt x.sub.toNat (s.fltOperand o f x.abs0 x.a l) (s.fltOperand o f x.abs1 x.b l) then 1 else 0

/-- FCLASS: the mask, or with a P destination whether it meets B (R91). -/
def execFclass (x : AluOp) (s : State) : Host.Outcome State Fault Refusal :=
  s.perLane (.fclass x) x false fun s o l =>
    let m := classMask (tyFmt x.ty) (s.operand o (.flt (tyFmt x.ty)) x.abs0 x.a l)
    if x.dst.cls = .p then Nat.land m (s.ctlOf o x.b l) else m

/-- FRND: integral, a zero keeping the operand's sign. -/
def execFrnd (x : AluOp) (s : State) : Host.Outcome State Fault Refusal :=
  s.perLane (.frnd x) x x.ty.isWide fun s o l =>
    fltResult x o (match s.fltOperand o (tyFmt x.ty) x.abs0 x.a l with
      | .fin neg n e => .fin neg (roundInt (rmode o.fmt x.rnd) neg n e) 0
      | v => v)

/-- The element `(B mod n)` of a word, for element code c (R92). -/
def elemAt (c w i : Nat) : Nat := w / 2 ^ (elemBits c * (i % WF.elemCount (BitVec.ofNat 5 c))) % 2 ^ elemBits c

/-- FCVT, scalar and element mode (R92). In element mode A is a packed word of 32 bits: it takes no ABS, and its negate bit
acts on the raw word, a DESIGN CHOICE where the manual is silent (log entry 70). -/
def execFcvt (x : AluOp) (s : State) : Host.Outcome State Fault Refusal :=
  s.perLane (.fcvt x) x x.ty.isWide fun s o l =>
    if x.aux = 0 then
      fltResult x o (s.fltOperand o (tyFmt ((Ty.ofCode x.sub).getD .f32)) x.abs0 x.a l)
    else
      let c := x.sub.toNat
      let b := elemAt c (s.operand o (.raw 32) false x.a l) (s.ctlOf o x.b l)
      finishFlt o.fmt .rn x.sat (tyFmt x.ty) (elemNum o.fmt c b)

/-- FTOI: rounded, then clamped; NaN gives 0 (R92). -/
def execFtoi (x : AluOp) (s : State) : Host.Outcome State Fault Refusal :=
  s.perLane (.ftoi x) x x.ty.isWide fun s o l =>
    intBits x.ty true (match s.fltOperand o (tyFmt ((Ty.ofCode x.sub).getD .f32)) x.abs0 x.a l with
      | .nan => 0
      | .inf neg => if neg then tyMin x.ty else tyMax x.ty
      | .fin neg n e =>
        let r : Int := roundInt (rmode o.fmt x.rnd) neg n e
        if neg then -r else r)

def execItof (x : AluOp) (s : State) : Host.Outcome State Fault Refusal :=
  s.perLane (.itof x) x x.ty.isWide fun s o l =>
    fltResult x o (Num.ofInt (s.intOperand o ((Ty.ofCode x.sub).getD .i32) x.a l))

/-! ### Functions (R94) -/

/-- A function rounded to nearest even. -/
def fnRn (x : AluOp) (f : Num → Num) (s : State) (o : Who) (l : Nat) : Nat :=
  finishFlt o.fmt .rn x.sat .f32 (f (s.fltOperand o .f32 x.abs0 x.a l))

def execExp2 (x : AluOp) (s : State) : Host.Outcome State Fault Refusal :=
  s.perLane (.exp2 x) x x.ty.isWide (fnRn x fnExp2)

def execLog2 (x : AluOp) (s : State) : Host.Outcome State Fault Refusal :=
  s.perLane (.log2 x) x x.ty.isWide (fnRn x fnLog2)

def execRcp (x : AluOp) (s : State) : Host.Outcome State Fault Refusal :=
  s.perLane (.rcp x) x x.ty.isWide fun s o l =>
    let b := flushOut o.fmt .f32 (rcpBits (s.fltOperand o .f32 x.abs0 x.a l))
    if x.sat then satBits .f32 b else b

def execRsq (x : AluOp) (s : State) : Host.Outcome State Fault Refusal :=
  s.perLane (.rsq x) x x.ty.isWide (fnRn x fnRsq)

def execSqrt (x : AluOp) (s : State) : Host.Outcome State Fault Refusal :=
  s.perLane (.sqrt x) x x.ty.isWide fun s o l =>
    fltResult x o (fnSqrt (s.fltOperand o (tyFmt x.ty) x.abs0 x.a l))

def execSin (x : AluOp) (s : State) : Host.Outcome State Fault Refusal :=
  s.perLane (.sin x) x x.ty.isWide (fnRn x fnSin)

def execCos (x : AluOp) (s : State) : Host.Outcome State Fault Refusal :=
  s.perLane (.cos x) x x.ty.isWide (fnRn x fnCos)

/-! ### Packed and dot-product forms (R93, R95) -/

/-- Half h of a packed operand, as a value. -/
def State.half (s : State) (o : Who) (f : FloatFmt) (abs : Bool) (x : Src) (l h : Nat) : Num :=
  readNum o.fmt f (s.operand o (.pk f) abs x l / 2 ^ (16 * h) % 2 ^ 16)

def execFdot2 (x : AluOp) (s : State) : Host.Outcome State Fault Refusal :=
  s.perLane (.fdot2 x) x false fun s o l =>
    let f := tyFmt x.ty
    let p := fun h => (s.half o f x.abs0 x.a l h).mul (s.half o f x.abs1 x.b l h)
    finishFlt o.fmt (rmode o.fmt x.rnd) x.sat .f32
      (Num.sum (isRd x o) [p 0, p 1, s.fltOperand o .f32 false x.c l])

/-- FPK2 (R93). -/
def execFpk2 (x : AluOp) (s : State) : Host.Outcome State Fault Refusal :=
  s.perLane (.fpk2 x) x false fun s o l =>
    let c := x.sub.toNat
    let b := elemBits c
    let e := fun (abs : Bool) (y : Src) => elemPack o.fmt (rmode o.fmt x.rnd) c (s.fltOperand o .f32 abs y l)
    let i := 2 * x.aux.toNat
    let w := s.operand o (.raw 32) false x.c l
    w % 2 ^ (b * i) + e x.abs0 x.a * 2 ^ (b * i) + e x.abs1 x.b * 2 ^ (b * (i + 1)) + w / 2 ^ (b * (i + 2)) * 2 ^ (b * (i + 2))

/-- FSCALE: A × 2^B; a larger exponent than 5,000 rounds as 5,000 does. -/
def execFscale (x : AluOp) (s : State) : Host.Outcome State Fault Refusal :=
  s.perLane (.fscale x) x x.ty.isWide fun s o l =>
    let k := max (-5000) (min 5000 (s.intOperand o .i32 x.b l))
    fltResult x o (match s.fltOperand o (tyFmt x.ty) x.abs0 x.a l with
      | .fin neg n e => .fin neg n (e + k)
      | v => v)

/-- FMED3: FMAX(FMIN(A, B), FMIN(FMAX(A, B), C)). -/
def execFmed3 (x : AluOp) (s : State) : Host.Outcome State Fault Refusal :=
  s.perLane (.fmed3 x) x x.ty.isWide fun s o l =>
    let f := tyFmt x.ty
    let a := s.fltBits o f x.abs0 x.a l
    let b := s.fltBits o f x.abs1 x.b l
    selected x o (fmaxBits f (fminBits f a b) (fminBits f (fmaxBits f a b) (s.fltBits o f false x.c l)))

/-- FFRAC: A − floor(A), kept below 1.0 (R91); +0 for an integral A in every rounding mode, a DESIGN CHOICE (log entry 70). -/
def execFfrac (x : AluOp) (s : State) : Host.Outcome State Fault Refusal :=
  s.perLane (.ffrac x) x x.ty.isWide fun s o l =>
    let f := tyFmt x.ty
    let one := f.bias * 2 ^ f.mw
    let v : Num := match s.fltOperand o f x.abs0 x.a l with
      | .fin neg n e =>
        if 0 ≤ e then .fin false 0 0
        else Num.ofGrid e false (Num.onGrid e (.fin neg n e) % (2 ^ (-e).toNat : Nat))
      | _ => .nan
    let b := roundFmt o.fmt (rmode o.fmt x.rnd) f v
    let b := if b = one then one - 1 else b
    if x.sat then satBits f b else b

/-- The two halves of a packed result. -/
def halves (x : AluOp) (o : Who) (v : Nat → Num) : Nat := fltResult x o (v 0) + fltResult x o (v 1) * 2 ^ 16

def execHfma2 (x : AluOp) (s : State) : Host.Outcome State Fault Refusal :=
  s.perLane (.hfma2 x) x false fun s o l =>
    let f := tyFmt x.ty
    halves x o fun h =>
      ((s.half o f x.abs0 x.a l h).mul (s.half o f x.abs1 x.b l h)).add (isRd x o) (s.half o f false x.c l h)

def execHadd2 (x : AluOp) (s : State) : Host.Outcome State Fault Refusal :=
  s.perLane (.hadd2 x) x false fun s o l =>
    let f := tyFmt x.ty
    halves x o fun h => (s.half o f x.abs0 x.a l h).add (isRd x o) (s.half o f x.abs1 x.b l h)

def execHmul2 (x : AluOp) (s : State) : Host.Outcome State Fault Refusal :=
  s.perLane (.hmul2 x) x false fun s o l =>
    let f := tyFmt x.ty
    halves x o fun h => (s.half o f x.abs0 x.a l h).mul (s.half o f x.abs1 x.b l h)

/-- Byte i of a QDOT4 operand, with its sign, then its source's negate (R95). -/
def State.dotByte (s : State) (o : Who) (signed : Bool) (x : Src) (l i : Nat) : Int :=
  let v := asInt signed 8 (s.operand o (.raw 32) false { x with neg := false } l / 2 ^ (8 * i) % 2 ^ 8)
  if x.neg then -v else v

def execQdot4 (x : AluOp) (s : State) : Host.Outcome State Fault Refusal :=
  s.perLane (.qdot4 x) x false fun s o l =>
    intBits x.ty x.sat ((List.range 4).foldl
      (fun acc i => acc + s.dotByte o (x.sub.getLsbD 0) x.a l i * s.dotByte o (x.sub.getLsbD 1) x.b l i)
      (s.intOperand o x.ty x.c l))

end Sys2Proof.Machine
end

