-- ==== Sys2Proof/Machine/Faults.lean ====
section
/-! DEFINITION. Deferred faults: those pending on a counter (R168), those of batches (R115, R140), those held for the
wave (R233, R243, R355), and their delivery (R437). -/

namespace Sys2Proof.Machine

open Sys2Proof

/-- A fault of an operation: one of a counted operation becomes pending as the operation retires (R168); another is kept
for the wave, if it still lives. -/
def State.pend (s : State) (w : Nat) (f : Pending) : State :=
  if f.ctr.isSome && (s.op f.op).isSome then s.modOp f.op fun x => { x with owed := x.owed ++ [f] }
  else s.modWave w fun v => { v with pend := addPending v.pend f }

/-- The record of a deferred fault. -/
def Pending.trap (f : Pending) (pc : Dword) : TrapInfo :=
  { TrapInfo.plain f.code pc with
    defer := true, addr := f.addr, lane := maskLow f.mask, cpc := f.pc, mask := f.mask,
    aux0 := BitVec.ofNat 32 (f.cause * 2 ^ 20) ||| f.aux0, aux1 := f.aux1, merged := f.merged }

/-- The oldest fault that satisfies a test, and the rest. -/
def takeFirst (p : Pending → Bool) : List Pending → Option (Pending × List Pending)
  | [] => none
  | f :: r =>
    if p f then some (f, r)
    else (takeFirst p r).map fun x => (x.1, f :: x.2)

/-- R168: the oldest fault pending on one of the counters in some quad of the part is raised at PC `pc`; none pending,
no effect. -/
def State.raisePending (s : State) (o : Who) (ctrs : Nat → Bool) (pc : Dword) : Option State :=
  match takeFirst (fun f => (match f.ctr with | some n => ctrs n | none => false) && (f.quads &&& o.p.quads) != 0)
      o.w.pend with
  | none => none
  | some (f, rest) =>
    -- delivered to one part, it is cleared for every quad
    let s := (s.modWave o.pr.wave fun w => { w with pend := rest }).disown f
    some (s.takeTrap o.pr (f.trap pc))

/-- The record of a batch fault at a delivery instruction (R115, R139, R140, R361). -/
def BatchFault.trap (f : BatchFault) (pc : Dword) : TrapInfo :=
  { TrapInfo.plain f.code pc with
    defer := true, addr := f.addr, cpc := f.pc, val := f.val, aux0 := BitVec.ofNat 32 (f.num + f.sub * 65536),
    aux1 := f.aux1 }

/-- The oldest batch fault of a list that satisfies a test. -/
def takeBatch (p : BatchFault → Bool) : List BatchFault → Option (BatchFault × List BatchFault)
  | [] => none
  | f :: r => if p f then some (f, r) else (takeBatch p r).map fun x => (x.1, f :: x.2)

/-- The held load errors of a wave in the order of R437: lowest quad, then class and number. -/
def firstHeld (w : Wave) : Option HeldErr :=
  leastBy (fun e => (if e.cls = 0 then e.unit / 4 else e.unit) * 2 ^ 16 + e.cls * 2 ^ 10 + e.num) w.errs

/-- R437 step 2: the first undelivered fault of the wave, and the wave without it. -/
def firstFault (o : Who) : Option (TrapInfo × Wave) :=
  let w := o.w
  let pc := o.p.pc
  match takeFirst (fun f => f.ctr.isSome) w.pend with
  | some (f, r) => some (f.trap pc, { w with pend := r })
  | none =>
    match w.fmu.faults with
    | f :: r => some (f.trap pc, { w with fmu := { w.fmu with faults := r } })
    | [] =>
      match w.ta.faults with
      | f :: r => some (f.trap pc, { w with ta := { w.ta with faults := r } })
      | [] =>
        match w.pend with
        | f :: r => some (f.trap pc, { w with pend := r })
        | [] =>
          match firstHeld w with
          | none => none
          | some e =>
            -- the register's errors in the part's quads are delivered together
            let t := memData { o with p := { o.p with quads := BitVec.allOnes 16 } } e
            some (t, { w with errs := w.errs.filter fun x => !(x.cls = e.cls && x.num = e.num && x.loss.isSome = e.loss.isSome) })

end Sys2Proof.Machine
end

