-- ==== Sys2Proof/Machine/Barrier.lean ====
section
/-! DEFINITION. Barrier objects in local store and the registrations of waves (R302 to R306), and the retirement of
raster tickets (R313). -/

namespace Sys2Proof.Machine

open Sys2Proof

/-- The four words of a barrier (R302). -/
structure Barr where
  arrq  : Nat
  expq  : Nat
  phase : Nat
  dropq : Nat
  pend  : Nat
  ovf   : Nat
deriving DecidableEq, Repr

def State.readBarr (s : State) (g a : Nat) : Barr :=
  let f := fun off n => s.natAt (.ls g (a + off)) n
  { arrq := f 2 2, expq := f 0 2, phase := f 6 2, dropq := f 4 2, pend := f 8 4, ovf := f 12 4 }

def State.writeBarr (s : State) (g a : Nat) (b : Barr) : State :=
  s.setBytes (.ls g a) (leBytes 2 b.expq ++ leBytes 2 b.arrq ++ leBytes 2 b.dropq ++ leBytes 2 b.phase ++
    leBytes 4 b.pend ++ leBytes 4 b.ovf)

/-- R302: a value that a barrier instruction accepts. -/
def Barr.legal (b : Barr) : Bool := 1 ≤ b.expq && b.expq ≤ 256 && b.arrq ≤ b.expq && b.dropq ≤ b.expq

/-- R304: complete_if_due. -/
def Barr.settle (b : Barr) : Barr :=
  if b.expq != 0 && b.arrq = b.expq && b.pend = 0 then
    { b with phase := (b.phase + 1) % 2 ^ 16, expq := b.expq - b.dropq, dropq := 0, arrq := 0 }
  else b

/-- The wave's entry for a barrier. -/
def Wave.regAt (w : Wave) (a : Nat) : Option Registration := w.regs.find? fun r => r.addr = a

/-- The entry replaced or entered; one whose REG is empty is freed. -/
def Wave.putReg (w : Wave) (r : Registration) : Wave :=
  if w.regs.any fun x => x.addr = r.addr then
    { w with regs := (w.regs.map fun x => if x.addr = r.addr then r else x).filter fun x => x.reg != 0 }
  else { w with regs := (w.regs ++ [r]).filter fun x => x.reg != 0 }

/-- R305: drop(D, b) for a wave's entry. -/
def dropQuads (b : Barr) (e : Registration) (d : QuadMask) : Barr × Registration :=
  let fresh := if e.last.toNat = b.phase then d &&& ~~~ e.arr else d
  (({ b with arrq := b.arrq + maskCount fresh, dropq := b.dropq + maskCount d }).settle, { e with reg := e.reg &&& ~~~ d })

/-- Whether a barrier's bytes are in uncorrectable error (R2). -/
def State.barrBad (s : State) (g a : Nat) : Bool := s.badAt (.ls g a) 16

/-- R305: drop({quad}) at one barrier of a wave. A barrier whose bytes R302 forbids or are in uncorrectable error, or that
has retired, is left as it is. -/
def State.exitDrop (s : State) (o : Who) (a q : Nat) : State :=
  match (s.waves.get o.pr.wave).bind fun w => w.regAt a with
  | none => s
  | some r =>
    let b := s.readBarr o.w.group a
    if b.legal && !s.barrBad o.w.group a then
      let (b', r') := dropQuads b r (bit1 16 q)
      (s.writeBarr o.w.group a b').modWave o.pr.wave fun w => w.putReg r'
    else s.modWave o.pr.wave fun w => w.putReg { r with reg := r.reg &&& ~~~ bit1 16 q }

/-- R305: the implicit ARRDROP of quads whose lanes have all exited, quad by quad, at every barrier they are registered
at. -/
def State.exitDrops (s : State) (o : Who) (q : QuadMask) : State :=
  (maskBits q).foldl (fun s q =>
    (o.w.regs.filter fun r => r.reg.getLsbD q).foldl (fun s r => s.exitDrop o r.addr q) s) s

/-! ### Raster tickets -/

/-- A position of a draw. -/
def posKey (draw tx ty : Nat) : Nat := draw * 2 ^ 32 + ty * 2 ^ 16 + tx

/-- The count advances past every ticket that has been retired (R313). -/
def advanceNext (l : List (Nat × Nat × Nat)) (draw pos : Nat) : Nat → Nat → Nat
  | 0, n => n
  | f + 1, n => if l.contains (draw, pos, n) then advanceNext l draw pos f (n + 1) else n

/-- R313: a ticket at a position is retired. -/
def Raster.retire (r : Raster) (draw tx ty ticket : Nat) : Raster :=
  let l := (draw, ty * 2 ^ 16 + tx, ticket) :: r.retired
  let k := posKey draw tx ty
  { r with retired := l, next := r.next.put k (advanceNext l draw (ty * 2 ^ 16 + tx) l.length ((r.next.get k).getD 0)) }

/-- The draw of a pixel or geometry launch. -/
def WorkUnit.draw (u : WorkUnit) : Nat := u.parent.getD 0

/-- The current record of the wave is retired, once (R313), with what the core releases; the section it held is
released. -/
def State.retireTile (s : State) (o : Who) : State :=
  match o.w.tile with
  | none => s
  | some t =>
    if t.done then s
    else
      let xy := (nth t.words 0).toNat
      let k := s.core o.g.core
      let s := s.modCluster (clusterOf o.g.core) fun c =>
        { c with rast := { c.rast.retire o.u.draw (xy % 2 ^ 16) (xy / 2 ^ 16) t.ticket with
                             sig := sigJoin c.rast.sig (k.sig, k.z) } }
      (s.afterRelease o.g.core).modWave o.pr.wave fun w => { w with tile := some { t with done := true, held := false } }

end Sys2Proof.Machine
end

