-- ==== Sys2Proof/Machine/Fetch.lean ====
section
/-! DEFINITION. Entering a line (R25 to R28, R33, R52 items 1 to 5) and reading its slots (R24). -/

namespace Sys2Proof.Machine

open Sys2Proof

/-- R324: the class of a part's requests. -/
def Who.netClass (o : Who) : Nat := o.u.netClass

/-- 64 bytes as a line (R5). -/
def lineOfBytes (d : List Byte) : Line := BitVec.ofNat 512 (leNat d)

/-- R26: parity over all 512 bits. -/
def lineOdd (l : Line) : Bool := maskCount l % 2 = 1

/-- The 512 bits with the parity bit made even. -/
def lineEven (l : Line) : Line := if lineOdd l then l ^^^ 1 else l

/-- Fields of the line word (R26). -/
def lineKind (l : Line) : Nat := (l.extractLsb' 30 2).toNat
def lineSetB (l : Line) : Nat := (l.extractLsb' 26 4).toNat
def lineSetA (l : Line) : Nat := (l.extractLsb' 22 4).toNat
def lineMask (l : Line) : BitVec 12 := l.extractLsb' 10 12
def lineTargets (l : Line) : BitVec 5 := l.extractLsb' 5 5

/-- R24: slot i. -/
def lineSlot (l : Line) (i : Nat) : Slot := l.extractLsb' (32 + 96 * i) 96

/-- What a fetch of a line meets. -/
inductive Fetched where
  | line (l : Line)
  /-- The bytes are in uncorrectable error: no line of even parity (log entry 10). -/
  | bad
  | near (code level : Nat)
  | far (level : Nat)
deriving DecidableEq, Repr

/-- R384: an STX.B512 of a whole aligned line reaches fetch as one: from its first write on, a fetch sees all of it. -/
def State.newLine (s : State) (l : Loc) (d : List Byte) : List Byte :=
  (s.ops.filter fun x => x.kind = .store && x.code = 11 && !x.done && x.pieces.length != x.opens.length &&
      (x.pieces.map fun p => p.len).foldl (· + ·) 0 = 64 && x.pieces.all fun p => p.loc.sector = l.sector || p.loc.sector = (l.add 32).sector).foldl
    (fun d x => x.opens.foldl (fun d p => (d.take (p.loc.off - l.off)) ++ p.data ++ d.drop (p.loc.off - l.off + p.len)) d) d

/-- Whether a part of a scheduler holds a line, so that the line cache has it (log entry 69). -/
def State.lineHeld (s : State) (core sched : Nat) (base : Dword) : Bool :=
  (s.slotted core sched).any fun x => match x.2.line with | some l => l.base = base | none => false

/-- R25, R333: a fetch through the part's translation, from the home slice (R384). -/
def State.fetchLine (s : State) (o : Who) (base : Dword) : State × Fetched :=
  match s.translate o.g.core o.asid .fetch base with
  | (s, .error (.near c lv)) => (s, .near c lv)
  | (s, .error (.far lv)) => (s, .far lv)
  | (s, .ok x) =>
    match s.region o.u.ctl x.pa with
    | none => (s, .near codeMemRegion 0)
    | some (.ctrl a) =>
      let s := s.tick
      (s, .line (lineOfBytes ((List.range 64).map fun i => Config.freeByte s.ctr (a + i))))
    | some l =>
      if s.badAt l 64 then (s, .bad)
      else
        let s := if s.lineHeld o.g.core o.w.sched base then s else s.ask (clusterOf o.g.core) o.netClass false l 64
        let (s, d1) := s.readAt l 32
        let (s, d2) := s.readAt (l.add 32) 32
        (s, .line (lineOfBytes (s.newLine l (d1 ++ d2))))

/-- The copy of a line that the part holds: of a body that it has pinned (R270), or of the line that it is in (R384). -/
def pinned (p : Part) (base : Dword) : Option Line :=
  match p.pin.find? fun e => e.1 = base.toNat with
  | some e => some e.2
  | none => ((p.line.or p.kept).filter fun l => l.base = base).map fun l => l.bits

/-- R33: the counters that the wait mask names are zero in every quad of the part. -/
def State.maskHolds (s : State) (o : Who) (m : BitVec 12) : Bool :=
  (maskBits m).all fun n => (maskBits o.p.quads).all fun q => s.count o.pr.wave n q = 0

/-- Stall reason of a wait on counters: 19 for a read of a bank in its turning window, 20 for sampler work, 21 for rays,
else `other` (R131, R168); the lowest among those of the operations waited for (R382). -/
def State.counterReason (s : State) (o : Who) (ctrs : Nat → Bool) (other : Nat) : Nat :=
  let l := s.ops.filter fun x => x.wave = o.pr.wave && !x.done && (x.quads &&& o.p.quads) != 0 &&
    (match x.ctr with | some n => ctrs n | none => false)
  -- a counted engine operation retires from an entry of its own (R113)
  let reads := fun (x : Op) => x :: s.ops.filter fun y =>
    x.kind = .done && !y.done && y.wave = x.wave && y.kind = .twld && (nth y.args 0).toNat = x.id
  let reason := fun (x : Op) =>
    if (reads x).any fun y => y.opens.any fun p => s.turning p.loc then 19
    else if x.kind = .sample then 20 else if x.kind = .trace then 21 else other
  if l.isEmpty then other else (l.map reason).foldl min 21

/-- R26 to R28, R33: the checks of a line of even parity at the part's PC, and the wait mask; when they pass, the part
holds its copy of the line. -/
def State.enterChecked (s : State) (o : Who) (l : Line) : State :=
  let pc := o.p.pc
  if lineKind l != 0 then s.trapHere o codeLineKind
  else if o.p.check && !(lineTargets l).getLsbD ((slotOf pc).getD 0) then s.trapHere o codeBranchTarget
  else if (12 ≤ lineSetA l && lineSetA l ≤ 14) || (12 ≤ lineSetB l && lineSetB l ≤ 14) then
    s.takeTrap o.pr (TrapInfo.ofSlot codeIllegal pc (lineSlot l ((slotOf pc).getD 0)))
  else
    let held := fun (s : State) (h : Hold) (r : Nat) => s.modPart o.pr fun p =>
      { p with line := some { base := lineBase pc, bits := l }, check := false, hold := h, stall := r }
    if s.maskHolds o (lineMask l) then
      match s.raisePending o (fun n => (lineMask l).getLsbD n) pc with
      | some s => s
      | none => held s .no 0
    else held s .lineMask (s.counterReason o (fun n => (lineMask l).getLsbD n) 1)

/-- R27: a line arrives; one of odd parity is fetched again once. -/
def State.arrive (s : State) (o : Who) (second : Bool) : State :=
  match pinned o.p (lineBase o.p.pc) with
  | some l => s.enterChecked o l
  | none =>
    match s.fillTlbs o.g.core o.asid [lineBase o.p.pc] with
    | (s, true) => s.stallFor o.pr 24
    | (_, false) =>
    if s.portWaits (clusterOf o.g.core) o.netClass 4 then s.stallFor o.pr 6 else
    let size := match (s.translate o.g.core o.asid .fetch (lineBase o.p.pc)).2 with | .ok x => x.log | .error _ => 12
    match (if second then s else s.look o.g.core o.asid o.p.pc 2 size).fetchLine o (lineBase o.p.pc) with
    | (s, .near c lv) =>
      s.takeTrap o.pr { TrapInfo.plain c o.p.pc with addr := o.p.pc, val := BitVec.ofNat 32 lv }
    | (s, .far lv) => s.takeFar o.pr { va := o.p.pc, level := lv, acc := 2 }
    | (s, .bad) =>
      if second then s.trapHere o codeLineParity
      else s.modPart o.pr fun p => { p with hold := .refetch, stall := 7 }
    | (s, .line l) =>
      if lineOdd l then
        if second then (if lineKind l != 0 then s.trapHere o codeLineKind else s.trapHere o codeLineParity)
        else s.modPart o.pr fun p => { p with hold := .refetch, stall := 7 }
      else s.enterChecked o l

/-- Issue enters the line of the part's PC (R25, R26). -/
def State.enterLine (s : State) (o : Who) : State :=
  if pcLegal o.p.pc then s.arrive o false else s.trapHere o codeInstrAddr

/-- The second copy of the line that a part waits for (R27); any other part waits for none. -/
def State.refetch (s : State) (o : Who) : State :=
  match o.p.hold, o.p.status with
  | .refetch, .resident => s.arrive o true
  | _, _ => s

/-- LINE_REFETCH: the second copy arrives (R27). -/
def stepLineRefetch (p : PartRef) (s : State) : Host.Outcome State Fault Refusal :=
  .next <|
    match s.who p with
    | some o => s.refetch o
    | none => s

/-- LINE_WAIT_RELEASE: the counters of the wait mask are zero; a pending fault is raised, or issue enters the line
(R33, R168). -/
def stepLineWaitRelease (p : PartRef) (s : State) : Host.Outcome State Fault Refusal :=
  .next <|
    match s.who p with
    | some o =>
      match o.p.hold, o.p.status, o.p.line with
      | .lineMask, .resident, some l =>
        if s.maskHolds o (lineMask l.bits) then
          match s.raisePending o (fun n => (lineMask l.bits).getLsbD n) o.p.pc with
          | some s => s
          | none => s.modPart p fun q => { q with hold := .no, stall := 0 }
        else s
      | _, _, _ => s
    | none => s

end Sys2Proof.Machine
end

