-- ==== Sys2Proof/Machine/Slots.lean ====
section
/-! DEFINITION. Part slots (R289, R292, R295), cuts (R254 to R257), fuses (R259 to R262), and the end of lanes, quads,
parts and waves (R263, R437). -/

namespace Sys2Proof.Machine

open Sys2Proof

/-! ### Episodes and fuses -/

/-- Parts of a wave other than those in a list. -/
def othersOf (w : Wave) (l : List Nat) : Tbl Part := w.parts.filter fun p => !l.contains p.1

/-- R50, R262: the quads that the waiting instruction asks for, counted anew as quads exit (R263). -/
def Episode.needs (w : Wave) (e : Episode) : Nat :=
  match e.parts.head?.bind (Tbl.get w.parts) with
  | some p => (match p.hold with | .width i => needQuads w i.width | _ => e.need)
  | none => e.need

/-- R258: every other live part has its LATE flag set; R262: LATE parts are waited for. -/
def Episode.full (w : Wave) (e : Episode) : Bool := (othersOf w e.parts).all fun p => !e.impl && p.2.late

/-- Every member is resident and its core does not hold it. -/
def Episode.here (w : Wave) (e : Episode) : Bool :=
  e.parts != [] && e.parts.all fun i => match w.parts.get i with | some p => p.status = .resident | none => false

/-- R258, R262: the condition at which an episode fuses is met, but for its timeout. -/
def Episode.meets (w : Wave) (e : Episode) : Bool := e.full w || e.impl && e.needs w ≤ maskCount (episodeQuads w e)

/-- R261: same depth, same entry PCs, same repeat. -/
def knitMatch (a b : Part) : Bool :=
  (a.stack.map fun e => e.pc) = (b.stack.map fun e => e.pc) &&
  match a.rep, b.rep with
  | none, none => true
  | some x, some y => x.start = y.start && x.stop = y.stop && x.rem = y.rem
  | _, _ => false

/-- Stack masks merged position by position; PC and FMT are the leader's. -/
def mergeStacks (a b : List StackEntry) : List StackEntry :=
  a.zipWith (fun x y => { x with mask := x.mask ||| y.mask }) b

/-- The signatures that two parts hold. -/
def joinSigs : Option (Sig × Time) → Option (Sig × Time) → Option (Sig × Time)
  | none, b => b
  | a, none => a
  | some a, some b => some (sigJoin a b)

/-- R259: a part joins the leader. -/
def fusePart (a b : Part) : Part :=
  { a with quads := a.quads ||| b.quads, active := a.active ||| b.active, stack := mergeStacks a.stack b.stack,
           prior := a.prior ++ b.prior.filter fun i => !a.prior.contains i, sigs := joinSigs a.sigs b.sigs,
           fence := match a.fence, b.fence with | none, f => f | some x, some y => some (if x.toNat < y.toNat then y else x) | f, none => f }

/-- S, FMT and CUTP of quad `q` copied to the quads of a mask (R248). -/
def copyQuads (w : Wave) (q : Nat) (m : QuadMask) : Wave :=
  { w with s := w.s.map fun e => (e.1, quadsOf fun i => if m.getLsbD i then nth e.2 q else nth e.2 i),
           fmt := quadsOf fun i => if m.getLsbD i then nth w.fmt q else nth w.fmt i,
           cutp := quadsOf fun i => if m.getLsbD i then nth w.cutp q else nth w.cutp i,
           errs := (w.errs.filter fun e => e.cls = 0 || !m.getLsbD e.unit) ++
             (w.errs.filter fun e => e.cls = 1 && e.unit = q).flatMap fun e =>
               ((List.range 16).filter m.getLsbD).map fun i => { e with unit := i } }

/-- Tokens of some parts of a wave go to its leader (R106). -/
def moveTokens (wave : Nat) (old : List Nat) (new : Nat) (g : Group) : Group :=
  { g with token := g.token.map fun t =>
      if t.2.wave = wave && old.contains t.2.part then (t.1, { wave := wave, part := new }) else t }

/-- R259, R261: the parts of an episode fuse; those that differ from the leader take KNIT_MISMATCH. `code` is the event.
The leader is answered, at the episode's PC still. -/
def State.fuse (s : State) (wave : Nat) (e : Episode) (code : Nat) : State × PartRef × List Nat :=
  match s.waves.get wave with
  | none => (s, { wave := wave, part := 0 }, [])
  | some w =>
    let lead := e.parts.foldl min 16
    let lp := w.parts.get lead
    let bad := e.parts.filter fun i => match lp, w.parts.get i with
      | some a, some b => !knitMatch a b
      | _, _ => false
    let good := e.parts.filter fun i => i != lead && !bad.contains i
    let w1 : Wave := { w with eps := w.eps.filter fun x => !(x.pc = e.pc && x.impl = e.impl) }
    let fused := good.foldl (fun (a : Option Part) i => match a, w.parts.get i with
      | some a, some b => some (fusePart a b)
      | a, _ => a) lp
    match fused with
    | none => (s, { wave := wave, part := lead }, [])
    | some f =>
      let f := { f with kc := f.kc + 1, late := false, hold := .no, stall := 0 }
      let w2 : Wave := { w1 with parts := (good.foldl (fun t i => Tbl.del t i) w1.parts).put lead f }
      let w2 := copyQuads w2 lead f.quads
      let s := (s.modWave wave fun _ => w2).modGroup w.group (moveTokens wave good lead)
      let pr : PartRef := { wave := wave, part := lead }
      let s := match s.who pr with
        | some o => s.waveEvent o code f.quads e.pc
        | none => s
      let d := ((s.waves.get wave).map fun w => w.seqs.dseq).getD 0
      let s := s.modPart pr fun p => { p with born := d, ord := 0 }
      let s := bad.foldl (fun s i =>
        match s.who { wave := wave, part := i } with
        | some o =>
          let s := s.waveEvent o 10 o.p.quads e.pc
          s.takeTrap o.pr { TrapInfo.plain codeKnit e.pc with evt := some 10 }
        | none => s) s
      (s, pr, bad)

/-! ### The end of lanes, quads and parts -/

/-- A part whose lowest quad changes takes the id of its new lowest quad (R249). -/
def Wave.rename (w : Wave) (a b : Nat) : Wave :=
  match w.parts.get a with
  | none => w
  | some p =>
    { w with parts := (Tbl.del w.parts a).put b p,
             eps := w.eps.map fun e => { e with parts := e.parts.map fun i => if i = a then b else i } }

/-- R263, R41: lanes of the part end; their quads leave it when all four have ended, dropping their barrier
registrations; a part without quads ends and returns its tokens (R106). -/
def State.exitLanes (s : State) (o : Who) (m : LaneMask) : State :=
  let exited := o.w.exited ||| m
  let gone : QuadMask := maskOf 16 fun q => o.p.quads.getLsbD q && exited.extractLsb' (4 * q) 4 = (15 : BitVec 4)
  let left := o.p.quads &&& ~~~ gone
  let s := s.modWave o.pr.wave fun w => { w with exited := exited }
  let s := (maskBits gone).foldl (fun s q => s.decide o 0 8 o.pr.part o.p.pc.toNat (bit1 16 q).toNat 0) s
  let s := s.exitDrops o gone
  if left = 0 then
    let s := s.waveEvent o 9 o.p.quads o.p.pc
    let s := s.unpin o
    let s := s.modGroup o.w.group fun g => { g with token := g.token.filter fun t => t.2 != o.pr }
    s.modWave o.pr.wave fun w =>
      { w with parts := Tbl.del w.parts o.pr.part,
               eps := (w.eps.map fun e => { e with parts := e.parts.filter fun i => i != o.pr.part }).filter
                 fun e => e.parts != [] }
  else
    let s := s.modPart o.pr fun p => { p with quads := left, active := p.active &&& ~~~ m }
    if lowQuad left = o.pr.part then s
    else (s.modWave o.pr.wave fun w => w.rename o.pr.part (lowQuad left)).modGroup o.w.group
      (moveTokens o.pr.wave [o.pr.part] (lowQuad left))

/-- R437: the part is the wave's last live one and the lanes are all that the wave has left. -/
def lastExit (o : Who) (m : LaneMask) : Bool :=
  o.w.parts.length = 1 && (quadLanes (maskOf 16 fun q => q < o.w.nquads) &&& ~~~ o.w.exited &&& ~~~ m) = 0

/-- R437 step 1: the stall reason while anything of the wave is outstanding. -/
def State.exitWait (s : State) (o : Who) : Option Nat :=
  let l := s.ops.filter fun x => x.wave = o.pr.wave && !x.done
  if l.isEmpty then none
  else if l.any fun x => x.kind.path = 2 then some 17
  else if l.any fun x => x.kind.path = 3 then some 18
  else some 2

/-- The wave ends: its ticket is retired (R313); its registers stand as they are until its group ends (R291, R422). -/
def State.endWave (s : State) (o : Who) : State :=
  let s := s.retireTile o
  let last := (s.waves.get o.pr.wave).getD o.w
  { s with waves := Tbl.del s.waves o.pr.wave, groups := s.groups.upd o.w.group fun g =>
      { g with waves := g.waves.filter fun w => w != o.pr.wave, gone := g.gone.put o.pr.wave last } }

/-- R437 steps 2 and 3: with nothing outstanding, the first undelivered fault is taken in place of the end; else the
wave ends. -/
def State.endOrFault (s : State) (o : Who) (m : LaneMask) : State :=
  match firstFault o with
  | some (t, w) => (s.modWave o.pr.wave fun _ => w).takeTrap o.pr t
  | none => (s.exitLanes o m).endWave o

end Sys2Proof.Machine
end

