-- ==== Sys2Proof/Machine/Flow.lean ====
section
/-! DEFINITION. The branch and wave-state instructions 0x50 to 0x5E and the events of cuts, knits and exits (R247 to
R275, R437). -/

namespace Sys2Proof.Machine

open Sys2Proof

/-! ### Targets -/

/-- R25 to R28, R267, R268: what stops a branch before it issues, at its target: a PC that R25 forbids, a line whose
target bit is clear (R28), and a line that cannot be had. The copy that the part holds serves (R270, R384). A near or a far
fault is the branch's, with the target's address; a copy of odd parity is fetched again once (R27). -/
def State.targetStop (s : State) (o : Who) (pc : Dword) : State × Option Stop :=
  let bit := fun (l : Line) =>
    if lineKind l != 0 then some (Stop.trap (TrapInfo.plain codeLineKind pc))
    else if (lineTargets l).getLsbD ((slotOf pc).getD 0) then none
    else some (Stop.trap (TrapInfo.plain codeBranchTarget pc))
  let odd := if o.p.hold = .retry && o.p.stall = 7 then Stop.trap (TrapInfo.plain codeLineParity pc) else Stop.stall 7
  if !pcLegal pc then (s, some (.trap (TrapInfo.plain codeInstrAddr pc)))
  else
    match pinned o.p (lineBase pc) with
    | some l => (s, bit l)
    | none =>
      match s.fillTlbs o.g.core o.asid [lineBase pc] with
      | (s, true) => (s, some (.stall 24))
      | (s, false) =>
        if s.portWaits (clusterOf o.g.core) o.netClass 4 then (s, some (.stall 6)) else
        match s.fetchLine o (lineBase pc) with
        | (s, .near c lv) =>
          (s, some (.trap { TrapInfo.plain c o.p.pc with addr := pc, val := BitVec.ofNat 32 lv }))
        | (s, .far lv) => (s, some (.far { va := pc, level := lv, acc := 2 }))
        | (s, .bad) => (s, some odd)
        | (s, .line l) => if lineOdd l then (s, some odd) else (s, bit l)

/-- The target of a B-format instruction as the record of a failing check holds it. -/
def flowPc (pc : Dword) (x : FlowOp) : Dword :=
  BitVec.ofInt 64 (((pc.toNat / 64 : Nat) + x.offs.toInt) * 64 + slotOffsets.getD x.slot.toNat 0)

/-- A checked target: the PC, or what stops the branch. -/
def State.checkTarget (s : State) (o : Who) (pc : Dword) : State × Except Stop Dword :=
  match s.targetStop o pc with
  | (s, some e) => (s, .error e)
  | (s, none) => (s, .ok pc)

def State.checkFlow (x : FlowOp) (o : Who) (s : State) : State × Except Stop Dword :=
  match flowTarget o.p.pc x with
  | none => (s, .error (.trap (TrapInfo.plain codeInstrAddr (flowPc o.p.pc x))))
  | some pc => s.checkTarget o pc

/-- The trap among what a check finds. -/
def trapOf {α : Type} : State × Except Stop α → Option TrapInfo
  | (_, .error (.trap t)) => some t
  | _ => none

/-- Whether a branch may read its operands: they are registers of the launch, written and without error. -/
def State.operandsKnown (s : State) (o : Who) (i : Instr) : Bool :=
  (rangeFault o i).isNone && !s.waitsFor o i.uses && (heldError o i.uses).isNone

/-- R267: the active lanes that take a BRC. -/
def State.takers (s : State) (o : Who) (c : Src) : LaneMask :=
  let m := o.p.active &&& ~~~ o.w.exited
  maskOf 64 fun l => m.getLsbD l && ((rawBits s o (.raw 32) c l != 0) != c.neg)

/-- R52: a trap of a branch's target (items 1 to 4) comes before those of the branch itself, but not before the branch is
found legal, and while the target is not yet known there is none. -/
def State.targetFirst (s : State) (i : Instr) : Option (PartRef × TrapInfo) :=
  (s.who s.cur).bind fun o =>
    if illegalHere o i (headOf i) || ((headOf i).pneg && (headOf i).pred = 7) then none
    else
      (match i with
       | .br x => trapOf (s.checkFlow x o)
       | .call x => trapOf (s.checkFlow x o)
       | .brc x => if s.operandsKnown o i && s.takers o x.cond != 0 then trapOf (s.checkFlow x o) else none
       | .brx x => if s.operandsKnown o i then trapOf (s.checkTarget o (o.spair x.a.num.toNat)) else none
       | .ret x => if s.operandsKnown o i then trapOf (s.checkTarget o (o.spair x.a.num.toNat)) else none
       | _ => none).map fun t => (o.pr, t)

/-- The issue of a branch. -/
def State.issueBranch {α : Type} (s : State) (i : Instr) (check : Who → State → State × Except Stop α)
    (act : α → Who → State → State) : Host.Outcome State Fault Refusal :=
  match s.targetFirst i with
  | some (p, t) => .next (s.takeTrap p t)
  | none => s.issueWith i (fun _ _ => []) check act

/-- BR (R267). -/
def execBr (x : FlowOp) (s : State) : Host.Outcome State Fault Refusal :=
  s.issueBranch (.br x) (fun o s => s.checkFlow x o)
    fun pc o s => (s.jumpTo o.pr pc false).settle

/-- R254: every quad's active lanes all take or all do not. -/
def quadUniform (m t : LaneMask) : Bool :=
  (List.range 16).all fun q =>
    let a : BitVec 4 := m.extractLsb' (4 * q) 4
    let b : BitVec 4 := t.extractLsb' (4 * q) 4
    b = 0 || b = a

/-- R395: in replay, whether a BRC's cut is the next record of the part. -/
def State.cutLogged (s : State) (o : Who) : Bool :=
  match s.partNext o with
  | some (_, r) => recKind r = 0 && recCode r = 0 && recPc r = o.p.pc.toNat % 2 ^ 57
  | none => false

/-- R254: a BRC that may cut: not NOCUT, the cut bit of CUTP set, and every quad of one mind. -/
def brcMayCut (o : Who) (x : FlowOp) (t : LaneMask) : Bool :=
  !x.nocut && o.cutp.getLsbD 0 && quadUniform (o.p.active &&& ~~~ o.w.exited) t

/-- R254, R395: whether a BRC cuts, and the slot of the new part. In replay a cut is made if and only if it is logged. -/
def State.branchCut (s : State) (o : Who) (x : FlowOp) (t : LaneMask) : Option Nat :=
  if brcMayCut o x t && (o.u.mode != 3 || s.cutLogged o) then
    s.freeSlot o.u o.g.unit o.g.core o.w.sched
  else none

/-- R395: in replay, a cut that is logged waits until its record is the next of its wave and a slot is free. -/
def State.cutWaits (s : State) (o : Who) (x : FlowOp) (t : LaneMask) : Bool :=
  o.u.mode = 3 && brcMayCut o x t && s.cutLogged o && ((s.branchCut o x t).isNone || s.partNext o != s.replayNext o.u o.g.core o.wid)

/-- R251: diverge. -/
def divergePart (p : Part) (fmt : Word) (target next : Dword) (t n : LaneMask) : Part :=
  let lo := if target.toNat < next.toNat then (target, t) else (next, n)
  let hi := if target.toNat < next.toNat then (next, n) else (target, t)
  { p with pc := lo.1, active := lo.2, stack := settleStack.insertEntry hi.1 hi.2 fmt p.stack,
           line := if lineBase lo.1 = lineBase p.pc && lo.1 = next then p.line else none, kept := p.keepFor lo.1,
           check := false, hold := .no, stall := 0, nobrk := false }

/-- What a BRC does: nobody takes, all take, a cut with its slot, or divergence. -/
inductive BrcWay where
  | fall
  | jump (pc : Dword)
  | cut (pc : Dword) (t : LaneMask) (slot : Nat)
  | diverge (pc : Dword) (t : LaneMask)
deriving DecidableEq, Repr

/-- The checks of a BRC: the target's, and STACK_LIMIT (R252). -/
def brcCheck (x : FlowOp) (o : Who) (s : State) : State × Except Stop BrcWay :=
  let t := s.takers o x.cond
  let m := o.p.active &&& ~~~ o.w.exited
  if t = 0 then (s, .ok .fall)
  else
    match s.checkFlow x o with
    | (s, .error e) => (s, .error e)
    | (s, .ok pc) =>
      if t = m then (s, .ok (.jump pc))
      else if s.cutWaits o x t then (s, .error (.stall 2))
      else
        match s.branchCut o x t with
        | some k => (s, .ok (.cut pc t k))
        | none =>
          let d := divergePart o.p o.fmt pc (successor o.p.pc) t (m &&& ~~~ t)
          if 64 < d.stack.length then (s, .error (.trap (TrapInfo.plain codeStack o.p.pc)))
          else (s, .ok (.diverge pc t))

/-- BRC (R251 to R254, R267). -/
def execBrc (x : FlowOp) (s : State) : Host.Outcome State Fault Refusal :=
  s.issueBranch (.brc x) (brcCheck x) fun way o s =>
    match way with
    | .fall => (s.advance o.pr).settle
    | .jump pc => (s.jumpTo o.pr pc false).settle
    | .cut pc t k =>
      let q := lanesQuads t
      let s := s.cut o q o.p.pc o.p.pc 0 k
      let r := o.p.quads &&& ~~~ q
      -- each side moves on by itself: the taken part to the target, the other to the successor
      ((s.jumpTo { wave := o.pr.wave, part := lowQuad q } pc false).advance { wave := o.pr.wave, part := lowQuad r }).settle
    | .diverge pc t =>
      let m := o.p.active &&& ~~~ o.w.exited
      let n := (divergePart o.p o.fmt pc (successor o.p.pc) t (m &&& ~~~ t)).stack.length
      let s := s.modPart o.pr fun p =>
        let q := dropRepeat (divergePart p o.fmt pc (successor p.pc) t (m &&& ~~~ t))
        if 8 < n && o.p.stack.length < n then { q with hold := .spill true, stall := 11 } else q
      -- a target that is the successor merges again at once
      (s.settlePart o.pr).settle

/-- BRX and RET: the S pair (R268). -/
def jumpPair (i : Instr) (x : JumpOp) (s : State) : Host.Outcome State Fault Refusal :=
  s.issueBranch i (fun o s => s.checkTarget o (o.spair x.a.num.toNat))
    fun pc o s => (s.jumpTo o.pr pc false).settle

def execBrx (x : JumpOp) (s : State) : Host.Outcome State Fault Refusal := jumpPair (.brx x) x s
def execRet (x : JumpOp) (s : State) : Host.Outcome State Fault Refusal := jumpPair (.ret x) x s

/-- CALL: the successor's PC into the link pair, then the transfer (R268). -/
def execCall (x : FlowOp) (s : State) : Host.Outcome State Fault Refusal :=
  s.issueBranch (.call x) (fun o s => s.checkFlow x o) fun pc o s =>
    ((s.writeSS o x.link (successor o.p.pc).toNat).jumpTo o.pr pc false).settle

/-- Place of a stack entry in the part's context frame, counted from the deepest entry (R369). -/
def Who.stackAt (o : Who) (i : Nat) : Dword :=
  o.frame + BitVec.ofNat 64 (4096 + o.pr.part * quadBlock o.u + 16 * o.u.valloc + 512 + 32 * i)

/-- R252: the entries deeper than the 8 nearest the top are written to the stack area. -/
def State.writeDeep (s : State) (o : Who) : State × Bool :=
  (o.p.stack.drop 8).zipIdx.foldl (fun r e =>
    if r.2 then
      r.1.devWrite o.asid (o.stackAt (o.p.stack.length - 9 - e.2))
        (leBytes 8 e.1.pc.toNat ++ leBytes 8 e.1.mask.toNat ++ leBytes 4 e.1.fmt.toNat ++ leBytes 12 0) 2
    else r) (s, true)

/-- STACK_SPILL_DONE: an entry has come back from the frame, where a pop stalled the part, and the deep entries lie in it
(R252). A failing frame access resets the context (R363). -/
def stepStackSpillDone (p : PartRef) (s : State) : Host.Outcome State Fault Refusal :=
  .next <|
    match s.who p with
    | none => s
    | some o =>
      match o.p.hold, o.p.status with
      | .spill out, .resident =>
        let back := if out then (s, true) else
          match s.devRead o.asid (o.stackAt (o.p.stack.length - 8)) 2 with
          | (s, .ok _) => (s, true)
          | (s, _) => (s, false)
        let done := if back.2 then back.1.writeDeep o else back
        if done.2 then done.1.modPart p fun q => { q with hold := .no, stall := 0 }
        else done.1.beginReset o.u.ctl o.u.ctx
      | _, _ => s

/-! ### Knits -/

/-- KNIT (R258, R260). -/
def execKnit (x : CtlOp) (s : State) : Host.Outcome State Fault Refusal :=
  s.issueWith (α := Unit) (.knit x) (fun _ _ => [])
    (fun o s => if o.p.late && (s.ringShort o.u o.g.core 1 || !s.mayDecide o 0) then (s, .error (.stall 9)) else (s, .ok ())) fun _ o s =>
    if o.p.late then
      let s := s.waveEvent o 5 o.p.quads o.p.pc
      ((s.modPart o.pr fun p => { p with late := false }).advance o.pr).settle
    else if o.w.parts.length = 1 then (s.advance o.pr).settle
    else s.joinEpisode o false 0 (.instr (.knit x)) 9

/-- The open episode of a wave at a PC. -/
def State.episodeAt (s : State) (wave : Nat) (pc : Dword) (impl : Bool) : Option (Wave × Episode) :=
  (s.waves.get wave).bind fun w => (w.eps.find? fun e => e.pc = pc && e.impl = impl).map fun e => (w, e)

/-- R394: decisions that no instruction makes wait while the reserve of the event ring is exhausted. -/
def State.reserveOut (s : State) (wave : Nat) : Bool :=
  match (s.waves.get wave).bind fun w => s.groups.get w.group with
  | some g => match s.units.get g.unit with
    | some u => s.ringShort u g.core 1
    | none => false
  | none => false

/-- The members of an episode whose quads all lie in a mask. -/
def Episode.within (w : Wave) (e : Episode) (m : QuadMask) : Episode :=
  { e with parts := e.parts.filter fun i => match w.parts.get i with | some p => (p.quads &&& ~~~ m) = 0 | none => false }

/-- Whether every live part of a wave waits in a knit episode or was saved: nothing of it goes on by itself. -/
def Wave.allKnit (w : Wave) : Bool := w.parts.all fun p => p.2.status != .resident || w.eps.any fun e => e.parts.contains p.1

/-- R395: in replay, a wave's decision of kind 0 is made as its next record gives it; where the parts all wait at knits that
the record does not give, it differs, and is made, which ends the replay. -/
def State.replayAllows (s : State) (wave code : Nat) (quads : QuadMask) : Bool :=
  match s.waves.get wave with
  | none => false
  | some w =>
    match w.parts.findSome? fun p => s.who { wave := wave, part := p.1 } with
    | none => false
    | some o =>
      if o.u.mode = 3 then
        match s.replayNext o.u o.g.core o.wid with
        | some (_, r) => recKind r = 0 && recCode r = code && recQuads r = quads.toNat || w.allKnit && !knitLogged w r
        | none => false
      else true
where
  /-- A record that some open episode of the wave meets: a knit or its timeout at that PC, of members of it. -/
  knitLogged (w : Wave) (r : List Byte) : Bool :=
    recKind r = 0 && [3, 4, 6, 7].contains (recCode r) &&
      w.eps.any fun e => e.pc.toNat % 2 ^ 57 = recPc r &&
        episodeQuads w (e.within w (BitVec.ofNat 16 (recQuads r))) = BitVec.ofNat 16 (recQuads r)

/-- R395: in replay, an episode with those of its members that the next record of its wave names. -/
def State.logged (s : State) (wave : Nat) (w : Wave) (e : Episode) : Episode :=
  match w.parts.findSome? fun p => s.who { wave := wave, part := p.1 } with
  | some o =>
    if o.u.mode = 3 then
      match s.replayNext o.u o.g.core o.wid with
      | some (_, r) => e.within w (BitVec.ofNat 16 (recQuads r))
      | none => e
    else e
  | none => e

/-- Whether a wave replays its log. -/
def State.inReplay (s : State) (wave : Nat) (w : Wave) : Bool :=
  w.parts.any fun p => match s.who { wave := wave, part := p.1 } with | some o => o.u.mode = 3 | none => false

/-- R395: members of an episode that its record does not name leave it, and issue their instruction again. -/
def State.leaveKnit (s : State) (wave : Nat) (e k : Episode) : State :=
  (e.parts.filter fun i => !k.parts.contains i).foldl
    (fun s i => s.modPart { wave := wave, part := i } fun p => { p with hold := .no, stall := 0 }) s

/-- The fused part has passed its KNIT. -/
def State.passKnit (s : State) (r : State × PartRef × List Nat) : State :=
  match r.1.who r.2.1 with
  | some _ => (r.1.advance r.2.1).settle
  | none => s

/-- KNIT_FUSE: every other live part waits in the episode or is late (R258, R259). -/
def stepKnitFuse (wave : Nat) (pc : BitVec 64) (s : State) : Host.Outcome State Fault Refusal :=
  .next <|
    match s.episodeAt wave pc false with
    | some (w, e) =>
      if e.full w && e.here w && s.replayAllows wave 3 (episodeQuads w e) then s.passKnit (s.fuse wave e 3) else s
    | none => s

/-- R260: a part becomes late; where its state lies in its frame (R265), its header says so. -/
def State.makeLate (s : State) (pr : PartRef) : State :=
  let s := s.modPart pr fun p => { p with late := true }
  match s.who pr with
  | none => s
  | some o =>
    match o.p.status with
    | .resident => s
    | .stopping _ _ => s
    | .parking _ => s
    | _ =>
      let at_ := o.frame + BitVec.ofNat 64 (128 * pr.part)
      match s.devRead o.asid at_ 1 with
      | (s, .ok h) =>
        match s.devWrite o.asid at_ ((h.getD 0 0 ||| 0x80) :: h.drop 1) 1 with
        | (s, true) => s
        | (s, false) => s.beginReset o.u.ctl o.u.ctx
      | (s, _) => s.beginReset o.u.ctl o.u.ctx

/-- R260: the live parts of a wave that wait in no episode, but for those named, become late. -/
def State.lateRest (s : State) (wave : Nat) (but : List Nat) : State :=
  match s.waves.get wave with
  | none => s
  | some w =>
    (w.parts.filter fun p => !but.contains p.1 && !w.eps.any fun e => e.parts.contains p.1).foldl
      (fun s p => s.makeLate { wave := wave, part := p.1 }) s

/-- KNIT_TIMEOUT: the parts that have arrived fuse; every live part that waits in no episode is late, but for those
that took KNIT_MISMATCH here (R260). In replay the clock does not count, and the parts that its record names fuse (R395). -/
def stepKnitTimeout (wave : Nat) (pc : BitVec 64) (s : State) : Host.Outcome State Fault Refusal :=
  .next <|
    match s.episodeAt wave pc false with
    | some (w, e) =>
      let replay := s.inReplay wave w
      let k := s.logged wave w e
      if (if replay then true else e.timer = 0 && !e.full w) && k.here w && !s.reserveOut wave &&
          s.replayAllows wave 4 (episodeQuads w k) then
        let r := (s.leaveKnit wave e k).fuse wave k 4
        s.passKnit (r.1.lateRest wave (r.2.1.part :: r.2.2), r.2.1, r.2.2)
      else s
    | none => s

/-- After an implicit knit has fused: the instruction issues if the width suffices; otherwise WIDTH before it (R262). -/
def State.afterWidth (s : State) (r : State × PartRef × List Nat) (need : Nat) (late : Bool) : State :=
  match r.1.who r.2.1 with
  | none => s
  | some o =>
    if need ≤ maskCount o.p.quads && !late then r.1
    else
      let t := if late then r.1 else r.1.waveEvent o 7 o.p.quads o.p.pc
      t.takeTrap o.pr { TrapInfo.plain codeWidth o.p.pc with val := BitVec.ofNat 32 need, evt := some 7 }

/-- IMPLICIT_KNIT_FUSE: the parts together hold the required quads, or every other live part waits here (R262). The
step that makes this event issues the instruction at once (`Step`). -/
def stepImplicitKnitFuse (wave : Nat) (pc : BitVec 64) (s : State) : Host.Outcome State Fault Refusal :=
  .next <|
    match s.episodeAt wave pc true with
    | some (w, e) =>
      let k := s.logged wave w e
      if k.meets w && k.here w && s.replayAllows wave 6 (episodeQuads w k) then
        s.afterWidth ((s.leaveKnit wave e k).fuse wave k 6) (k.needs w) false
      else s
    | none => s

/-- IMPLICIT_KNIT_TIMEOUT: the parts fuse and WIDTH is raised; nobody is late (R262). While the required quads are together
the knit fuses and the instruction issues. -/
def stepImplicitKnitTimeout (wave : Nat) (pc : BitVec 64) (s : State) : Host.Outcome State Fault Refusal :=
  .next <|
    match s.episodeAt wave pc true with
    | some (w, e) =>
      let k := s.logged wave w e
      if (e.timer = 0 || s.inReplay wave w) && k.here w && !s.reserveOut wave && s.replayAllows wave 7 (episodeQuads w k) &&
          !k.meets w then
        s.afterWidth ((s.leaveKnit wave e k).fuse wave k 7) (k.needs w) true
      else s
    | none => s

/-! ### CUTCTL, REP, LPIN -/

/-- CUTCTL: the old word into Sd, then the new fields (R271). -/
def execCutctl (x : CtlOp) (s : State) : Host.Outcome State Fault Refusal :=
  s.issue (.cutctl x) fun o s =>
    let s := s.writeS o x.dst o.cutp.toNat
    (s.modWave o.pr.wave fun w => w.setCutp o.p.quads (newCutp o.cutp x.imm)).finish o (.cutctl x)

/-- R269: REP_NEST when a repeat is held; then the end PC. -/
def repCheck (x : FlowOp) (o : Who) (s : State) : State × Except Stop Dword :=
  if o.p.rep.isSome then (s, .error (.trap (TrapInfo.plain codeRepNest o.p.pc)))
  else
    match flowTarget o.p.pc x with
    | none => (s, .error (.trap (TrapInfo.plain codeInstrAddr (flowPc o.p.pc x))))
    | some pc => (s, .ok pc)

/-- R269: count 0 skips the body; otherwise the repeat starts at the successor. -/
def State.startRepeat (s : State) (o : Who) (stop : Dword) (n : Word) : State :=
  if n = 0 then s.jumpTo o.pr (successor stop) false
  else
    (s.advance o.pr).modPart o.pr fun p =>
      { p with rep := some { start := successor o.p.pc, stop := stop, rem := n, idx := 0 } }

def execRep (x : FlowOp) (s : State) : Host.Outcome State Fault Refusal :=
  s.issueWith (.rep x) (fun _ _ => []) (repCheck x) fun stop o s =>
    (s.startRepeat o stop (s.scalar o x.cond 0)).settle

/-- R270: the body's lines, fetched once, each page of them looked up once (R343); none when one of them cannot be had. -/
def State.bodyLines (s : State) (o : Who) (base : Dword) (first : Bool) : Nat → State × Option (List (Nat × Line))
  | 0 => (s, some [])
  | n + 1 =>
    let size := match (s.translate o.g.core o.asid .fetch base).2 with | .ok x => x.log | .error _ => 12
    let s := if first || base.toNat % 2 ^ size = 0 then s.look o.g.core o.asid base 2 size else s
    match s.fetchLine o base with
    | (s, .line l) =>
      if lineOdd l then (s, none)
      else
        match s.bodyLines o (base + 64) false n with
        | (s, some r) => (s, some ((base.toNat, l) :: r))
        | (s, none) => (s, none)
    | (s, _) => (s, none)

/-- R270: whether a part of a scheduler holds its loop buffer. -/
def State.loopBusy (s : State) (core sched : Nat) : Bool :=
  s.waves.any fun w => w.2.sched = sched && (match s.groups.get w.2.group with | some g => g.core = core | none => false) &&
    w.2.parts.any fun p => !p.2.pin.isEmpty

/-- R270: the body is pinned when the scheduler's loop buffer is free. -/
def State.pinBody (s : State) (o : Who) (start stop : Dword) : State :=
  if s.loopBusy o.g.core o.w.sched then s
  else
    let b := lineBase start
    match s.bodyLines o b true ((lineBase stop - b).toNat / 64 + 1) with
    | (s, some l) => s.modPart o.pr fun p => { p with pin := l }
    | (s, none) => s

/-- R270: a restore pins a repeat's body again, where a save has released the pin and the buffer is free. -/
def State.pinAgain (s : State) (pr : PartRef) : State :=
  match s.who pr with
  | none => s
  | some o =>
    let s := s.modPart pr fun p => { p with repin := false }
    match o.p.repin, o.p.rep with
    | true, some r => s.pinBody o r.start r.stop
    | _, _ => s

def execLpin (x : FlowOp) (s : State) : Host.Outcome State Fault Refusal :=
  s.issueWith (.lpin x) (fun _ _ => []) (repCheck x) fun stop o s =>
    let n := s.scalar o x.cond 0
    let s := s.startRepeat o stop n
    (if n = 0 then s else s.pinBody o (successor o.p.pc) stop).settle

/-! ### EXIT -/

/-- Quads of the part that end with some lanes. -/
def goneQuads (o : Who) (m : LaneMask) : QuadMask :=
  maskOf 16 fun q => o.p.quads.getLsbD q && (o.w.exited ||| m).extractLsb' (4 * q) 4 = (15 : BitVec 4)

/-- The implicit ARRDROP of quads that end is a release: the part's earlier accesses come first (R305, R213). -/
def State.exitCheck (s : State) (o : Who) (x : CtlOp) : State × Except Stop Unit :=
  if goneQuads o (o.lanes x.h) != 0 && !s.mayDecide o 0 then (s, .error (.stall 2))
  else if !lastExit o (o.lanes x.h) && (o.w.regs.any fun r => (r.reg &&& goneQuads o (o.lanes x.h)) != 0) && s.accessesOut o then (s, .error (.stall 2))
  else (s, .ok ())

/-- EXIT (R263, R272, R437). -/
def execExit (x : CtlOp) (s : State) : Host.Outcome State Fault Refusal :=
  s.issueWith (α := Unit) (.exit x) (fun _ _ => []) (fun o s => s.exitCheck o x) fun _ o s =>
    let m := o.lanes x.h
    if lastExit o m then
      match s.exitWait o with
      | some r => s.holdOn o.pr (.exit x) r
      | none => s.endOrFault o m
    else
      let quads := o.p.quads &&& ~~~ goneQuads o m
      let s := s.exitLanes o m
      if quads = 0 then s.settle
      else (s.advance { wave := o.pr.wave, part := lowQuad quads }).settle

/-- LAST_EXIT_RESUME: the wave's operations are complete; a fault is delivered, or the wave ends (R437). -/
def stepLastExitResume (p : PartRef) (s : State) : Host.Outcome State Fault Refusal :=
  .next <|
    match s.who p with
    | some o =>
      match o.p.hold, o.p.status with
      | .instr (.exit x), .resident =>
        if lastExit o (o.lanes x.h) && (s.exitWait o).isNone then s.endOrFault o (o.lanes x.h) else s
      | _, _ => s
    | none => s

/-! ### WAITN -/

/-- Quads of the part in which counter n is at most a (R273). -/
def State.satisfied (s : State) (o : Who) (n a : Nat) : QuadMask :=
  maskOf 16 fun q => o.p.quads.getLsbD q && s.count o.pr.wave n q ≤ a

/-- The counter of a WAITN, and the threshold, which it reads at issue. -/
def waitnArgs (o : Who) (x : CtlOp) : Nat × Nat := ((x.imm.extractLsb' 0 4).toNat, o.p.arg.toNat)

/-- The condition holds: a pending fault of the counter is raised, else the part continues (R168, R273). -/
def State.passWaitn (s : State) (o : Who) (x : CtlOp) : State :=
  match s.raisePending o (fun n => n = (waitnArgs o x).1) o.p.pc with
  | some s => s
  | none => s.finish o (.waitn x)

def execWaitn (x : CtlOp) (s : State) : Host.Outcome State Fault Refusal :=
  s.issue (.waitn x) fun o s =>
    let n := (waitnArgs o x).1
    let a := s.scalar o x.a 0
    if s.satisfied o n a.toNat = o.p.quads then s.passWaitn o x
    else
      (s.modPart o.pr fun p => { p with timer := 2 ^ (o.cutp.extractLsb' 4 4).toNat, arg := a }).holdOn o.pr (.waitn x)
        (s.counterReason o (fun m => m = n) 2)

/-- WAITN_RELEASE: the condition holds in every quad. -/
def stepWaitnRelease (p : PartRef) (s : State) : Host.Outcome State Fault Refusal :=
  .next <|
    match s.who p with
    | some o =>
      match o.p.hold, o.p.status with
      | .instr (.waitn x), .resident =>
        if s.satisfied o (waitnArgs o x).1 (waitnArgs o x).2 = o.p.quads then s.passWaitn o x else s
      | _, _ => s
    | none => s

/-- MISS_CUT: the delay has passed with a mixed condition (R255); the satisfied quads continue. -/
def stepMissCut (p : PartRef) (s : State) : Host.Outcome State Fault Refusal :=
  .next <|
    match s.who p with
    | some o =>
      match o.p.hold, o.p.status with
      | .instr (.waitn x), .resident =>
        let q := s.satisfied o (waitnArgs o x).1 (waitnArgs o x).2
        if q != 0 && q != o.p.quads && (o.p.timer = 0 || o.u.mode = 3) && o.cutp.getLsbD 1 &&
            !s.reserveOut p.wave && s.replayAllows p.wave 1 q then
          match s.freeSlot o.u o.g.unit o.g.core o.w.sched with
          | none => s
          | some k =>
            let s := s.cut o q o.p.pc o.p.pc 1 k
            let rest : PartRef := { wave := p.wave, part := lowQuad (o.p.quads &&& ~~~ q) }
            let s := s.modPart rest fun r => { r with timer := 2 ^ (o.cutp.extractLsb' 4 4).toNat }
            match s.who { wave := p.wave, part := lowQuad q } with
            | some c => s.passWaitn c x
            | none => s
        else s
      | _, _ => s
    | none => s

/-! ### YIELD, SETFMT, GETST, SLEEP -/

/-- The part is last among the ready parts of its scheduler (R274), until it issues again. -/
def State.yield (s : State) (pr : PartRef) : State := s.modPart pr fun p => { p with stall := 30, last := true }

/-- YIELD (R274). -/
def execYield (x : CtlOp) (s : State) : Host.Outcome State Fault Refusal :=
  s.issue (.yield x) fun o s => (s.finish o (.yield x)).yield o.pr

/-- The value that SETFMT would place (R275). -/
def State.setfmtValue (s : State) (o : Who) (x : CtlOp) : Word := newFmt o.fmt (s.scalar o x.a x.imm) (s.scalar o x.b x.imm)

/-- SETFMT: FMT_VALUE if the value is not legal (R74), else FMT of the part. -/
def execSetfmt (x : CtlOp) (s : State) : Host.Outcome State Fault Refusal :=
  s.issueIf (.setfmt x)
    (fun o s => if fmtLegal (s.setfmtValue o x) then none
      else some { TrapInfo.plain codeFmtValue o.p.pc with val := s.setfmtValue o x })
    fun o s => (s.modWave o.pr.wave fun w => w.setFmt o.p.quads (s.setfmtValue o x)).finish o (.setfmt x)

/-- R275: the value of a GETST selector. -/
def State.getstValue (s : State) (o : Who) (sel n : Nat) : Nat :=
  let p := o.p
  match sel with
  | 0 => o.fmt.toNat
  | 1 => o.cutp.toNat
  | 2 => p.stack.length
  | 3 => (p.rep.map fun r => r.rem.toNat).getD 0
  | 4 => (p.rep.map fun r => r.idx.toNat).getD 0
  | 5 => p.quads.toNat + o.pr.part * 2 ^ 16
  | 6 => (lo32 p.active).toNat
  | 7 => (hi32 p.active).toNat
  | 8 => p.kc.toNat + (if p.late then 2 ^ 16 else 0) + (if p.rep.isSome then 2 ^ 17 else 0) +
      (if p.pin.isEmpty then 0 else 2 ^ 18)
  | _ => ((maskBits p.quads).map fun q => s.count o.pr.wave n q).foldl max 0

def execGetst (x : CtlOp) (s : State) : Host.Outcome State Fault Refusal :=
  s.issue (.getst x) fun o s =>
    (s.writeS o x.dst (s.getstValue o (x.imm.toNat % 16) (x.imm.toNat / 16 % 16))).finish o (.getst x)

/-- SLEEP: up to 2^24 clocks; 0 and 1 act as YIELD (R274). -/
def execSleep (x : CtlOp) (s : State) : Host.Outcome State Fault Refusal :=
  s.issue (.sleep x) fun o s =>
    let n := min (s.scalar o x.a x.imm).toNat (2 ^ 24)
    if n ≤ 1 then (s.finish o (.sleep x)).yield o.pr
    else (s.modPart o.pr fun p => { p with timer := n }).holdOn o.pr (.sleep x) 30

/-- SLEEP_EXPIRY: the count has run out. -/
def stepSleepExpiry (p : PartRef) (s : State) : Host.Outcome State Fault Refusal :=
  .next <|
    match s.who p with
    | some o =>
      match o.p.hold, o.p.status with
      | .instr (.sleep x), .resident => if o.p.timer = 0 then s.finish o (.sleep x) else s
      | _, _ => s
    | none => s

end Sys2Proof.Machine
end

