-- ==== Sys2Proof/Machine/Access.lean ====
section
/-! DEFINITION. The accesses of an instruction before it issues: lanes' addresses (R48), the checks in the order of R191,
translation for the participating lanes (R336 to R339), the division into pieces (R192) and their places (R179, R180,
R185, R188). -/

namespace Sys2Proof.Machine

open Sys2Proof

/-! ### Widths and scopes -/

/-- Bytes of SIZE/TYPE (R190). -/
def sizeBytes (c : Nat) : Nat :=
  match c with
  | 0 => 1 | 1 => 1 | 2 => 2 | 3 => 2 | 4 => 4 | 5 => 8 | 6 => 2 | 7 => 2 | 9 => 16 | 10 => 32 | _ => 64

/-- Registers of SIZE/TYPE. -/
def sizeRegs (c : Nat) : Nat := (sizeBytes c + 3) / 4

/-- R188: the scope that is used. -/
def usedScope (space scope : Nat) : Nat :=
  match space with
  | 1 => min scope 1
  | 0 => scope
  | _ => 0

/-- The weight-store window of the issuing core's die: base and limit in bytes (R127, R347). -/
def Who.window (o : Who) : Nat × Nat :=
  let d := dieOf o.g.core
  let b := field (nth o.u.desc (4 + 2 * d)).toNat 15 0
  let l := field (nth o.u.desc (5 + 2 * d)).toNat 16 0
  (b * 65536, if 65536 < b + l then 0 else l * 65536)

/-- PW: the private block of a wave (R185, R290). -/
def Who.privBase (o : Who) : Dword :=
  o.u.d 0x30 + BitVec.ofNat 64 ((o.g.g * o.u.nwaves + o.w.index) * 64 * o.u.n 0x28)

/-- R185: the virtual byte of private byte p of a lane. -/
def Who.privVa (o : Who) (lane p : Nat) : Dword := o.privBase + BitVec.ofNat 64 (256 * (p / 4) + 4 * lane + p % 4)

/-! ### Requests -/

/-- What one instruction accesses: space, kind, whether R128 calls it a write, width, and for each lane (none for an
access of the part) its address. -/
structure Request where
  space : Nat
  kind  : XKind
  write : Bool
  n     : Nat
  lanes : List (Option Nat × Dword)

/-- The base of an address descriptor: the lane's pair, or the S pair (R48). -/
def Who.base (o : Who) (a : Src) (lane : Nat) : Dword :=
  if a.cls = .v then pair (o.w.vreg a.num.toNat lane) (o.w.vreg (a.num.toNat + 1) lane) else o.spair a.num.toNat

/-- Effective addresses of the participating lanes. -/
def laneAddrs (o : Who) (x : MemOp) : List (Option Nat × Dword) :=
  (maskBits (o.lanes x.h)).map fun l => (some l, o.base x.addr l + sext32 x.off)

/-- A run of bytes within one piece, with its virtual address. -/
structure Run where
  lane : Option Nat
  off  : Nat
  va   : Dword
  len  : Nat
deriving DecidableEq, Repr

/-- R192: pieces of 8 aligned bytes; R185: of 4 for a private access. -/
def runsOf (o : Who) (r : Request) : List Run :=
  let unit := if r.space = 2 then 4 else 8
  r.lanes.flatMap fun e =>
    (List.range ((r.n + unit - 1) / unit)).map fun i =>
      let off := unit * i
      { lane := e.1, off := off, len := min unit (r.n - off),
        va := if r.space = 2 then o.privVa (e.1.getD 0) (e.2.toNat + off) else e.2 + BitVec.ofNat 64 off }

/-- Lanes as a mask; an access of the part names none. -/
def lanesOn (l : List (Option Nat)) : LaneMask :=
  l.foldl (fun m x => match x with | some n => m ||| bit1 64 n | none => m) 0

/-- A trap of an access: the lanes concerned, in rising order, with the lowest and its address (R365). -/
def accTrap (o : Who) (code : Nat) (l : List (Option Nat × Dword)) : Option TrapInfo :=
  l.head?.map fun e =>
    { TrapInfo.plain code o.p.pc with addr := e.2, lane := e.1, mask := lanesOn (l.map fun e => e.1) }

/-- R191 items 1 to 5. -/
def rangeTrap (o : Who) (r : Request) : Option TrapInfo :=
  let bad := fun (code : Nat) (p : Dword → Bool) => accTrap o code (r.lanes.filter fun e => p e.2)
  match bad codeMemAlign fun a => a.toNat % r.n != 0 with
  | some t => some t
  | none =>
    match r.space with
    | 1 => bad codeLsRange fun a => o.u.lsz < a.toNat + r.n
    | 2 => bad codePrivRange fun a => o.u.n 0x28 < a.toNat + r.n
    | 3 =>
      if r.write then some ((accTrap o codeWsWrite r.lanes).getD (TrapInfo.plain codeWsWrite o.p.pc))
      else bad codeWsAccess fun a => !o.u.wsb || o.window.2 < a.toNat + r.n
    | _ => none

/-! ### Translation (R336 to R339) -/

/-- A run with what its translation found. -/
structure Found where
  run : Run
  res : Except XFault Xlat

/-- A run's page, as lookups count it. -/
def pageKey (r : Run) (res : Except XFault Xlat) : Nat :=
  let log := match res with | .ok y => y.log | .error _ => 12
  r.va.toNat / 2 ^ log * 64 + log

/-- Every run is translated; each page is looked up, and counted, once for the instruction, however often it is tried
before it issues (R343). -/
def State.translateRuns (s : State) (o : Who) (kind : XKind) (acc : Nat) (seen : List Nat) : List Run → State × List Found
  | [] => (s, [])
  | r :: rest =>
    match s.translate o.g.core o.asid kind r.va with
    | (s, x) =>
      let log := match x with | .ok y => y.log | .error _ => 12
      let page := pageKey r x
      let s := if seen.contains page || o.p.looked then s
        else (s.look o.g.core o.asid r.va acc log).modPart o.pr fun p => { p with looked := true }
      let (s, l) := s.translateRuns o kind acc (if seen.contains page then seen else page :: seen) rest
      (s, { run := r, res := x } :: l)

/-- The faults of the lanes: each lane's first. -/
def laneFaults : List Found → List (Run × XFault)
  | [] => []
  | f :: rest =>
    match f.res with
    | .ok _ => laneFaults rest
    | .error e => (f.run, e) :: (laneFaults rest).filter fun x => x.1.lane != f.run.lane

/-- R337: the near fault that comes first, by row and then by lane. -/
def nearFirst (l : List (Run × XFault)) : Option (Run × Nat × Nat) :=
  leastBy (fun x => x.2.1 * 64 + x.1.lane.getD 0) (l.filterMap fun x => match x.2 with
    | .near c lv => some (x.1, c, lv)
    | .far _ => none)

/-- The far faults. -/
def farAll (l : List (Run × XFault)) : List (Run × Nat) :=
  l.filterMap fun x => match x.2 with | .far lv => some (x.1, lv) | .near _ _ => none

/-- The lanes that meet a near fault of a code. -/
def nearLanes (code : Nat) (l : List (Run × XFault)) : LaneMask :=
  lanesOn (l.filterMap fun x => match x.2 with
    | .near c _ => if c = code then some x.1.lane else none
    | .far _ => none)

/-- R338: the trap of a near fault, and the lanes that meet it. -/
def nearTrap (o : Who) (x : Run × Nat × Nat) (mask : LaneMask) : TrapInfo :=
  { TrapInfo.plain x.2.1 o.p.pc with addr := x.1.va, lane := x.1.lane, val := BitVec.ofNat 32 x.2.2, mask := mask }

/-- Quads of a list of runs; an access of the part counts for all its quads. -/
def runQuads (o : Who) (l : List (Run × Nat)) : QuadMask :=
  l.foldl (fun m x => match x.1.lane with | some n => m ||| bit1 16 (n / 4) | none => m ||| o.p.quads) 0

/-- R341: whether a far fault at an address would find room for its record, or joins an open one. -/
def State.canPark (s : State) (o : Who) (va : Dword) : Bool :=
  (s.recs.any fun r => r.asid = o.asid && r.page = va.toNat / 4096 && r.type = 0) || s.faultRoom o.g.core o.asid

/-- R180: the trap of the runs, among those that translated, whose PA lies in no region. -/
def State.regionTrap (s : State) (o : Who) (l : List Found) : TrapInfo :=
  (accTrap o codeMemRegion (l.filterMap fun f => match f.res with
    | .ok x => if (s.region o.u.ctl x.pa).isNone then some (f.run.lane, f.run.va) else none
    | .error _ => none)).getD (TrapInfo.plain codeMemRegion o.p.pc)

/-- The pieces of the runs that translated; a PA of no region is MEM_REGION (R180). -/
def State.placeRuns (s : State) (o : Who) (data : Run → List Byte) : List Found → Except TrapInfo (List Piece)
  | [] => .ok []
  | f :: rest =>
    match f.res with
    | .error _ => s.placeRuns o data rest
    | .ok x =>
      match s.region o.u.ctl x.pa with
      | none => .error (s.regionTrap o (f :: rest))
      | some l =>
        match s.placeRuns o data rest with
        | .error e => .error e
        | .ok ps =>
          .ok ({ lane := f.run.lane.getD 0, off := f.run.off, va := f.run.va, loc := l, len := f.run.len,
                 data := data f.run, hs := x.hs } :: ps)

/-- R337 to R339 for a memory instruction: near faults trap; far faults cut their quads away when FCUT allows, or park
the whole part; the rest is placed. -/
def State.settleRuns (s : State) (o : Who) (acc : Nat) (data : Run → List Byte) (l : List Found) :
    State × Option (QuadMask × FarInfo) × Except Stop (List Piece) :=
  let faults := laneFaults l
  match nearFirst faults with
  | some x => (s, none, .error (.trap (nearTrap o x (nearLanes x.2.1 faults))))
  | none =>
    let place := fun (l : List Found) => match s.placeRuns o data l with
      | .ok ps => (.ok ps : Except Stop (List Piece))
      | .error t => .error (.trap t)
    match farAll faults with
    | [] => (s, none, place l)
    | (r, lv) :: more =>
      let q := runQuads o ((r, lv) :: more)
      let f : FarInfo := { va := r.va, level := lv, acc := acc }
      if !s.canPark o r.va then (s, none, .error (.stall 25))
      else if o.cutp.getLsbD 2 && q != o.p.quads then
        (s, some (q, f), place (l.filter fun x => match x.run.lane with | some n => !q.getLsbD (n / 4) | none => false))
      else (s, none, .error (.far f))

/-- The pieces of local store and weight store, which are not translated. -/
def plainPieces (o : Who) (r : Request) (data : Run → List Byte) : List Piece :=
  (runsOf o r).map fun x =>
    { lane := x.lane.getD 0, off := x.off, va := x.va, len := x.len, data := data x, hs := false,
      loc := if r.space = 1 then .ls o.w.group x.va.toNat else .ws (dieOf o.g.core) (o.window.1 + x.va.toNat) }

/-- THE CHECKS OF AN ACCESS (R191), and its pieces. `data` gives the bytes that a run carries. -/
def State.checkAccess (s : State) (o : Who) (r : Request) (data : Run → List Byte) :
    State × Option (QuadMask × FarInfo) × Except Stop (List Piece) :=
  match rangeTrap o r with
  | some t => (s, none, .error (.trap t))
  | none =>
    if r.space = 1 || r.space = 3 then (s, none, .ok (plainPieces o r data))
    else
      match s.fillTlbs o.g.core o.asid ((runsOf o r).map fun x => x.va) with
      | (s, true) => (s, none, .error (.stall 24))
      | (_, false) =>
        let (s, l) := s.translateRuns o r.kind r.kind.acc [] (runsOf o r)
        s.settleRuns o r.kind.acc data l

/-- The home slices that an access would touch (R394). -/
def sliceUse (r : Who → Request) (o : Who) (s : State) : List Nat :=
  match s.checkAccess o (r o) fun _ => [] with
  | (_, _, .ok ps) => pieceSlices ps
  | _ => []

/-! ### Requests into the torus (R323 to R327) -/

/-- The distinct sectors of pieces that reach the network: every place but local store and weight store, and but a
sector that the core's L1 will serve. -/
def netSectors (c : Core) (load : Bool) (scope : Nat) (space : Nat) (l : List Piece) : List Loc :=
  dedup (l.filterMap fun p =>
    match p.loc with
    | .ls _ _ => none
    | .ws _ _ => none
    | .dev a =>
      let key := l1Key (if space = 4 then .const else if space = 2 then .priv else .global) (a / 32)
      if (load || space = 2) && scope ≤ 1 && (c.l1.get key).isSome then none else some p.loc.sector
    | l => some l.sector)

/-- The four sectors of a piece's line in local device memory, which a prefetch asks for (R200, R319). -/
def linePieces (p : Piece) : List Piece :=
  match p.loc with
  | .dev a => (List.range 4).map fun i => { p with loc := .dev (a / 128 * 128 + 32 * i) }
  | _ => [p]

/-- R319, R323: the requests of an operation: an atomic or a reduction asks for each sector by itself, a prefetch for the
line. -/
def State.sendRequests (s : State) (o : Who) (x : Op) (load : Bool) (space : Nat) : State :=
  s.request x.id (clusterOf o.g.core) o.netClass (!load) (x.kind != .atom && x.kind != .red)
    (netSectors (s.core o.g.core) load x.scope space (if x.kind = .prefetch then x.pieces.flatMap linePieces else x.pieces))

/-- R319: the requests of an operation that reads some pieces and writes others, past the L1. -/
def State.sendPieces (s : State) (o : Who) (x : Op) (reads writes : List Piece) : State :=
  (s.sendRequests o { x with scope := 3, pieces := reads } true 0).sendRequests o { x with scope := 3, pieces := writes } false 0

/-! ### Host ownership (R182, R352) -/

/-- The line of a back-invalidate snoop: 128 bytes (R182). -/
def snoopLine (a : Nat) : Nat := a / 128

/-- A snoop of a line begins, once (R352). -/
def State.snoopLine1 (s : State) (line : Nat) : State :=
  if s.link.snoop.contains line then s
  else { s with link := { s.link with snoop := s.link.snoop ++ [line] }, out := s.out ++ [.snoop line] }

/-- Whether the host may hold a line, or has not answered for it. -/
def State.hostHas (s : State) (line : Nat) : Bool := s.link.snoop.contains line || s.link.filter.contains line

/-- The line of a host-shared page that the host may hold, at an address that the device itself is to reach at system
scope (R278, R350, R352). -/
def State.hostLine (s : State) (asid : Nat) (kind : XKind) (va : Dword) : Option Nat :=
  if s.flat asid || field va.toNat 63 57 != 0 then none
  else
    match s.walk asid va.toNat with
    | (_, .ok e) =>
      match tlbUse kind va.toNat e with
      | .ok x =>
        match s.region (asid = 0) x.pa with
        | some (.dev a) => if x.hs && s.hostHas (snoopLine a) then some (snoopLine a) else none
        | _ => none
      | .error _ => none
    | _ => none

/-- A device access that resolves host ownership: the lines of host-shared pages that the host may hold are recalled. -/
def State.recallLines (s : State) (l : List Piece) : State :=
  (dedup (l.filterMap fun p => match p.loc with | .dev a => if p.hs then some (snoopLine a) else none | _ => none)).foldl
    (fun s line =>
      if s.link.filter.contains line && !s.link.snoop.contains line then
        { s with link := { s.link with snoop := s.link.snoop ++ [line] }, out := s.out ++ [.snoop line] }
      else s) s

/-- Whether a piece waits for the host, which may hold its line or has not answered (R182, R352). -/
def State.snooping (s : State) (p : Piece) : Bool :=
  match p.loc with
  | .dev a => p.hs && s.hostHas (snoopLine a)
  | _ => false

end Sys2Proof.Machine
end

