-- ==== Sys2Proof/Machine/Units.lean ====
section
/-! DEFINITION. Levels of work (R277 to R288, R347, R388): jobs, phases, graph runs, launches and draws; their records,
their checks, and their ends. -/

namespace Sys2Proof.Machine

open Sys2Proof

/-! ### Reads of the device itself -/

/-- ASID of a unit. -/
def WorkUnit.asid (u : WorkUnit) : Nat := if u.ctl then 0 else u.ctx

/-- R340, R341: a record of the device's own goes into the queue, or into the buffer of the cluster of the core that it
names; none while both are full. An error where it goes resets the context (R373). -/
def State.newRecord (s : State) (core type asid : Nat) (va : Dword) (level acc : Nat) (lix : Word) : State × Option Word :=
  if !s.faultRoom core asid then (s, none)
  else
    let (s, id) := s.nextSerial
    let s := { s with recs := s.recs ++ [OpenRecord.mk id asid (va.toNat / 4096) type] }
    match s.putFault core asid (faultBytes type id va level acc lix 0 0 0 0 core s.time) with
    | (s, .bad) => (s.beginReset (asid = 0) asid, some id)
    | (s, _) => (s, some id)

/-- R340: the record of a far fault, merged with an open one of the same ASID, page and TYPE. -/
def State.ownRecord (s : State) (core type asid : Nat) (va : Dword) (level acc : Nat) (lix : Word) : State × Option Word :=
  match s.recs.find? fun r => r.asid = asid && r.page = va.toNat / 4096 && r.type = type with
  | some r => (s, some r.id)
  | none => s.newRecord core type asid va level acc lix

/-- What a read of a record by the device comes to. -/
inductive Got where
  | data (d : List Byte)
  /-- A far fault: held on a record, or to be tried again where the record found no room. -/
  | held (id : Option Word)
  /-- A near fault, MEM_REGION or an uncorrectable error. -/
  | bad
deriving DecidableEq, Repr

/-- R280, R285, R288, R350: the device reads `n` units of 16 bytes. -/
def State.getRecord (s : State) (type asid : Nat) (va : Dword) (lix : Word) (n : Nat) : State × Got :=
  match s.devRead asid va n with
  | (s, .ok d) => (s, .data d)
  | (s, .far a lv) =>
    let (s, id) := s.ownRecord 0 type asid a lv 0 lix
    (s, .held id)
  | (s, .near _ _) => (s, .bad)
  | (s, .bad _) => (s, .bad)

/-! ### The unit tree -/

/-- A unit that has just been created: Waiting. -/
def blankUnit (kind : UnitKind) (ctx : Nat) (ctl : Bool) (parent : Option Nat) (addr : Dword) : WorkUnit :=
  { kind := kind, ctx := ctx, ctl := ctl, parent := parent, state := .waiting, cancel := false, addr := addr, words := [],
    lists := [], index := 0, prio := 0, handle := 0, cause := 0, worst := 0, next := 0, ended := 0, cores := [], stage := 0,
    heldOn := none, gen := 0, gsig := (0, 0), peer := none, time := 0, desc := [], log := [],
    mode := 0, fixed := false, prof := false, xpairs := [] }

/-- A unit that hands its context's words on to one below it. -/
def WorkUnit.child (u : WorkUnit) (kind : UnitKind) (parent : Option Nat) (addr : Dword) : WorkUnit :=
  { blankUnit kind u.ctx u.ctl parent addr with
    prio := u.prio, desc := u.desc, log := u.log, mode := u.mode, fixed := u.fixed, prof := u.prof, cancel := u.cancel }

def UnitState.isEnd : UnitState → Bool
  | .ended _ => true
  | _ => false

/-- The units directly below. -/
def State.children (s : State) (u : Nat) : Tbl WorkUnit := s.units.filter fun x => x.2.parent = some u

/-- The unit and those above it, bounded by the depth of R277's levels. -/
def State.above (s : State) (u : Nat) : Nat → List Nat
  | 0 => []
  | n + 1 =>
    match s.units.get u with
    | some x => u :: (match x.parent with | some p => s.above p n | none => [])
    | none => []

/-- The phase and the job that a unit lies in. -/
def State.unitAbove (s : State) (u : Nat) (k : UnitKind) : Option Nat :=
  (s.above u 8).find? fun i => match s.units.get i with | some x => x.kind = k | none => false

/-- Whether a unit is the named one or lies below it. -/
def State.within (s : State) (u top : Nat) : Bool := (s.above u 8).contains top

/-- A new unit. -/
def State.addUnit (s : State) (u : WorkUnit) : State × Nat :=
  let (s, id) := s.fresh1
  ({ s with units := s.units.put id u }, id)

/-- Groups of a launch. -/
def State.groupsOf (s : State) (u : Nat) : Tbl Group := s.groups.filter fun g => g.2.unit = u

/-! ### Ends (R278) -/

/-- The union of what every core would release (R218): every write that a unit's end covers. -/
def State.allSigs (s : State) : Sig × Time := s.cores.foldl (fun a c => sigJoin a (c.2.sig, c.2.z)) (0, 0)

/-- LEVEL of a TYPE 2 record where no entry was found not present: the manual states none (log 3). -/
def State.openLevel (s : State) : Nat := (Config.freeByte s.ctr 16).toNat % 5

/-- R278: the TYPE 2 record of a block that is misaligned, in error or not writable. -/
def State.blockRecord (s : State) (asid : Nat) (cc : Dword) (lix : Word) : State :=
  let s := s.tick
  (s.newRecord 0 2 asid cc s.openLevel 1 lix).1

/-- A completion counter block: the status word, then the count, a release at system scope. -/
def State.writeEnd (s : State) (asid : Nat) (cc : Dword) (status cause : Nat) (lix : Word) : State :=
  if cc = 0 then s
  else if cc.toNat % 16 != 0 then s.blockRecord asid cc lix
  else
    match s.locate asid .write cc with
    | (s, .error (.far _ lv)) => (s.ownRecord 0 2 asid cc lv 1 lix).1
    | (s, .error _) => s.blockRecord asid cc lix
    | (s, .ok l) =>
      if s.badAt l 16 then s.blockRecord asid cc lix
      else
        let s := s.writeAt (l.add 8) (leBytes 8 (status + 256 * cause))
        let s := match l with | .dev a => s.carry a s.allSigs | _ => s
        let n := s.natAt l 8
        s.writeAt l (leBytes 8 ((n + 1) % 2 ^ 64))

/-- CCADDR of a unit (R280, R282, R285): a phase's is its job's PCCADDR. -/
def State.ccOf (s : State) (u : WorkUnit) : Dword :=
  match u.kind with
  | .job => u.d 0x10
  | .graph => u.d 0x10
  | .launch => u.d 0xF0
  | .draw => 0
  | .phase => match u.parent.bind s.units.get with | some j => j.d 0x18 | none => 0

/-- R278, R341: the end's record of TYPE 2 would find no room: the end waits for it. -/
def State.endStuck (s : State) (asid : Nat) (cc : Dword) : Bool :=
  cc != 0 && !s.faultRoom 0 asid &&
  (cc.toNat % 16 != 0 ||
   match s.locate asid .write cc with
   | (_, .error (.far _ _)) => !s.recs.any fun r => r.asid = asid && r.page = cc.toNat / 4096 && r.type = 2
   | (_, .error _) => true
   | (s, .ok l) => s.badAt l 16)

/-- LAUNCHIX for a unit's records. -/
def WorkUnit.lix (u : WorkUnit) : Word := if u.kind = .launch then u.launchix else 0

/-- Everything below a unit is forgotten. -/
def State.dropBelow (s : State) (u : Nat) : State :=
  { s with units := s.units.filter fun x => x.1 = u || !s.within x.1 u }

/-- The end of a unit: its block, and its part in the parent's status. A unit without a parent is forgotten. -/
def State.endUnit (s : State) (id : Nat) (status cause : Nat) : State :=
  match s.units.get id with
  | none => s
  | some u =>
    let later := s.modUnit id fun x => { x with fate := some (status, cause) }
    if s.endStuck u.asid (s.ccOf u) then later else
    match s.hostLine u.asid .write (s.ccOf u) with
    | some line => later.snoopLine1 line
    | none =>
    let s := s.writeEnd u.asid (s.ccOf u) status cause u.lix
    let s := (s.modUnit id fun x => { x with state := .ended status, cause := cause }).dropBelow id
    match u.parent with
    | none => { s with units := Tbl.del s.units id }
    | some p => s.modUnit p fun x => { x with ended := x.ended + 1, worst := max x.worst status }

/-! ### Descriptors and log tables (R347, R388) -/

/-- The words of a context's descriptor. -/
def State.descWords (s : State) (n : Nat) : List Word := bytesWords (s.bytesAt (.dev (s.tables.cxtab + 64 * n)) 64)

/-- R347: whether an entry is valid. -/
def descValid (d : List Word) : Bool :=
  let w := fun i => (nth d i).toNat
  nbit (w 0) 0 && field (w 0) 31 8 = 0 && field (w 0) 2 1 = 0 && field (w 1) 31 16 = 0 &&
  ((List.range 4).all fun i => field (w (4 + 2 * i)) 31 16 = 0 && field (w (5 + 2 * i)) 31 17 = 0) &&
  field (w 12) 31 27 = 0 && field (w 12) 26 16 ≤ 1024 && field (w 12) 15 8 = 0 && field (w 12) 7 0 ≤ 184 &&
  field (w 13) 31 12 = 0 && field (w 13) 11 0 ≤ 2048 && w 14 = 0 && w 15 = 0

/-- Whether context n can be named by HALT and takes jobs. -/
def State.ctxValid (s : State) (n : Nat) : Bool := 1 ≤ n && n ≤ 1023 && descValid (s.descWords n)

/-- The words of a log-table entry. -/
def State.logWords (s : State) (n : Nat) : List Word := bytesWords (s.bytesAt (.dev (s.tables.lgtab + 64 * n)) 64)

/-- R388: whether a log-table entry keeps its rules. -/
def logLegal (l : List Word) : Bool :=
  let h := (nth l 0).toNat
  let base := fun i => (pair (nth l i) (nth l (i + 1))).toNat
  field h 31 28 = 0 && field h 27 24 ≤ 14 && field h 23 20 ≤ 10 && field h 19 16 ≤ 10 && field h 15 12 ≤ 10 &&
  field h 11 5 = 0 && (nth l 1).toNat = 0 &&
  ([2, 4, 6].all fun i => base i % 64 = 0 && base i < 2 ^ 39) && base 8 % 512 = 0 && base 8 < 2 ^ 39 &&
  (nth l 10).toNat = 0 && (List.range 4).all fun i => (nth l (12 + i)).toNat = 0

/-- R388, R393: the logging words of a job that leaves Waiting. -/
def State.logJob (s : State) (id : Nat) : State :=
  match s.units.get id with
  | none => s
  | some u =>
    let l := s.logWords u.ctx
    let ctl := (s.ctx u.ctx).logctl
    if logLegal l then
      s.modUnit id fun x => { x with log := l, mode := (ctl.extractLsb' 0 2).toNat, fixed := ctl.getLsbD 2, prof := true }
    else
      let a := s.tables.lgtab + 64 * u.ctx + 44
      let b := s.natAt (.dev a) 4
      (s.setNat (.dev a) 4 (if nbit b 1 then b else b + 2)).modUnit id fun x =>
        { x with log := l, mode := 0, fixed := ctl.getLsbD 2, prof := false }

/-! ### Checks (R280, R282, R285, R286) -/

/-- The lowest cause among failing checks. -/
def lowestCause (l : List (Nat × Bool)) : Option Nat := leastBy id ((l.filter fun e => e.2).map fun e => e.1)

/-- R280: a job record. -/
def jobCause (u : WorkUnit) : Option Nat :=
  lowestCause [
    (1, field (u.n 0) 31 24 != 1 || field (u.n 0) 23 18 != 0 || field (u.n 0) 15 0 != 0),
    (1, (List.range 7).any fun i => u.n (0x24 + 4 * i) != 0),
    (2, u.n 4 < 1 || 4096 < u.n 4), (2, u.n 0x20 < 1 || 1000000 < u.n 0x20),
    (11, (u.d 8).toNat % 16 != 0), (11, (u.d 0x10).toNat % 16 != 0), (11, (u.d 0x18).toNat % 16 != 0)]

/-- R280: a phase-table entry of four words. -/
def phaseEntryBad (e : List Word) : Bool :=
  (nth e 0).toNat % 16 != 0 || (nth e 2).toNat < 1 || 4096 < (nth e 2).toNat || (nth e 3).toNat != 0

/-- R280, R347: an item of four words. -/
def itemBad (gfx : Bool) (e : List Word) : Bool :=
  let k := (nth e 2).toNat
  2 < k || (k < 2 && (nth e 3).toNat != 0) || (k = 2 && !gfx)

/-- Whether the context allows draws. -/
def WorkUnit.gfx (u : WorkUnit) : Bool := nbit (nth u.desc 0).toNat 3

/-- R282: a graph record with its node table in `lists`. -/
def graphCause (u : WorkUnit) : Option Nat :=
  lowestCause [
    (1, field (u.n 0) 31 24 != 1 || field (u.n 0) 23 1 != 0 || (u.d 0x18).toNat != 0),
    (12, u.n 4 < 1 || 256 < u.n 4),
    (11, (u.d 8).toNat % 16 != 0), (11, (u.d 0x10).toNat % 16 != 0), (11, u.addr.toNat % 64 != 0),
    (12, u.lists.zipIdx.any fun e =>
      (nth e.1 3).toNat != 0 || (List.range 4).any fun i =>
        let p := field (nth e.1 2).toNat (8 * i + 7) (8 * i)
        p != 255 && e.2 ≤ p)]

/-- Clusters that a launch may use: CLMASK (0: all) within CXMASK; control mode keeps CLMASK. -/
def WorkUnit.clusters (u : WorkUnit) : Dword :=
  let m := if u.d 0x58 = 0 then BitVec.allOnes 64 else u.d 0x58
  if u.ctl then m else m &&& pair (nth u.desc 2) (nth u.desc 3)

/-- Vector blocks of one wave (R289). -/
def WorkUnit.waveBlocks (u : WorkUnit) : Nat := u.quads * field (u.n 0x20) 13 8

/-- Blocks of one wave in quad column 0, whose bank holds 64 (R17): the column of quad q is q mod 8, so every wave has as many
blocks there as in any other column. -/
def WorkUnit.bankBlocks (u : WorkUnit) : Nat := ((u.quads + 7) / 8) * field (u.n 0x20) 13 8

/-- R289: whether one group fits an empty core: slots and blocks of four schedulers, local store, tiles, rennet. -/
def WorkUnit.fitsCore (u : WorkUnit) : Bool :=
  let slots := if u.ctl then 2 else 46
  let per := if u.bankBlocks = 0 then slots else min slots (64 / u.bankBlocks)
  u.nwaves ≤ 4 * per && u.lsz ≤ 262144 && u.acct ≤ 8 && u.rne ≤ 64

/-- R285: whether one group stays within the launch's own quotas. -/
def WorkUnit.fitsQuota (u : WorkUnit) : Bool :=
  u.nwaves ≤ field (u.n 0x48) 7 0 && u.lsz / 256 ≤ field (u.n 0x4C) 26 16 &&
  u.nwaves * u.waveBlocks ≤ field (u.n 0x4C) 11 0

/-- R285: the causes that refuse a launch; `draw` is the KIND its place requires. -/
def launchCause (u : WorkUnit) (kind : Nat) : Option Nat :=
  let ww := field (u.n 0x20) 2 0
  let tile := fun i =>
    (u.d (0x60 + 24 * i)).toNat % 16 != 0 || u.n (0x68 + 24 * i) % 16 != 0 || u.n (0x6C + 24 * i) % 16 != 0 ||
    u.n (0x70 + 24 * i) % 16 != 0 || u.n (0x74 + 24 * i) != 0 ||
    (u.n (0x70 + 24 * i) != 0 && u.n 0x24 < u.n (0x6C + 24 * i) + u.n (0x70 + 24 * i))
  lowestCause [
    (1, field (u.n 0) 31 24 != 1 || u.kindCode != kind || field (u.n 0) 19 0 != 0 || (u.d 0xF8).toNat != 0),
    (2, u.n 0x10 = 0 || u.n 0x14 = 0 || u.n 0x18 = 0 || 2 ^ 32 ≤ u.grid), (2, field (u.n 0x1C) 31 30 != 0),
    (2, 1024 < u.lanes), (2, ww = 0 || 5 < ww || (1 ≤ ww && ww ≤ 5 && 16 < u.nwaves)),
    (3, field (u.n 0x20) 31 24 != 0 || u.scnt < 1 || 128 < u.scnt || field (u.n 0x20) 15 14 != 0 ||
        field (u.n 0x20) 13 8 < 1 || 32 < field (u.n 0x20) 13 8 || field (u.n 0x20) 7 3 != 0),
    (4, 262144 < u.n 0x24 || u.n 0x28 % 4 != 0), (5, !fmtLegal (u.w 0x2C)), (6, !cutpLegal (u.w 0x40)),
    (7, field (u.n 0x44) 31 15 != 0 || field (u.n 0x44) 7 6 != 0 || 64 < u.rne || 8 < u.acct),
    (7, u.clusters = 0), (7, !u.fitsCore),
    (8, field (u.n 0x48) 31 8 != 0 || field (u.n 0x48) 7 0 < 1 || 184 < field (u.n 0x48) 7 0),
    (8, field (u.n 0x4C) 31 27 != 0 || 1024 < field (u.n 0x4C) 26 16 || field (u.n 0x4C) 15 12 != 0 ||
        field (u.n 0x4C) 11 0 < 1 || 2048 < field (u.n 0x4C) 11 0),
    (8, !u.fitsQuota), (9, (u.d 0x50).toNat % 64 != 0), (10, (List.range 4).any tile),
    (11, (u.d 0x30).toNat % 256 != 0 || (u.d 0x38).toNat % 4096 != 0 || (u.d 0xF0).toNat % 16 != 0),
    (11, u.addr.toNat % 256 != 0)]

/-! ### Reading records -/

/-- The words of a launch record. -/
def State.getLaunch (s : State) (asid : Nat) (va : Dword) : State × Got := s.getRecord 1 asid va 0 16

/-- R283: node records, one after the other. -/
def State.getNodes (s : State) (asid : Nat) : List Dword → State × Except Got (List (List Word))
  | [] => (s, .ok [])
  | a :: r =>
    if a.toNat % 256 != 0 then
      -- a node's misaligned record refuses that node, not the run (R285)
      match s.getNodes asid r with
      | (s, .ok l) => (s, .ok ([] :: l))
      | e => e
    else
      match s.getLaunch asid a with
      | (s, .data d) =>
        match s.getNodes asid r with
        | (s, .ok l) => (s, .ok (bytesWords d :: l))
        | e => e
      | (s, g) => (s, .error g)

/-- The snapshot of a graph (R283): the record, its node table, and the launch records of its nodes. -/
structure Snapshot where
  words : List Word
  table : List (List Word)
  nodes : List (List Word)

/-- Groups of four words. -/
def wordRows (n : Nat) (d : List Byte) : List (List Word) := (List.range n).map fun i => bytesWords ((d.drop (16 * i)).take 16)

def State.getGraph (s : State) (asid : Nat) (va : Dword) : State × Except Got Snapshot :=
  match s.getRecord 1 asid va 0 2 with
  | (s, .data d) =>
    let ws := bytesWords d
    let u := { blankUnit .graph asid false none va with words := ws }
    let n := u.n 4
    if n < 1 || 256 < n || (u.d 8).toNat % 16 != 0 then (s, .ok { words := ws, table := [], nodes := [] })
    else
      match s.getRecord 1 asid (u.d 8) 0 n with
      | (s, .data t) =>
        let rows := wordRows n t
        match s.getNodes asid (rows.map fun r => pair (nth r 0) (nth r 1)) with
        | (s, .ok l) => (s, .ok { words := ws, table := rows, nodes := l })
        | (s, .error g) => (s, .error g)
      | (s, g) => (s, .error g)
  | (s, g) => (s, .error g)

/-- A run takes its snapshot: the record's words, and in `lists` each node's row with its launch record after it. -/
def WorkUnit.withGraph (u : WorkUnit) (g : Snapshot) : WorkUnit :=
  { u with words := g.words, lists := (g.table.zip g.nodes).map fun e => e.1.take 4 ++ e.2 }

/-- R283, R285: a graph run without its snapshot, or a launch without its record, reads it. True when the unit has it; after a
near fault a launch ends as faulted, and a run is to end so when Checking comes to it. -/
def State.fetchRecord (s : State) (id : Nat) : State × Bool :=
  match s.units.get id with
  | none => (s, false)
  | some u =>
    if u.words != [] || u.fate.isSome then (s, true)
    else
      match u.kind with
      | .launch =>
        match s.getLaunch u.asid u.addr with
        | (s, .data d) => (s.modUnit id fun x => { x with words := bytesWords d }, true)
        | (s, .held h) => (s.modUnit id fun x => { x with heldOn := h }, false)
        | (s, .bad) => (s.endUnit id 3 0, false)
      | .graph =>
        match s.getGraph u.asid u.addr with
        | (s, .ok g) => (s.modUnit id fun x => x.withGraph g, true)
        | (s, .error (.held h)) => (s.modUnit id fun x => { x with heldOn := h }, false)
        | (s, .error _) =>
          -- the end is written where the record names its block, if the record itself can be read
          let s := s.modUnit id fun x => { x with fate := some (3, 0) }
          let s := match s.getRecord 1 u.asid u.addr 0 2 with
            | (s, .data d) => s.modUnit id fun x => { x with words := bytesWords d }
            | (s, _) => s
          (s, true)
      | _ => (s, true)

/-- A unit that ends before its record has been read reads it for its counter block (R276). True when the end may go on. -/
def State.blockFor (s : State) (id : Nat) : State × Bool :=
  match s.units.get id with
  | none => (s, false)
  | some u =>
    let n := match u.kind with | .launch => 16 | .graph => 2 | _ => 0
    if u.words != [] || n = 0 || u.addr.toNat % (if n = 2 then 64 else 256) != 0 then (s, true)
    else
      match s.getRecord 1 u.asid u.addr 0 n with
      | (s, .data d) => (s.modUnit id fun x => { x with words := bytesWords d }, true)
      | (s, .held h) => (s.modUnit id fun x => { x with heldOn := h }, false)
      | (s, .bad) => (s, true)

/-! ### Events of units -/

/-- Runs of graphs that a context holds (R284, R314), until they end. A phase item that would exceed the limit is none yet:
`stage` 1 marks those that are. -/
def State.runsLive (s : State) (ctl : Bool) (ctx : Nat) : Nat :=
  (s.units.filter fun x => x.2.kind = .graph && x.2.ctl = ctl && x.2.ctx = ctx && !x.2.state.isEnd && x.2.stage = 1).length

/-- A graph run is counted where the limit of 1,024 allows it (R284). -/
def State.countRun (s : State) (id : Nat) : State :=
  match s.units.get id with
  | some u => if u.stage = 0 && s.runsLive u.ctl u.ctx < 1024 then s.modUnit id fun x => { x with stage := 1 } else s
  | none => s

/-- R284: an earlier run of the same graph that has not ended. -/
def State.earlierRun (s : State) (id : Nat) (u : WorkUnit) : Bool :=
  s.units.any fun x => x.1 < id && x.2.kind = .graph && x.2.ctl = u.ctl && x.2.ctx = u.ctx && x.2.addr = u.addr &&
    !x.2.state.isEnd

/-- UNIT_LEAVE_WAITING: the unit's predecessors have ended; a job reads its descriptor (R347) and log table (R388). -/
def stepUnitLeaveWaiting (unit : Nat) (s : State) : Host.Outcome State Fault Refusal :=
  .next <|
    match s.units.get unit with
    | none => s
    | some u =>
      if u.state != .waiting || u.cancel || u.heldOn.isSome then s
      else
        match u.kind with
        | .phase => s
        | .job =>
          let d := s.descWords u.ctx
          if !descValid d then (s.modUnit unit fun x => { x with state := .checking, fate := some (2, 13) }).endUnit unit 2 13
          else
            let s := s.modUnit unit fun x => { x with state := .checking, desc := d, prio := min x.prio (field (nth d 0).toNat 7 6) }
            s.logJob unit
        | .graph =>
          -- a record off its alignment is not read: Checking refuses the run (R285)
          if u.addr.toNat % 64 != 0 then s.modUnit unit fun x => { x with state := .checking }
          else
            match s.fetchRecord unit with
            | (s, false) => s
            | (s, true) =>
              let s := s.countRun unit
              match s.units.get unit with
              | none => s
              | some u =>
                if (u.words != [] && !nbit (u.n 0) 0 && s.earlierRun unit u) || u.stage = 0 then s
                else s.modUnit unit fun x => { x with state := .checking }
        | _ => s.modUnit unit fun x => { x with state := .checking }

/-- A unit that fails its checks: refused, and a misaligned block reported (R278, R286). -/
def State.refuse (s : State) (id cause : Nat) : State := s.endUnit id 2 cause

/-- R280, R281: a job whose record passes: its phases are made, Waiting, from the phase table. -/
def State.makePhases (s : State) (id : Nat) (u : WorkUnit) (rows : List (List Word)) : State :=
  rows.zipIdx.foldl (fun s e =>
    (s.addUnit { u.child .phase (some id) (pair (nth e.1 0) (nth e.1 1)) with words := e.1, index := e.2 }).1) s

/-- The KIND that a launch's place requires (R280, R285). -/
def State.kindWanted (s : State) (u : WorkUnit) : Nat :=
  match u.parent.bind s.units.get with
  | some p => if p.kind = .draw then u.index + 1 else 0
  | none => 0

/-- R280: an item becomes a unit of the phase. -/
def State.makeItem (s : State) (phase : Nat) (u : WorkUnit) (e : List Word) : State :=
  let a := pair (nth e 0) (nth e 1)
  match (nth e 2).toNat with
  | 0 => (s.addUnit (u.child .launch (some phase) a)).1
  | 1 =>
    -- the run takes its snapshot now (R283)
    let (s, id) := s.addUnit (u.child .graph (some phase) a)
    let s := s.countRun id
    if a.toNat % 64 = 0 then (s.fetchRecord id).1 else s
  | _ =>
    let (s, d) := s.addUnit { u.child .draw (some phase) a with words := [nth e 3], time := 0 }
    let (s, g) := s.addUnit { u.child .launch (some d) a with index := 0 }
    let (s, p) := s.addUnit { u.child .launch (some d) (a + 256) with index := 1, peer := some g }
    s.modUnit g fun x => { x with peer := some p }

/-- UNIT_CHECKING: the unit's records pass R285, or it is refused (R280, R282, R285, R286). -/
def stepUnitChecking (unit : Nat) (s : State) : Host.Outcome State Fault Refusal :=
  .next <|
    match s.units.get unit with
    | none => s
    | some u =>
      if u.state != .checking || u.cancel || u.heldOn.isSome then s
      else
        let run := fun (s : State) => s.modUnit unit fun x => { x with state := .running }
        match u.fate with
        | some f => s.endUnit unit f.1 f.2
        | none =>
        match u.kind with
        | .job =>
          let c := jobCause u
          -- the phase table may add a cause lower than an alignment's (R286)
          if c.any (fun c => c ≤ 2) || (u.d 8).toNat % 16 != 0 then s.refuse unit (c.getD 11)
          else
            match s.getRecord 3 u.asid (u.d 8) 0 (u.n 4) with
            | (s, .held h) => s.modUnit unit fun x => { x with heldOn := h }
            | (s, .bad) => match c with | some c => s.refuse unit c | none => s.endUnit unit 3 0
            | (s, .data d) =>
              let rows := wordRows (u.n 4) d
              if rows.any phaseEntryBad then s.refuse unit 2
              else match c with | some c => s.refuse unit c | none => (run s).makePhases unit u rows
        | .phase =>
          -- R280: an item that is not legal refuses the job
          match u.parent with
          | none => s
          | some job =>
            if u.lists.any (itemBad u.gfx) then s.modUnit job fun x => { x with cause := 2 }
            else u.lists.foldl (fun s e => s.makeItem unit u e) (run s)
        | .graph =>
          match (if u.addr.toNat % 64 != 0 then some 11 else graphCause u) with
          | some c => s.refuse unit c
          | none => run s
        | .launch =>
          if u.addr.toNat % 256 != 0 then s.refuse unit 11
          else
            match s.fetchRecord unit with
            | (s, false) => s
            | (s, true) =>
              match s.units.get unit with
              | none => s
              | some u =>
                match launchCause u (s.kindWanted u) with
                | some c => s.refuse unit c
                | none =>
                  s.modUnit unit fun x => { x with state := .running, stage := if (x.d 0x50).toNat = 0 then 2 else 0 }
        | .draw => run s

/-- PHASE_START: phase k starts once phase k − 1 has ended done; its item list is read now, and is checked in Checking (R277,
R280, R281). -/
def stepPhaseStart (unit : Nat) (s : State) : Host.Outcome State Fault Refusal :=
  .next <|
    match s.units.get unit with
    | none => s
    | some u =>
      match u.parent.bind s.units.get, u.parent with
      | some j, some job =>
        if u.kind != .phase || u.state != .waiting || u.cancel || j.state != .running || j.ended != u.index ||
            j.worst != 0 || j.cause != 0 || j.heldOn.isSome then s
        else
          let n := (nth u.words 2).toNat
          match s.getRecord 3 u.asid u.addr 0 n with
          | (s, .held h) => s.modUnit job fun x => { x with heldOn := h }
          | (s, .bad) => s.modUnit job fun x => { x with cause := 256 }
          | (s, .data d) => s.modUnit unit fun x => { x with state := .checking, lists := wordRows n d }
      | _, _ => s

/-- Predecessors of node k of a graph run. -/
def nodePreds (row : List Word) : List Nat :=
  ((List.range 4).map fun i => field (nth row 2).toNat (8 * i + 7) (8 * i)).filter fun p => p != 255

/-- GRAPH_NODE_START: node k of a run starts when its predecessors have ended, or is cancelled (R283). -/
def stepGraphNodeStart (unit node : Nat) (s : State) : Host.Outcome State Fault Refusal :=
  .next <|
    match s.units.get unit with
    | none => s
    | some u =>
      let kids := s.children unit
      let row := u.lists.getD node []
      let preds := (nodePreds row).map fun p => (kids.find? fun k => k.2.index = p).map fun k => k.2.state
      if u.kind != .graph || u.state != .running || u.lists.length ≤ node || kids.any (fun k => k.2.index = node) ||
          preds.any (fun p => match p with | some (UnitState.ended _) => false | _ => true) then s
      else
        let gone : Bool := u.cancel || preds.any fun p => p != some (UnitState.ended 0)
        let (s, id) := s.addUnit { u.child .launch (some unit) (pair (nth row 0) (nth row 1)) with
                                   words := row.drop 4, index := node, cancel := gone }
        if u.cancel || preds.any (fun p => p != some (UnitState.ended 0)) then s.endUnit id 1 0 else s

/-- R277, R279, R281, R283: the status a unit would end with now; none while it runs on. -/
def State.endStatus (s : State) (id : Nat) (u : WorkUnit) : Option (Nat × Nat) :=
  let kids := s.children id
  let quiet := kids.all fun k => k.2.state.isEnd ||
    (u.kind = .job && !u.cancel && (k.2.state = .waiting || (k.2.state = .checking && u.cause != 0)))
  if u.state.isEnd || !quiet then none
  else if u.fate.isSome && u.state != .waiting then u.fate
  else if u.kind = .job && u.cause = 2 then some (2, 2)
  else if u.kind = .job && u.cause = 256 then some (3, 0)
  else
    match u.kind, u.state with
    | .launch, .running =>
      if !(s.groupsOf id).isEmpty then none
      else if u.cancel then some (1, 0)
      else if u.stage = 2 && u.next = u.grid then some (u.worst, 0)
      else if u.worst = 3 && u.stage = 3 then some (3, 0)
      else none
    | k, .running =>
      match k with
      | .graph => if u.ended != u.lists.length then none else if u.cancel then some (1, 0) else some (u.worst, 0)
      | .job =>
        if u.cancel then some (1, 0) else if u.worst != 0 || u.ended = u.n 4 then some (u.worst, 0) else none
      | _ => if u.cancel then some (1, 0) else some (u.worst, 0)
    | _, _ => if u.cancel then some (1, 0) else none

/-- UNIT_END: every child and group has ended (R277, R278). -/
def stepUnitEnd (unit : Nat) (s : State) : Host.Outcome State Fault Refusal :=
  .next <|
    match s.units.get unit with
    | none => s
    | some u =>
      match s.endStatus unit u with
      | some (st, c) =>
        match s.blockFor unit with
        | (s, true) => s.endUnit unit st c
        | (s, false) => s
      | none => s

/-- R277, R279: a cancel marks the unit and everything below it that has not ended. What is due to end as the cancel comes
ends by itself: the completion wins. -/
def State.cancelUnit (s : State) (top : Nat) : State :=
  { s with units := s.units.map fun x =>
      if s.within x.1 top && !x.2.state.isEnd && (s.endStatus x.1 x.2).isNone then (x.1, { x.2 with cancel := true }) else x }

end Sys2Proof.Machine
end

