-- ==== Sys2Proof/Machine/XLane.lean ====
section
/-! DEFINITION. The cross-lane and wave instructions 0x40 to 0x4A (R96 to R101, R79). -/

namespace Sys2Proof.Machine

open Sys2Proof

/-- A value of the exchanged type (R96): its negate acts by the type (R42). -/
def State.xval (s : State) (o : Who) (t : Ty) (x : Src) (l : Nat) : Nat := s.operand o (.of t) false x l

/-- Issue of a cross-lane instruction whose result is a function of the lane. -/
def State.crossLane (s : State) (i : Instr) (x : XlOp) (wide : Bool) (f : State → Who → Nat → Nat) :
    Host.Outcome State Fault Refusal :=
  s.issue i fun o s => (s.writeDst o x.dst wide (o.lanes x.h) (f s o)).finish o i

/-- QSWZ: lane l takes A of lane CTL[2l+1:2l] of its quad, as it stands (R97). -/
def execQswz (x : XlOp) (s : State) : Host.Outcome State Fault Refusal :=
  s.crossLane (.qswz x) x x.ty.isWide fun s o l =>
    s.xval o x.ty x.a (l / 4 * 4 + x.ctl.toNat / 4 ^ (l % 4) % 4)

/-- BALLOT: the participating lanes whose A is not 0. -/
def execBallot (x : XlOp) (s : State) : Host.Outcome State Fault Refusal :=
  s.crossLane (.ballot x) x true fun s o _ =>
    (maskOf 64 fun i => (o.lanes x.h).getLsbD i && s.xval o .i32 x.a i != 0 : LaneMask).toNat

/-- VOTE's truth over the participating lanes (R97). -/
def voteHolds (op : Nat) (vs : List Nat) : Bool :=
  match op with
  | 0 => vs.all fun v => v != 0
  | 1 => vs.any fun v => v != 0
  | _ => match vs with
    | [] => true
    | v :: r => r.all fun y => y = v

def execVote (x : XlOp) (s : State) : Host.Outcome State Fault Refusal :=
  s.crossLane (.vote x) x false fun s o _ =>
    if voteHolds x.sub.toNat ((maskBits (o.lanes x.h)).map fun i => s.xval o x.ty x.a i) then 1 else 0

/-- The lane that SHFL names (R98). -/
def shflLane (mode : Nat) (l b : Nat) : Int :=
  match mode with
  | 0 => b
  | 1 => (l : Int) - b
  | 2 => l + b
  | _ => Nat.xor l b

def execShfl (x : XlOp) (s : State) : Host.Outcome State Fault Refusal :=
  s.crossLane (.shfl x) x x.ty.isWide fun s o l =>
    let j := shflLane x.ctl.toNat l (s.ctlOf o x.b l)
    if 0 ≤ j && j ≤ 63 && (o.lanes x.h).getLsbD j.toNat then s.xval o x.ty x.a j.toNat else s.xval o x.ty x.c l

def execBcast (x : XlOp) (s : State) : Host.Outcome State Fault Refusal :=
  s.crossLane (.bcast x) x x.ty.isWide fun s o _ => s.xval o x.ty x.a ((maskLow (o.lanes x.h)).getD 0)

/-! ### REDUX and SCANX (R99, R79) -/

/-- One combine of operation `op` on patterns of a type. -/
def combine (fmt : Word) (op rnd : Nat) (t : Ty) (a b : Nat) : Nat :=
  let w := tyBits t
  let ia := asInt (tySigned t) w a
  let ib := asInt (tySigned t) w b
  let f := tyFmt t
  match op with
  | 0 => (a + b) % 2 ^ w
  | 1 => if ia ≤ ib then a else b
  | 2 => if ia ≤ ib then b else a
  | 3 => Nat.land a b
  | 4 => Nat.lor a b
  | 5 => Nat.xor a b
  | 6 =>
    let mode := rmodeCode fmt rnd
    roundFmt fmt mode f ((readNum fmt f a).add (mode = .rd) (readNum fmt f b))
  | 7 => flushOut fmt f (fminBits f (flushed fmt f a) (flushed fmt f b))
  | _ => flushOut fmt f (fmaxBits f (flushed fmt f a) (flushed fmt f b))

/-- The identity of an operation (R99). -/
def identityOf (op : Nat) (t : Ty) : Nat :=
  let w := tyBits t
  let f := tyFmt t
  match op with
  | 1 => (tyMax t % 2 ^ w).toNat
  | 2 => (tyMin t % 2 ^ w).toNat
  | 3 => 2 ^ w - 1
  | 6 => f.signed true 0
  | 7 => f.infBits
  | 8 => f.signed true f.infBits
  | _ => 0

/-- A HOLE with y gives y. -/
def combineHole (c : Nat → Nat → Nat) : Option Nat → Option Nat → Option Nat
  | none, b => b
  | a, none => a
  | some a, some b => some (c a b)

/-- The pairwise tree over 2^n positions (R79). -/
def treeOf (c : Nat → Nat → Nat) (v : Nat → Option Nat) : Nat → Nat → Option Nat
  | 0, i => v i
  | n + 1, i => combineHole c (treeOf c v n i) (treeOf c v n (i + 2 ^ n))

def execRedux (x : XlOp) (s : State) : Host.Outcome State Fault Refusal :=
  s.issue (.redux x) fun o s =>
    let op := x.ctl.toNat
    let m := o.lanes x.h
    let r := (treeOf (combine o.fmt op (x.sub.toNat % 8) x.ty)
      (fun i => if m.getLsbD i then some (s.xval o x.ty x.a i) else none) 6 0).getD (identityOf op x.ty)
    (s.writeDst o x.dst x.ty.isWide m fun _ => r).finish o (.redux x)

/-- Prefixes of the lanes in turn: inclusive, or the prefix before (R79). -/
def scanFrom (c : Nat → Nat → Nat) (excl : Bool) (id : Nat) : Option Nat → List (Nat × Nat) → List (Nat × Nat)
  | _, [] => []
  | none, (l, v) :: r => (l, if excl then id else v) :: scanFrom c excl id (some v) r
  | some p, (l, v) :: r => (l, if excl then p else c p v) :: scanFrom c excl id (some (c p v)) r

def execScanx (x : XlOp) (s : State) : Host.Outcome State Fault Refusal :=
  s.issue (.scanx x) fun o s =>
    let op := x.ctl.toNat
    let m := o.lanes x.h
    let out := scanFrom (combine o.fmt op (x.sub.toNat % 8) x.ty) (x.sub.getLsbD 3) (identityOf op x.ty) none
      ((maskBits m).map fun i => (i, s.xval o x.ty x.a i))
    (s.writeDst o x.dst x.ty.isWide m fun l => (Tbl.get out l).getD 0).finish o (.scanx x)

def execMatch (x : XlOp) (s : State) : Host.Outcome State Fault Refusal :=
  s.crossLane (.match x) x true fun s o l =>
    let v := s.xval o x.ty x.a l
    (maskOf 64 fun i => (o.lanes x.h).getLsbD i && s.xval o x.ty x.a i = v : LaneMask).toNat

/-- READLANE: A of lane j if its quad is the part's, else 0; into every quad's copy. B is one register whatever the TYPE's
width, a DESIGN CHOICE (log entry 70). -/
def execReadlane (x : XlOp) (s : State) : Host.Outcome State Fault Refusal :=
  s.crossLane (.readlane x) x x.ty.isWide fun s o l =>
    let j := s.ctlOf o x.b l % 64
    if o.p.quads.getLsbD (j / 4) then s.xval o x.ty x.a j else 0

/-- WRITELANE: only lane j, and only if it participates; B as for READLANE. -/
def execWritelane (x : XlOp) (s : State) : Host.Outcome State Fault Refusal :=
  s.issue (.writelane x) fun o s =>
    let j := s.ctlOf o x.b (4 * lowQuad o.p.quads) % 64
    (s.writeDst o x.dst x.ty.isWide (o.lanes x.h &&& bit1 64 j) fun l => s.xval o x.ty x.a l).finish o (.writelane x)

/-! ### XSHUF (R100, R101) -/

/-- The key that an XSHUF names. -/
def State.xkey (s : State) (o : Who) (x : XlOp) : Word := BitVec.ofNat 32 (s.ctlOf o x.b (4 * lowQuad o.p.quads))

/-- The group's entry for a key. -/
def pairOf (u : WorkUnit) (key : Word) (g : Nat) : Option XPair := u.xpairs.find? fun e => e.key = key && e.group = g

def modPair (key : Word) (g : Nat) (f : XPair → XPair) (u : WorkUnit) : WorkUnit :=
  { u with xpairs := replaceFirst (fun e => e.key = key && e.group = g) f u.xpairs }

/-- The cluster on which a group runs. -/
def State.groupCluster (s : State) (g : Nat) : Option Nat := (s.groups.get g).map fun x => clusterOf x.core

/-- R100 items 1 and 2: the group enters the key, and pairs with the earliest unpaired group of another cluster. -/
def State.enterKey (s : State) (o : Who) (key : Word) : State :=
  let me := o.w.group
  let s := if (pairOf o.u key me).isSome then s else
    s.modUnit o.g.unit fun u =>
      { u with xpairs := u.xpairs ++ [XPair.mk key me none false [] []] }
  match s.units.get o.g.unit with
  | none => s
  | some u =>
    match pairOf u key me with
    | some e =>
      if e.partner.isSome then s
      else
        match u.xpairs.find? fun p => p.key = key && p.group != me && p.partner.isNone && !p.dead &&
            s.groupCluster p.group != some (clusterOf o.g.core) with
        | none => s
        | some p =>
          if s.mayDecide o 5 then
            let s := s.modUnit o.g.unit fun u =>
              modPair key me (fun e => { e with partner := some p.group })
                (modPair key p.group (fun e => { e with partner := some me }) u)
            s.decide o 5 0 o.pr.part o.p.pc.toNat o.p.quads.toNat key.toNat
          else s
    | none => s

/-- The number of XSHUFs a wave has made on a key. -/
def XPair.made (e : XPair) (w : Nat) : Nat := (e.tries.get w).getD 0

/-- One more XSHUF of a wave on the key, failed or not. -/
def XPair.count (e : XPair) (w : Nat) (fails : Bool) : XPair :=
  { e with tries := e.tries.put w (e.made w + 1), failed := if fails then e.failed ++ [(w, e.made w)] else e.failed }

/-- R100 item 4, R101: the partner has ended, or its matching XSHUF has timed out. -/
def xshufDead (u : WorkUnit) (key : Word) (g w : Nat) : Bool :=
  match pairOf u key g with
  | none => false
  | some e => e.dead ||
    (match e.partner.bind (pairOf u key) with
     | some q => q.failed.contains (w, e.made w)
     | none => false)

/-- XSHUF_TIMEOUT or XSHUF_SHAPE before the XSHUF. -/
def State.xshufTrap (s : State) (o : Who) (key : Word) (code : Nat) (fails : Bool) : State :=
  let s := s.modUnit o.g.unit (modPair key o.w.group fun e => e.count o.w.index fails)
  s.trapVal o code key.toNat

/-- XSHUF enters its key and waits for its partner wave (R100). -/
def execXshuf (x : XlOp) (s : State) : Host.Outcome State Fault Refusal :=
  s.issue (.xshuf x) fun o s =>
    let key := s.xkey o x
    let s := s.enterKey o key
    match s.units.get o.g.unit with
    | none => s
    | some u =>
      if xshufDead u key o.w.group o.w.index then s.xshufTrap o key codeXshufTimeout false
      else (s.modPart o.pr fun p => { p with timer := ktoClk o.cutp }).holdOn o.pr (.xshuf x) 12

/-- The part of a wave that waits in an XSHUF. -/
def State.xwaiter (s : State) (w : Nat) : Option (Who × XlOp) :=
  match s.waves.get w with
  | none => none
  | some v => v.parts.findSome? fun p =>
      match p.2.hold, p.2.status with
      | .instr (.xshuf x), .resident => (s.who { wave := w, part := p.1 }).map fun o => (o, x)
      | _, _ => none

/-- The values that one wave receives (R101). Where the widths of the two types differ, the partner's value is cut off or
extended with zeros to the receiver's width: the manual states no result (log entry 70). -/
def State.exchange (s : State) (o : Who) (x : XlOp) (q : Who) (y : XlOp) (s0 : State) : State :=
  let mine := o.lanes x.h
  let theirs := q.lanes y.h
  s.writeDst o x.dst x.ty.isWide mine fun l =>
    if theirs.getLsbD l then s0.xval q y.ty y.a l else s0.xval o x.ty x.a l

/-- R100 item 4: the waves of a launch that wait on a key whose pair has ended take XSHUF_TIMEOUT at once. -/
def State.failDead (s : State) (unit : Nat) : State :=
  (s.waves.map fun w => w.1).foldl (fun s w =>
    match s.xwaiter w with
    | some (o, x) =>
      if o.g.unit = unit && xshufDead o.u (s.xkey o x) o.w.group o.w.index then
        s.xshufTrap o (s.xkey o x) codeXshufTimeout false
      else s
    | none => s) s

/-- A waiting wave's group looks for its partner again, where it has none yet (R100 item 2). -/
def State.seekPair (s : State) (w : Nat) : State :=
  match s.xwaiter w with
  | some (o, x) => s.enterKey o (s.xkey o x)
  | none => s

/-- XSHUF_MATCH: both waves wait for one another; they exchange, or take XSHUF_SHAPE (R101). -/
def stepXshufMatch (a b : Nat) (s : State) : Host.Outcome State Fault Refusal :=
  .next <|
    let s := s.seekPair a
    match s.xwaiter a, s.xwaiter b with
    | some (o, x), some (q, y) =>
      let key := s.xkey o x
      match pairOf o.u key o.w.group, pairOf o.u key q.w.group with
      | some e, some f =>
        if o.g.unit = q.g.unit && s.xkey q y = key && e.partner = some q.w.group && f.partner = some o.w.group &&
            o.w.index = q.w.index && e.made o.w.index = f.made q.w.index then
          if o.w.nquads != q.w.nquads then
            (s.xshufTrap o key codeXshufShape false).xshufTrap q key codeXshufShape false
          else
            let t := ((s.exchange o x q y s).exchange q y o x s)
            let t := t.modUnit o.g.unit fun u =>
              modPair key o.w.group (fun e => e.count o.w.index false) (modPair key q.w.group (fun e => e.count o.w.index false) u)
            (t.finish o (.xshuf x)).finish q (.xshuf y)
        else s
      | _, _ => s
    | _, _ => s

/-- XSHUF_TIMEOUT: the knit timeout of the wave's launch has passed (R101). -/
def stepXshufTimeout (p : PartRef) (s : State) : Host.Outcome State Fault Refusal :=
  .next <|
    match s.who p with
    | some o =>
      match o.p.hold, o.p.status with
      | .instr (.xshuf x), .resident => if o.p.timer = 0 then s.xshufTrap o (s.xkey o x) codeXshufTimeout true else s
      | _, _ => s
    | none => s

end Sys2Proof.Machine
end

