-- ==== Sys2Proof/Machine/Groups.lean ====
section
/-! DEFINITION. Groups: dispatch (R289, R290), weight stages (R287, R288), saves and restores (R296, R368 to R371), ends
(R291), and the swaps of part slots (R293). -/

namespace Sys2Proof.Machine

open Sys2Proof

/-! ### What a core has free (R289) -/

/-- Groups that hold resources on a core. -/
def State.groupsOn (s : State) (core : Nat) : Tbl Group := s.groups.filter fun g => g.2.core = core && g.2.state != .saved

/-- The launch of a group. -/
def State.unitOf (s : State) (g : Group) : WorkUnit := (s.units.get g.unit).getD (blankUnit .launch 0 false none 0)

/-- Blocks in use on a scheduler, `per` those of one wave: a group's waves hold them until the group ends (R291). -/
def State.blocksUsed (s : State) (core sched : Nat) (per : WorkUnit → Nat) : Nat :=
  ((s.groupsOn core).map fun g =>
    (g.2.scheds.filter fun j => j = sched).length * per (s.unitOf g.2)).foldl (· + ·) 0

/-- The binding of a launch in the rennet caches: its draw, or itself (R161). -/
def WorkUnit.binding (u : WorkUnit) (id : Nat) : Nat := if u.kindCode = 0 then id else u.parent.getD id

/-- A sum over the groups on a core that satisfy a test. -/
def State.sumOn (s : State) (core : Nat) (p : Group → WorkUnit → Bool) (f : WorkUnit → Nat) : Nat :=
  ((s.groupsOn core).map fun g => if p g.2 (s.unitOf g.2) then f (s.unitOf g.2) else 0).foldl (· + ·) 0

/-- RNE of a binding: a draw's is its pixel launch's (R161). -/
def State.rneOf (s : State) (u : WorkUnit) : Nat :=
  if u.kindCode = 1 then (match u.peer.bind s.units.get with | some p => p.rne | none => 0) else u.rne

/-- Rennet entries that bindings other than the given one hold on a core. -/
def State.rennetUsed (s : State) (core binding : Nat) : Nat :=
  let l := dedup ((s.groupsOn core).map fun g => ((s.unitOf g.2).binding g.2.unit, s.rneOf (s.unitOf g.2)))
  ((l.filter fun e => e.1 != binding).map fun e => e.2).foldl (· + ·) 0

/-- R290: the scheduler of a wave: the most free blocks, the lowest number among equals, where a slot is free and each bank of
64 blocks has room (R17), which leaves the blocks free for each quad that R289 asks for. `taken` counts the waves already placed on each scheduler. -/
def State.pickSched (s : State) (u : WorkUnit) (core : Nat) (taken : List Nat) : Option Nat :=
  let mine := fun (j : Nat) => (taken.filter fun x => x = j).length
  let free := fun (j : Nat) => 512 - s.blocksUsed core j WorkUnit.waveBlocks - mine j * u.waveBlocks
  let bank := fun (j : Nat) => s.blocksUsed core j WorkUnit.bankBlocks + mine j * u.bankBlocks
  let slots := fun (j : Nat) => (s.openSlotsOn u.ctl core j).length - s.slotsDue u.ctl core j
  leastBy (fun j => 512 - free j) ((List.range 4).filter fun j =>
    bank j + u.bankBlocks ≤ 64 && mine j < slots j)

/-- Schedulers for n waves. -/
def State.pickScheds (s : State) (u : WorkUnit) (core : Nat) : Nat → List Nat → Option (List Nat)
  | 0, l => some l
  | n + 1, l =>
    match s.pickSched u core l with
    | none => none
    | some j => s.pickScheds u core n (l ++ [j])

/-- R289, R347: quotas of the launch and of its context on a core, with one more group of `waves` waves. -/
def State.inQuota (s : State) (id : Nat) (u : WorkUnit) (core waves : Nat) : Bool :=
  u.ctl ||
    (let mine := fun (g : Group) (_ : WorkUnit) => g.unit == id
     let ctxs := fun (_ : Group) (v : WorkUnit) => !v.ctl && v.ctx == u.ctx
     let slots := fun (p : Group → WorkUnit → Bool) =>
       ((s.waves.filter fun w => match s.groups.get w.2.group with
          | some g => g.core = core && p g (s.unitOf g)
          | none => false).map fun w => (w.2.parts.filter fun x => x.2.slotted).length).foldl (· + ·) 0 +
       ((s.groupsOn core).map fun g => if !g.2.begun && p g.2 (s.unitOf g.2) then g.2.scheds.length else 0).foldl (· + ·) 0
     let q12 := (nth u.desc 12).toNat
     slots mine + waves ≤ field (u.n 0x48) 7 0 &&
     s.sumOn core mine (fun v => v.lsz / 256) + u.lsz / 256 ≤ field (u.n 0x4C) 26 16 &&
     s.sumOn core mine (fun v => v.nwaves * v.waveBlocks) + u.nwaves * u.waveBlocks ≤ field (u.n 0x4C) 11 0 &&
     slots ctxs + waves ≤ field q12 7 0 && s.sumOn core ctxs (fun v => v.lsz / 256) + u.lsz / 256 ≤ field q12 26 16 &&
     s.sumOn core ctxs (fun v => v.nwaves * v.waveBlocks) + u.nwaves * u.waveBlocks ≤ field (nth u.desc 13).toNat 11 0)

/-- R128, R130: a WSWRITE issued on the die, or a weight stage that writes it, has not completed. -/
def State.wsBusy (s : State) (die : Nat) : Bool :=
  s.ops.any fun x => x.kind = .wsWrite && !x.done && (match s.groups.get x.group with | some g => dieOf g.core = die | none => false)

/-- R128: a group with the weight-store bit is resident on a die. -/
def State.wsReaders (s : State) (die : Nat) : Bool :=
  s.groups.any fun g => dieOf g.2.core = die && g.2.state != .saved && (s.unitOf g.2).wsb

/-- R289: whether a core qualifies for a group of a launch, and the schedulers of its waves. -/
def State.qualifies (s : State) (id : Nat) (u : WorkUnit) (core waves : Nat) : Option (List Nat) :=
  if core < 512 && u.clusters.getLsbD (clusterOf core) && !(s.core core).freeze.frozen &&
      s.sumOn core (fun _ _ => true) (fun v => v.lsz) + u.lsz ≤ 262144 &&
      s.sumOn core (fun _ _ => true) (fun v => v.acct) + u.acct ≤ 8 &&
      (!u.taq || s.sumOn core (fun _ v => v.taq) (fun _ => 1) = 0) &&
      s.rennetUsed core (u.binding id) + s.rneOf u ≤ 64 && s.inQuota id u core waves &&
      (!u.wsb || !s.wsBusy (dieOf core)) &&
      (u.lists = [] || nbit (field (nth (u.lists.getD 0 []) 0).toNat 3 0) (dieOf core)) then
    s.pickScheds u core waves []
  else none

/-! ### Order of dispatch (R289, R295 to R299) -/

/-- R297: a launch of a draw whose groups have begun to be dispatched: it goes on to the draw's end. -/
def State.drawBegun (s : State) (u : WorkUnit) : Bool :=
  u.kindCode != 0 && (0 < u.next || (match u.peer.bind s.units.get with | some p => 0 < p.next | none => false))

/-- A launch with groups still to be dispatched or restored. A halted context dispatches no more (R380). -/
def State.wantsCore (s : State) (id : Nat) (u : WorkUnit) : Bool :=
  u.kind = .launch && u.state = .running && u.stage = 2 && !u.cancel && (!(s.ctx u.ctx).halted || s.drawBegun u) &&
  (u.next < u.grid || (s.groupsOf id).any fun g => g.2.state = .saved) &&
  -- the binding's RNE stands in the record of the draw's pixel launch (R161)
  !(u.kindCode = 1 && match u.peer.bind s.units.get with | some p => p.words = [] && !p.state.isEnd | none => false)

/-- The job of a unit, as its place in the order of submission. -/
def State.jobOf (s : State) (id : Nat) : Nat := (s.unitAbove id .job).getD id

/-- R299: a launch of an earlier job of the same context and priority still waits for dispatch. -/
def State.behind (s : State) (id : Nat) (u : WorkUnit) : Bool :=
  s.units.any fun x => x.1 != id && x.2.ctl = u.ctl && x.2.ctx = u.ctx && x.2.prio = u.prio && s.wantsCore x.1 x.2 &&
    x.2.next < x.2.grid && s.jobOf x.1 < s.jobOf id

/-- The machine as it would be without the groups that satisfy a test, for a question about its resources. -/
def State.without (s : State) (p : Nat → Group → Bool) : State := { s with groups := s.groups.filter fun g => !p g.1 g.2 }

/-- Waves that a group has live, or is still to begin. -/
def Group.liveWaves (g : Group) (u : WorkUnit) : Nat := if g.begun then g.waves.length else u.nwaves

/-- Waves that the next group of a launch brings: those still live of a saved one, which goes first (R296). -/
def State.wavesDue (s : State) (id : Nat) (u : WorkUnit) : Nat :=
  match leastBy (fun x => x.2.liveWaves u) ((s.groupsOf id).filter fun g => g.2.state = .saved) with
  | some g => g.2.liveWaves u
  | none => u.nwaves

/-- A core on which a launch's next group could be placed, were the groups that satisfy `p` gone; its quotas are its own. -/
def State.couldHave (s : State) (id : Nat) (u : WorkUnit) (core : Nat) (p : Nat → Group → Bool) : Bool :=
  let n := s.wavesDue id u
  s.inQuota id u core n && ((s.without p).qualifies id u core n).isSome

/-- R296, R297, R299: a launch of higher priority waits for a core that only groups of lower priority keep from it, or that
nothing does: what becomes free there is not for this launch. -/
def State.promised (s : State) (u : WorkUnit) (core : Nat) : Bool :=
  !u.ctl && s.units.any fun x => !x.2.ctl && u.prio < x.2.prio && s.wantsCore x.1 x.2 &&
    s.couldHave x.1 x.2 core fun _ g => !(s.unitOf g).ctl && (s.unitOf g).prio < x.2.prio

/-- R395: in replay, group g is dispatched on the logged core in logged order; where the core's next dispatch is of a group
of the launch that has gone before, the dispatch differs from it, and ends the replay. R394: never from an exhausted
reserve. -/
def State.dispatchLogged (s : State) (u : WorkUnit) (core g : Nat) : Bool :=
  if u.mode = 3 then
    match s.dispatchNext u core with
    | some (_, r) => recPc r = (u.d 8).toNat % 2 ^ 57 && recData r ≤ g
    | none => false
  else !s.ringShort u core 1

/-! ### Forming a group (R289, R290, R348) -/

/-- R290: the initial state of wave w. -/
def firstWave (s : State) (core gid : Nat) (u : WorkUnit) (w sched slot : Nat) (front : Bool) : Wave :=
  let q := u.quads
  let lanes := u.lanes
  let exited : LaneMask := maskOf 64 fun l => 4 * q ≤ l || lanes ≤ 4 * q * w + l
  let quads : QuadMask := maskOf 16 fun i => i < q && exited.extractLsb' (4 * i) 4 != (15 : BitVec 4)
  let part : Part :=
    { quads := quads, pc := u.d 8, active := ~~~ exited, stack := [], rep := none, kc := 0, late := false, pin := [],
      line := none, kept := none, hold := .no, stall := 0, status := .resident, slot := slot, front := front, timer := 0, waited := 0,
      inSet := 0, queued := 0, born := 0, ord := 0, prior := [], sigs := none, fence := none, check := true, nobrk := false,
      idle := 0, last := false, repin := false, arg := 0, since := 0 }
  { group := gid, index := w, sched := sched, nquads := q, age := s.fresh, exited := exited, v := [], p := [],
    s := (List.range 12).map fun i => (i, quadsOf fun _ => u.w (0xC0 + 4 * i)),
    fmt := quadsOf fun i => if i < q then u.w 0x2C else (s.core core).fmt,
    cutp := quadsOf fun i => if i < q then u.w 0x40 else (s.core core).cutp, parts := [(lowQuad quads, part)], errs := [],
    pend := [], fmu := { openNum := 1, closed := [], faults := [] }, ta := { openNum := 1, closed := [], faults := [] },
    regs := [], eps := [], hits := [], tile := none, seqs := { dseq := 0, atom := 0, emit := 0 }, gbar := false }

/-- The group's waves enter, each into a free slot of its scheduler. -/
def State.enterWaves (s : State) (gid core : Nat) (u : WorkUnit) : List (Nat × Nat) → State
  | [] => s
  | (w, j) :: r =>
    let slot := (s.freeSlot u (((s.groups.get gid).map fun g => g.unit).getD 0) core j).getD 0
    let (s, id) := s.fresh1
    let s := { s with waves := s.waves.put id (firstWave s core gid u w j slot (s.frontRoom core j)) }
    (s.modGroup gid fun g => { g with waves := g.waves ++ [id] }).enterWaves gid core u r

/-- R281, R296: the core's global lines, texel cache and ray node cache are invalidated; constant copies go with them, so
that a constant load returns a value no older than the dispatch (R186). -/
def State.cleanCore (s : State) (core : Nat) : State :=
  s.modCore core fun c => { c with l1 := c.l1.filter (fun e => e.1 % 4 = 2), tex := [], rays := [], f := s.time }

/-- Input tiles that a launch has (R285). -/
def WorkUnit.tiles (u : WorkUnit) : List Nat := (List.range 4).filter fun i => u.n (0x70 + 24 * i) != 0

/-- GROUP_DISPATCH: the next group is placed on a qualifying core, where it holds what it needs, with its local store zeroed
(R289, R348); its waves are dispatched once its tiles have arrived (R290). -/
def stepGroupDispatch (unit core : Nat) (s : State) : Host.Outcome State Fault Refusal :=
  .next <|
    match s.units.get unit with
    | none => s
    | some u =>
      if !s.wantsCore unit u || u.next = u.grid || (s.groupsOf unit).any (fun g => g.2.state = .saved) ||
          (!u.ctl && (s.ctx u.ctx).resets) || s.behind unit u || (!s.drawBegun u && s.promised u core) ||
          !s.dispatchLogged u core u.next then s
      else
        match s.qualifies unit u core u.nwaves with
        | none => s
        | some l =>
          let (s, gid) := s.fresh1
          let g : Group :=
            { unit := unit, g := u.next, core := core, state := .tiles, cancel := false, waves := [], lsz := u.lsz, ls := [],
              acc := [], token := [], plane := [], tacc := [], accErr := [], taccErr := [], illeg := 0, window := 0, queues := [], todo := u.tiles,
              rennet := [], scheds := l, begun := false, overs := [], tileF := [], heldOn := none, heldGo := false }
          let s := { s with groups := s.groups.put gid g }
          let s := if u.cores.contains core then s else s.cleanCore core
          let s := s.modUnit unit fun x =>
            { x with next := x.next + 1, giving := none, cores := if x.cores.contains core then x.cores else x.cores ++ [core] }
          s.event core u { kind := 1, code := 0, wid := u.next * u.nwaves % 2 ^ 32, part := 0, pc := (u.d 8).toNat, dseq := 0,
                           qmask := 0, data := u.next }

/-- What the copies of a group's input tiles have met: the near fault of the lowest source address with its level (R290,
R361), the lowest address in uncorrectable error, and a far fault's record. -/
structure TileCopy where
  near : Option (Nat × Nat × Dword)
  bad  : Option Dword
  held : Option (Option Word)

/-- R290: an input tile is copied in units of 16 bytes. A far fault holds the group; a near fault, a PA of no region or
an uncorrectable error writes zeros. -/
def State.copyTile (s : State) (gid core asid : Nat) (ctl : Bool) (lix : Word) (dst : Nat) (src : Dword) (c : TileCopy) :
    Nat → State × TileCopy
  | 0 => (s, c)
  | n + 1 =>
    let zero := fun (s : State) (c : TileCopy) =>
      (s.setBytes (.ls gid dst) (leBytes 16 0)).copyTile gid core asid ctl lix (dst + 16) (src + 16) c n
    let near := fun (s : State) (code lv : Nat) => zero s { c with near := match c.near with
      | some y => if y.2.2.toNat ≤ src.toNat then some y else some (code, lv, src)
      | none => some (code, lv, src) }
    match s.translate core asid .read src with
    | (s, .error (.far lv)) =>
      let (s, id) := s.ownRecord core 1 asid src lv 0 lix
      (s, { c with held := some id })
    | (s, .error (.near code lv)) => near s code lv
    | (s, .ok x) =>
      match s.region ctl x.pa with
      | none => near s codeMemRegion 0
      | some l =>
        let (s, d, e) := s.mendedAt l 16
        let c := { c with bad := match c.bad, e.map fun i => src + BitVec.ofNat 64 i with
          | some a, some b => some (if a.toNat ≤ b.toNat then a else b)
          | none, y => y
          | y, none => y }
        (s.setBytes (.ls gid dst) d).copyTile gid core asid ctl lix (dst + 16) (src + 16) c n

/-- The tiles of a group, in order, until one is held. -/
def State.copyTiles (s : State) (gid core : Nat) (u : WorkUnit) (g : Nat) (c : TileCopy) : List Nat → State × TileCopy
  | [] => (s, c)
  | i :: r =>
    let src := u.d (0x60 + 24 * i) + BitVec.ofNat 64 (g * u.n (0x68 + 24 * i))
    match s.copyTile gid core u.asid u.ctl u.launchix (u.n (0x6C + 24 * i)) src c (u.n (0x70 + 24 * i) / 16) with
    | (s, c) => if c.held.isSome then (s, c) else s.copyTiles gid core u g c r

/-- WAVE_DISPATCH: the input tiles have arrived and the waves are dispatched, in WAVEIX order, each on its scheduler (R290). The tiles' near fault, then their COPY_DATA,
wait for wave 0's first instruction. -/
def stepWaveDispatch (group : Nat) (s : State) : Host.Outcome State Fault Refusal :=
  .next <|
    match s.groups.get group with
    | none => s
    | some g =>
      let u := s.unitOf g
      if g.state != .tiles || g.heldOn.isSome || u.cancel then s
      else
        match s.copyTiles group g.core u g.g { near := none, bad := none, held := none } g.todo with
        | (s, c) =>
          match c.held with
          | some id => s.modGroup group fun x => { x with heldOn := id }
          | none =>
            let trap := fun (code lv : Nat) (a : Dword) (defer : Bool) =>
              { TrapInfo.plain code (u.d 8) with addr := a, val := BitVec.ofNat 32 lv, defer := defer }
            let l := (match c.near with | some (code, lv, a) => [trap code lv a false] | none => []) ++
              (match c.bad with | some a => [trap codeCopyData 0 a true] | none => [])
            (s.modGroup group fun x => { x with state := .running, todo := [], begun := true, tileF := l }).enterWaves group
              g.core u (g.scheds.zipIdx.map fun e => (e.2, e.1))

/-! ### Weight stages (R287, R288) -/

/-- R287: a table whose header or an entry is not legal for the launch's context. -/
def stageBad (u : WorkUnit) (h : List Word) (rows : List (List Word)) : Bool :=
  let dies := (List.range 4).filter fun d => nbit (nth h 0).toNat d
  let lim := fun (d : Nat) =>
    let b := field (nth u.desc (4 + 2 * d)).toNat 15 0
    let l := field (nth u.desc (5 + 2 * d)).toNat 16 0
    if 65536 < b + l then 0 else l * 65536
  dies.isEmpty || rows.any fun e =>
    (pair (nth e 0) (nth e 1)).toNat % 64 != 0 || (nth e 2).toNat % 64 != 0 || (nth e 3).toNat % 64 != 0 ||
    (nth e 3).toNat < 64 || 2 ^ 24 < (nth e 3).toNat || dies.any fun d => lim d < (nth e 2).toNat + (nth e 3).toNat

/-- The header: die mask in [3:0], entry count in [15:8], zero elsewhere. -/
def stageHeaderBad (h : List Word) : Bool :=
  let w := (nth h 0).toNat
  field w 3 0 = 0 || field w 7 4 != 0 || field w 31 16 != 0 || field w 15 8 < 1 || 64 < field w 15 8 ||
  (nth h 1).toNat != 0 || (nth h 2).toNat != 0 || (nth h 3).toNat != 0

/-- One entry is copied into the weight store of the mask's dies: what remains to be done is answered. -/
def State.stageCopy (s : State) (u : WorkUnit) (dies : List Nat) (src : Dword) (dst : Nat) (bad : Bool) :
    Nat → State × Got × Bool
  | 0 => (s, .data [], bad)
  | n + 1 =>
    let put := fun (s : State) (d : List Byte) =>
      dies.foldl (fun s k => s.setBytes (.ws k (field (nth u.desc (4 + 2 * k)).toNat 15 0 * 65536 + dst)) d) s
    match s.locate u.asid .read src with
    | (s, .ok l) =>
      let (s, d, e) := s.mendedAt l 16
      (put s d).stageCopy u dies (src + 16) (dst + 16) (bad || e.isSome) n
    | (s, .error (.far a lv)) =>
      let (s, id) := s.ownRecord 0 1 u.asid a lv 0 u.launchix
      (s, .held id, bad)
    | (s, .error _) => (s, .bad, bad)

/-- Entries from the k-th on. -/
def State.stageRows (s : State) (u : WorkUnit) (dies : List Nat) (bad : Bool) : List (List Word) → State × Got × Bool
  | [] => (s, .data [], bad)
  | e :: r =>
    match s.stageCopy u dies (pair (nth e 0) (nth e 1)) (nth e 2).toNat bad ((nth e 3).toNat / 16) with
    | (s, .data _, bad) => s.stageRows u dies bad r
    | x => x

/-- WEIGHT_STAGE: the table is read and checked, and its entries are written under R128 (R283, R287, R288). -/
def stepWeightStage (unit : Nat) (s : State) : Host.Outcome State Fault Refusal :=
  .next <|
    match s.units.get unit with
    | none => s
    | some u =>
      if u.kind != .launch || u.state != .running || u.stage != 0 || u.cancel || u.heldOn.isSome then s
      else
        let fail := fun (s : State) (g : Got) => match g with
          | .held h => s.modUnit unit fun x => { x with heldOn := h }
          | _ => s.modUnit unit fun x => { x with stage := 3, worst := 3 }
        match s.getRecord 1 u.asid (u.d 0x50) u.launchix 1 with
        | (s, .data h) =>
          let h := bytesWords h
          if stageHeaderBad h then s.refuse unit 9
          else
            let n := field (nth h 0).toNat 15 8
            match s.getRecord 1 u.asid (u.d 0x50 + 16) u.launchix n with
            | (s, .data t) =>
              let rows := wordRows n t
              let dies := (List.range 4).filter fun d => nbit (nth h 0).toNat d
              if stageBad u h rows then s.refuse unit 9
              else if dies.any fun d => s.wsReaders d || s.wsBusy d then s
              else
                match s.stageRows u dies false rows with
                | (s, .data _, bad) =>
                  s.modUnit unit fun x => { x with stage := if bad then 3 else 2, worst := if bad then 3 else x.worst, lists := [h] }
                | (s, g, _) => fail s g
            | (s, g) => fail s g
        | (s, g) => fail s g

/-! ### The end of a group (R291) -/

/-- Operations of a group that are not complete. -/
def State.groupBusy (s : State) (gid : Nat) : Bool := s.ops.any fun x => x.group = gid && !x.done

/-- R100: the keys whose partner is a group that ends. -/
def endPairs (gid : Nat) (l : List XPair) : List XPair :=
  l.map fun x => if x.partner = some gid then { x with dead := true } else x

/-- Saved or waiting parts of a cancelled group are discarded with their waves, whose tickets are retired (R279, R313). -/
def State.dropWaves (s : State) (gid : Nat) : State :=
  (s.waves.filter fun w => w.2.group = gid).foldl (fun s w =>
    let s := match w.2.parts.head? with
      | some p => match s.who { wave := w.1, part := p.1 } with
        | some o => (s.unpin o).retireTile o
        | none => s
      | none => s
    { s with waves := Tbl.del s.waves w.1 }) s

/-- The entries of a group's binding leave the core's rennet cache with the last group of the binding that holds resources
there (R161, R291). -/
def State.freeRennet (s : State) (g : Group) : State :=
  let b := (s.unitOf g).binding g.unit
  if (s.groupsOn g.core).any fun x => (s.unitOf x.2).binding x.2.unit = b then s
  else s.modCore g.core fun c => { c with rennet := c.rennet.filter fun e => e.2.1 != b }

/-- Dirty private sectors of a core go to their home slices, and leave the L1. -/
def State.flushPrivate (s : State) (core cls : Nat) : State :=
  let s := s.backAsks core cls (s.core core).l1
  (((s.core core).l1.filter fun e => e.1 % 4 = 2).map fun e => e.1).foldl (fun s k => s.l1Drop core k) s

/-- A group leaves: its resources are freed, its binding's entries of the rennet cache among them (R291), its XSHUF
partners are told (R100), its private data leaves the L1 (R185), and the launch barrier takes its release (R310). -/
def State.freeGroup (s : State) (gid : Nat) : State :=
  match s.groups.get gid with
  | none => s
  | some g =>
    let s := { s with groups := Tbl.del s.groups gid, ops := s.ops.filter fun x => x.group != gid }
    let s := (s.freeRennet g).flushPrivate g.core (s.unitOf g).netClass
    let c := s.core g.core
    (s.modUnit g.unit fun x =>
      { x with ended := x.ended + 1, xpairs := endPairs gid (x.xpairs.filter fun p => p.group != gid),
               gsig := sigJoin x.gsig (sigJoin g.sigz (c.sig, c.z)) }).failDead g.unit

/-- GROUP_END: the last wave has ended, or the group is cancelled and all it started is complete (R279, R291). -/
def stepGroupEnd (group : Nat) (s : State) : Host.Outcome State Fault Refusal :=
  .next <|
    match s.groups.get group with
    | none => s
    | some g =>
      let stopping := s.stoppers.any fun p => match s.waves.get p.wave with | some w => w.group = group | none => false
      if s.groupBusy group || stopping then s
      else if (s.unitOf g).cancel then (s.dropWaves group).freeGroup group
      else if g.waves = [] && g.state = .running then s.freeGroup group
      else s

/-! ### Saving a group (R296, R368) -/

/-- Parts of a group. -/
def State.partsOf (s : State) (gid : Nat) : List PartRef :=
  (s.waves.filter fun w => w.2.group = gid).flatMap fun w => w.2.parts.map fun p => { wave := w.1, part := p.1 }

/-- What a save keeps of a part's wait: an XSHUF is made again (R101). -/
def savedHold : Hold → Hold
  | .instr (.xshuf _) => .no
  | .lineMask => .no
  | .refetch => .no
  | .retry => .no
  | .spill _ => .no
  | h => h

/-- The ids of a wave's parts, as quads. -/
def Wave.liveParts (w : Wave) : QuadMask := maskOf 16 fun q => (w.parts.get q).isSome

/-- Every part that is resident is saved with state 3; those saved already stay (R371). `keep` leaves them in their
slots (R389). -/
def State.saveParts (s : State) (keep : Bool) : List PartRef → State × Bool
  | [] => (s, true)
  | p :: r =>
    match s.who p with
    | none => s.saveParts keep r
    | some o =>
      if o.p.status = .resident then
        let s := (s.flushSigs o).unpin o
        match s.savePart o 3 0 with
        | (s, ok) =>
          let s := s.decide o 3 0 o.pr.part o.p.pc.toNat o.p.quads.toNat 0
          let s := s.modPart p fun x =>
            { x with status := if keep then x.status else .withGroup, hold := savedHold x.hold, line := none, kept := none, sigs := none,
                     pin := [], check := false }
          match s.saveParts keep r with
          | (s, ok') => (s, ok && ok')
      else if o.w.parts.all (fun x => !(x.2.status == .resident || x.2.status == .withGroup)) && o.pr.part = lowQuad o.w.liveParts then
        -- the wave state of a wave that no resident part stands for (R116)
        match s.devBlur o.asid (o.frame + 2048) 128 with
        | (s, ok) =>
          match s.saveParts keep r with
          | (s, ok') => (s, ok && ok')
      else s.saveParts keep r

/-- Bytes of an image in units of 16, from a byte function. -/
def imageBytes (n : Nat) (f : Nat → List Byte) : List Byte := (List.range n).flatMap f

/-- R368: header, local-store image, tiles and TA state of a group. False where a write fails, or where what is to be written
is in uncorrectable error, which a frame cannot say (R2, log entry 78). -/
def State.saveGroupImage (s : State) (g : Group) (gid : Nat) : State × Bool :=
  let u := s.unitOf g
  let base := groupAddr u g.g
  let lsAt := 8192 + u.nwaves * waveFrame u
  let (s, a) := s.devBlur u.asid base 512
  let (s, b) := s.devWrite u.asid (base + BitVec.ofNat 64 lsAt) (s.bytesAt (.ls gid 0) u.lsz) (u.lsz / 16)
  let tiles := imageBytes (1024 * u.acct) fun e => leBytes 4 ((g.acc.get e).getD 0).toNat
  let (s, c) := s.devWrite u.asid (base + BitVec.ofNat 64 (lsAt + u.lsz)) tiles (256 * u.acct)
  let (s, d) := s.devBlur u.asid (base + BitVec.ofNat 64 (lsAt + u.lsz + 4096 * u.acct)) (taBytes u / 16)
  (s, a && b && c && d && !s.badAt (.ls gid 0) u.lsz && g.accErr.isEmpty && g.taccErr.isEmpty)

/-- R161, R296: the entries of the group's binding are saved with it, and leave the core with the binding's last group. -/
def State.saveRennet (s : State) (gid : Nat) (g : Group) : State :=
  let b := (s.unitOf g).binding g.unit
  (s.modGroup gid fun x => { x with rennet := (s.core g.core).rennet.filter fun e => e.2.1 = b }).freeRennet g

/-- The saved entries come back; what the binding has filled on the core meanwhile stands first, within RNE (R161). -/
def State.loadRennet (s : State) (gid core : Nat) (g : Group) : State :=
  let u := s.unitOf g
  let mine := (s.core core).rennet.filter fun e => e.2.1 = u.binding g.unit
  let more := (g.rennet.filter fun e => !mine.any fun m => m.1 = e.1).take (s.rneOf u - mine.length)
  (s.modCore core fun c => { c with rennet := c.rennet ++ more }).modGroup gid fun x => { x with rennet := [] }

/-- The whole save of a group; a failing write resets the context (R363). `keep` is an attach of a draw's group (R389). -/
def State.saveGroup (s : State) (gid : Nat) (keep : Bool) : State :=
  match s.groups.get gid with
  | none => s
  | some g =>
    match s.saveParts keep (s.partsOf gid) with
    | (s, a) =>
      match (s.flushPrivate g.core (s.unitOf g).netClass).saveGroupImage g gid with
      | (s, b) =>
        let c := s.core g.core
        let s := s.modGroup gid fun x =>
          { x with state := if keep then .attached else .saved, sigz := if keep then x.sigz else sigJoin x.sigz (c.sig, c.z) }
        let s := if keep then s else s.saveRennet gid g
        if a && b then s else s.beginReset (s.unitOf g).ctl (s.unitOf g).ctx

/-- R296, R297: a group that may be saved whole: no draw's, not control mode's. -/
def State.savable (s : State) (g : Group) : Bool :=
  let u := s.unitOf g
  u.kindCode = 0 && !u.ctl && (g.state = .running || g.state = .stopping || g.state = .tiles) && !u.cancel

/-- A save begins: no part of the group issues again; it is made once everything that has issued is complete and the
reserve of its event ring holds its records (R394). -/
def State.preemptGroup (s : State) (gid : Nat) : State :=
  let stopping := s.stoppers.any fun p => match s.waves.get p.wave with | some w => w.group = gid | none => false
  let short := match s.groups.get gid with
    | some g => s.ringShort (s.unitOf g) g.core (s.partsOf gid).length
    | none => false
  if s.groupBusy gid || stopping || short then s.modGroup gid fun x => { x with state := .stopping } else s.saveGroup gid false

/-- A launch waits for a core where no core qualifies for its next group. -/
def State.waitsForCore (s : State) (id : Nat) (u : WorkUnit) : Bool :=
  s.wantsCore id u && !s.behind id u && (List.range 512).all fun k => (s.qualifies id u k (s.wavesDue id u)).isNone

/-- R296: groups of a lower priority that may be chosen for a launch that waits on a core: those that are not stopping. -/
def State.evictable (s : State) (u : WorkUnit) (g : Group) : Bool :=
  s.savable g && g.state != .stopping && (s.unitOf g).prio < u.prio

/-- R296: whether a group's core would take the next group of a launch once the groups that may be chosen there, and those
that are stopping, are gone. -/
def State.helps (s : State) (id : Nat) (u : WorkUnit) (core : Nat) : Bool :=
  s.couldHave id u core fun _ g => g.state = .stopping || s.evictable u g

/-- R296: the launch of higher priority, if any, for which a group is the next to be saved. No core takes its next group even
when the groups that are stopping have gone, so one core gives up its groups, the lowest priority first and the youngest
first: the core that has begun to for this launch, or else that of the first such group of the device. -/
def State.presser (s : State) (gid : Nat) (g : Group) : Option (Nat × WorkUnit) :=
  s.units.find? fun x =>
    let gone := fun (_ : Nat) (h : Group) => h.state == .stopping
    !x.2.ctl && s.evictable x.2 g && s.waitsForCore x.1 x.2 && s.helps x.1 x.2 g.core &&
    !(List.range 512).any (fun k => s.couldHave x.1 x.2 k gone) &&
    (let here := fun (k : Nat) => match x.2.giving with
       | some c => k = c || !s.helps x.1 x.2 c
       | none => true
     here g.core && s.groups.all fun h =>
       h.1 = gid || !s.evictable x.2 h.2 || !here h.2.core || !s.helps x.1 x.2 h.2.core ||
       (s.unitOf g).prio < (s.unitOf h.2).prio || ((s.unitOf h.2).prio = (s.unitOf g).prio && h.1 < gid))

/-- R389: a draw's group whose frame an attach is still to write, now that what it has issued is complete. -/
def State.attachDue (s : State) (gid : Nat) (g : Group) : Bool :=
  g.heldGo && g.state = .running && (s.unitOf g).kindCode != 0 && (s.core g.core).freeze.attached && !s.groupBusy gid &&
  !s.stoppers.any fun p => match s.waves.get p.wave with | some w => w.group = gid | none => false

/-- PREEMPT: a group of lower priority is saved whole (R296). A group that has begun to stop goes on, and so does an attach
(R389). -/
def stepPreempt (group : Nat) (s : State) : Host.Outcome State Fault Refusal :=
  .next <|
    match s.groups.get group with
    | none => s
    | some g =>
      if s.attachDue group g then s.saveGroup group true
      else if !s.savable g then s
      else if g.state = .stopping || (!(s.unitOf g).ctl && (s.ctx (s.unitOf g).ctx).halted) then s.preemptGroup group
      else
        match s.presser group g with
        | some x => (s.modUnit x.1 fun v => { v with giving := some g.core }).preemptGroup group
        | none => s

/-! ### Restoring (R295, R296, R371) -/

/-- The stall reason that a part reports for what holds it (R382). -/
def Hold.reason : Hold → Nat
  | .no => 0
  | .retry => 0
  | .lineMask => 1
  | .refetch => 7
  | .spill _ => 11
  | .width _ => 10
  | .nap => 30
  | .joined => 9
  | .instr i =>
    match i with
    | .knit _ => 9
    | .sleep _ => 30
    | .monw _ => 15
    | .ccwait _ => 15
    | .macq _ => 16
    | .mwait x => if x.mod.getLsbD 0 then 18 else 17
    | .tileq _ => 13
    | .qpop _ => 13
    | .qpush _ => 14
    | .bwait _ => 12
    | .gbar _ => 12
    | .xshuf _ => 12
    | .rosb _ => 29
    | _ => 2

/-- A part is restored in a slot; a failure resets the context (R371). A wait that the save interrupted goes on, and a
repeat's body is pinned again (R270). -/
def State.restorePart (s : State) (o : Who) (slot : Nat) : State :=
  match s.loadPart o with
  | (s, false) => s.beginReset o.u.ctl o.u.ctx
  | (s, true) =>
    let s := s.modPart o.pr fun p =>
      { dropRepeat p with status := .resident, slot := slot, front := false, line := none, kept := none,
                            stall := if p.hold = .joined then p.stall else p.hold.reason, waited := 0, inSet := 0, queued := 0 }
    let s := s.pinAgain o.pr
    let s := if o.p.hold = .no then s.settlePart o.pr else s
    s.decide o 3 1 o.pr.part o.p.pc.toNat o.p.quads.toNat 0

/-- PART_RESTORE: a released part takes a slot of the scheduler it left, within quota (R295, R339, R377). -/
def stepPartRestore (p : PartRef) (s : State) : Host.Outcome State Fault Refusal :=
  .next <|
    match s.who p with
    | none => s
    | some o =>
      if o.p.status != .ready || o.g.state != .running || o.u.cancel then s
      else
        match s.freeSlot o.u o.g.unit o.g.core o.w.sched with
        | some k => if s.ringShort o.u o.g.core 1 then s else s.restorePart o k
        | none => s

/-- The local store and the tiles of a group, from its image. -/
def State.loadGroupImage (s : State) (g : Group) (gid : Nat) : State × Bool :=
  let u := s.unitOf g
  let lsAt := 8192 + u.nwaves * waveFrame u
  match s.devRead u.asid (groupAddr u g.g + BitVec.ofNat 64 lsAt) (u.lsz / 16) with
  | (s, .ok d) =>
    let s := s.setBytes (.ls gid 0) d
    match s.devRead u.asid (groupAddr u g.g + BitVec.ofNat 64 (lsAt + u.lsz)) (256 * u.acct) with
    | (s, .ok t) => (s.modGroup gid fun x => { x with acc := (bytesWords t).zipIdx.map fun e => (e.2, e.1) }, true)
    | (s, _) => (s, false)
  | (s, _) => (s, false)

/-- Parts saved with their group: each takes a slot, or waits for one with stall reason 25 (R295). -/
def State.restoreParts (s : State) : List PartRef → State
  | [] => s
  | p :: r =>
    match s.who p with
    | none => s.restoreParts r
    | some o =>
      if o.p.status = .withGroup then
        match s.freeSlot o.u o.g.unit o.g.core o.w.sched with
        | some k => (s.restorePart o k).restoreParts r
        | none => (s.modPart p fun x => { x with status := .ready, stall := 25 }).restoreParts r
      else s.restoreParts r

/-- GROUP_RESTORE: a saved group is restored on a qualifying core, when no launch of higher priority waits (R296). -/
def stepGroupRestore (group core : Nat) (s : State) : Host.Outcome State Fault Refusal :=
  .next <|
    match s.groups.get group with
    | none => s
    | some g =>
      let u := s.unitOf g
      -- a launch that its own quotas alone keep from every core waits for no resource
      let higher := s.units.any fun x => !x.2.ctl && u.prio < x.2.prio && s.waitsForCore x.1 x.2 &&
        (List.range 512).any fun k => s.inQuota x.1 x.2 k (s.wavesDue x.1 x.2)
      if g.state != .saved || g.heldGo || u.cancel || (s.ctx u.ctx).halted || (s.ctx u.ctx).resets || higher || s.promised u core ||
          s.ringShort u core (s.partsOf group).length then s
      else
        match s.qualifies g.unit u core (g.liveWaves u) with
        | none => s
        | some l =>
          let s := if core = g.core then s else s.cleanCore core
          let s := s.modGroup group fun x =>
            { x with core := core, state := if g.begun then .running else .tiles, scheds := l, sigz := (0, 0) }
          -- the core's later releases cover what the group has written on the cores that it has left (R220)
          let s := s.modCore core fun c => { c with sig := c.sig ||| g.sigz.1, z := tmax c.z (s.sane g.sigz.2) }
          let s := (s.loadRennet group core g).modUnit g.unit fun x => { x with giving := none }
          let s := (g.waves.zip l).foldl (fun s e => s.modWave e.1 fun w => { w with sched := e.2 }) s
          match s.loadGroupImage { g with core := core } group with
          | (s, true) => s.restoreParts (s.partsOf group)
          | (s, false) => s.beginReset u.ctl u.ctx

/-! ### Swaps (R292, R293) -/

/-- Whether a part waits (R292): in an instruction, at a line's mask, in a spill, by YIELD, or with an instruction that
cannot issue for one of the reasons of R292. -/
def Part.waits (p : Part) : Bool :=
  p.last && p.idle ≤ 1 ||
  match p.hold with
  | .no => false
  | .refetch => false
  | .retry => p.stall = 1 || p.stall = 2 || (9 ≤ p.stall && p.stall ≤ 18) || p.stall = 25
  | _ => true

/-- R293: the waits that give the slot's place in the active set up. -/
def Part.yields (p : Part) : Bool :=
  p.stall = 2 || (12 ≤ p.stall && p.stall ≤ 18) || p.stall = 25 || p.stall = 30

/-- Whether a part is ready: resident, not waiting, and with nothing that its next instruction lacks. -/
def Part.isReady (p : Part) : Bool := p.status = .resident && !p.waits && p.hold != .retry

/-- The swap of two parts of a scheduler, recorded as kind 2 under the part that goes in. -/
def State.swapParts (s : State) (out inn : PartRef) : State :=
  let slotOf := fun (p : PartRef) => match s.who p with | some o => o.p.slot | none => 0
  let data := slotOf out + 256 * slotOf inn
  let s := s.modPart out fun p => { p with front := false, inSet := 0, queued := 0 }
  let s := s.modPart inn fun p => { p with front := true, inSet := 0, queued := 0 }
  match s.who inn with
  | some o => s.decide o 2 0 o.pr.part o.p.pc.toNat o.p.quads.toNat data
  | none => s

/-- R394: no swap while the reserve of a part's event ring is exhausted. -/
def State.swapAllowed (s : State) (p : PartRef) : Bool := !s.reserveOut p.wave

/-- The oldest part of a list: by its wave's age, then by slot (R294). -/
def State.oldest (s : State) (l : List (PartRef × Part)) : Option (PartRef × Part) :=
  leastBy (fun x => ((s.waves.get x.1.wave).map fun w => w.age).getD 0 * 64 + x.2.slot) l

/-- PART_SWAP: the oldest ready pending part replaces the active part that has waited longest; or it takes a free place
of the active set (R293). -/
def stepPartSwap (core sched : Nat) (s : State) : Host.Outcome State Fault Refusal :=
  .next <|
    let l := s.slotted core sched
    match s.oldest (l.filter fun x => !x.2.front && x.2.isReady) with
    | none => s
    | some inn =>
      if !s.swapAllowed inn.1 then s
      else if s.frontRoom core sched then s.modPart inn.1 fun p => { p with front := true, inSet := 0, queued := 0 }
      else
        match leastBy (fun x => 2 ^ 64 - x.2.waited) (l.filter fun x => x.2.front && !x.2.isReady && x.2.yields) with
        | some out => s.swapParts out.1 inn.1
        | none => s

/-- FORCED_SWAP: a pending part ready for 256 clk replaces the part that has been active longest, once in 4 clk. -/
def stepForcedSwap (core sched : Nat) (s : State) : Host.Outcome State Fault Refusal :=
  .next <|
    let l := s.slotted core sched
    if (s.core core).swapAt.getD sched 4 < 4 || 4 ≤ sched then s
    else
      match s.oldest (l.filter fun x => !x.2.front && x.2.isReady && 256 ≤ x.2.queued) with
      | none => s
      | some inn =>
        match leastBy (fun x => 2 ^ 64 - x.2.inSet) (l.filter fun x => x.2.front) with
        | some out =>
          if !s.swapAllowed inn.1 then s
          else (s.swapParts out.1 inn.1).modCore core fun c => { c with swapAt := c.swapAt.set sched 0 }
        | none => s

/-- DRAW_WATCHDOG: a draw that has run for its job's DRAWWD resets its context (R300). -/
def stepDrawWatchdog (unit : Nat) (s : State) : Host.Outcome State Fault Refusal :=
  .next <|
    match s.units.get unit with
    | none => s
    | some u =>
      match (s.unitAbove unit .job).bind s.units.get with
      | some j => if u.kind = .draw && j.n 0x20 * 1000 ≤ u.time then s.beginReset u.ctl u.ctx else s
      | none => s

/-! ### Context reset (R373, R374) -/

/-- Step 3: entries of fixed-order mode that belong to the context. -/
def State.resolveCtx (s : State) (n : Nat) : State :=
  let s := s.slices.foldl
    (fun s sl => (sl.2.fixed.filter fun e => e.2.ctx = n).foldl (fun s e => s.resolveFixed (.dev (32 * e.1))) s) s
  (s.link.fixed.filter fun e => e.2.ctx = n).foldl
    (fun s e => s.resolveFixed (.peer (e.1 / 2 ^ 34) (e.1 % 2 ^ 34 * 32))) s

/-- Step 4: the units of the context end with status 3, from the leaves upward. False where an end waits: for room for its
record (R341), or for the line of its block that the host holds (R352), which is recalled. -/
def State.failUnits (s : State) (n : Nat) : State × Bool :=
  let mine := fun (u : WorkUnit) => !u.ctl && u.ctx = n
  let order := [UnitKind.launch, .draw, .graph, .phase, .job]
  let r := order.foldl (fun (a : State × Bool) k =>
    ((a.1.units.filter fun x => mine x.2 && x.2.kind = k && !x.2.state.isEnd).map fun x => x.1).foldl (fun (a : State × Bool) id =>
      match a.2, a.1.units.get id with
      | true, some u =>
        if a.1.endStuck u.asid (a.1.ccOf u) then (a.1, false)
        else
          match a.1.hostLine u.asid .write (a.1.ccOf u) with
          | some line => (a.1.snoopLine1 line, false)
          | none => ({ (a.1.writeEnd u.asid (a.1.ccOf u) 3 0 u.lix) with
                       units := a.1.units.upd id fun x => { x with state := .ended 3 } }, true)
      | _, _ => a) a) (s, true)
  if r.2 then ({ r.1 with units := r.1.units.filter fun x => !mine x.2 }, true) else r

/-- CONTEXT_RESET: everything issued is complete; the units end, their resources are freed, and RESET_END closes the
reset (R373, R374). An end that waits is made at a later event; a record that meets an error begins the reset anew. -/
def stepContextReset (ctx : Nat) (s : State) : Host.Outcome State Fault Refusal :=
  .next <|
    let mine := fun (g : Group) => !(s.unitOf g).ctl && (s.unitOf g).ctx = ctx
    let gs := s.groups.filter fun g => mine g.2
    if !(s.ctx ctx).resets || gs.any (fun g => s.groupBusy g.1) || !s.trapRoom 0 ctx then s
    else
      let s := gs.foldl (fun s g => (s.dropWaves g.1).freeGroup g.1) s
      match (s.resolveCtx ctx).failUnits ctx with
      | (s, false) => s
      | (s, true) =>
        let s := { s with slices := s.slices.map fun (sl : Nat × Slice) => (sl.1, { sl.2 with keep := sl.2.keep.filter fun e => e.2 != ctx }) }
        let s := s.modCtx ctx fun c => { c with resets := false, handle := 1 }
        let (s, id) := s.nextSerial
        let (s, q) := s.nextSeq 0
        let rec' := leBytes 4 0 ++ leBytes 4 id.toNat ++ leBytes 16 0 ++ leBytes 4 0xFFFFFFFF ++ leBytes 4 0 ++ leBytes 4 0 ++
          leBytes 4 (ctx * 65536) ++ leBytes 6 s.time.toNat ++ leBytes 2 q ++ leBytes 80 0
        match s.putTrap 0 ctx rec' with
        | (s, .bad) => s.beginReset false ctx
        | (s, _) => s.platformAll 3 ctx 0

end Sys2Proof.Machine
end

