-- ==== Sys2Proof/Machine/Control.lean ====
section
/-! DEFINITION. Control space (R180): the registers of R326, R344, R353 to R357, R366, R386, R388, R389, R398 and R414,
what reading and writing them does, and the events of those writes. -/

namespace Sys2Proof.Machine

open Sys2Proof

/-! ### What some writes do -/

/-- FLTDONE (R342): everything held on the record goes on; a part waits for its slot with stall reason 25 (R295). -/
def State.fltDone (s : State) (id : Word) : State :=
  if s.recs.any (fun r => r.id = id) then
    let free := fun (h : Option Word) => if h = some id then none else h
    { s with recs := s.recs.filter fun r => r.id != id,
             units := s.units.map fun u => (u.1, { u.2 with heldOn := free u.2.heldOn }),
             groups := s.groups.map fun g => (g.1, { g.2 with heldOn := free g.2.heldOn }),
             ctxs := s.ctxs.map fun c => (c.1, { c.2 with heldOn := free c.2.heldOn }),
             waves := s.waves.map fun w => (w.1, { w.2 with parts := w.2.parts.map fun p =>
               if p.2.status = (Status.faulted id) then (p.1, { p.2 with status := .ready, stall := 25 }) else p }) }
  else s

/-- HPCTL (R343, R344): EN and LOG2N, and every core's count begins again. -/
def State.setHpctl (s : State) (v : Nat) : State :=
  if 8 ≤ field v 4 0 && field v 4 0 ≤ 20 then
    { s with trans := { s.trans with hpen := nbit v 31, hplog := field v 4 0 },
             cores := s.cores.map fun c => (c.1, { c.2 with looks := 0 }) }
  else s

/-- QBKT (R326, R327): EN 0 acts at once and releases what is held; the rest acts at the next window. -/
def State.setBucket (s : State) (port cls v : Nat) : State :=
  if 82 < port || 3 < cls then s
  else
    let s := s.modBucket (bucketKey port cls) fun b =>
      let b := { b with nextB := min (field v 26 16) 1024, nextL := min (field v 10 0) 1024, nextEn := nbit v 31 }
      if nbit v 31 then b else { b with en := false }
    if nbit v 31 then s else s.injectHeld (bucketKey port cls) (s.bucket (bucketKey port cls)).held.length

/-- Words of a breakpoint as its access allows (R386). -/
def Breakpoint.setWord (b : Breakpoint) (j : Nat) (v : Word) : Breakpoint :=
  match j with
  | 0 => { b with pclo := v }
  | 1 => { b with pchi := v &&& 0x01FFFFFF }
  | 2 => { b with ctl := v }
  | _ => { b with hits := v }

/-- R386: word j of breakpoint n of one core. -/
def State.setBreak (s : State) (core n j : Nat) (v : Word) : State :=
  s.modCore core fun c => { c with bp := match c.bp[n]? with | some b => c.bp.set n (b.setWord j v) | none => c.bp }

/-- R386: the same on every core. -/
def State.setBreakAll (s : State) (n j : Nat) (v : Word) : State :=
  (List.range 512).foldl (fun s k => s.setBreak k n j v) s

/-- R357: COLLSTAT. -/
def State.collStat (s : State) (v : Word) : State := { s with link := { s.link with collstat := v } }

def State.collAt (s : State) (g : Nat) : Coll := (s.link.coll.get g).getD Coll.reset
def State.modColl (s : State) (g : Nat) (f : Coll → Coll) : State :=
  { s with link := { s.link with coll := s.link.coll.put g (f (s.collAt g)) } }

/-- R357: why an open is refused as BAD. -/
def State.collBad (s : State) (c : Coll) : Bool :=
  c.wbase.toNat % 65536 != 0 || c.wsize.toNat % 65536 != 0 || 2 ^ 39 < c.wbase.toNat + c.wsize.toNat ||
  c.members = 0 || (c.members &&& ~~~ s.link.present) != 0 || !s.ctxValid c.ctx.toNat

/-- COLLCMD op 0 (R357). -/
def State.openColl (s : State) (g : Nat) : State :=
  let c := s.collAt g
  if c.drain != 0 then s.collStat 1
  else if c.isOpen then s.collStat 0
  else if s.collBad c then s.collStat 2
  else (s.modColl g fun c => { c with isOpen := true }).collStat 0

/-- COLLCMD op 1. -/
def State.closeColl (s : State) (g : Nat) : State := (s.modColl g fun c => { c with isOpen := false }).collStat 0

/-! ### Freezes (R389) -/

/-- Groups of the frozen context on a core. -/
def State.frozenGroups (s : State) (core : Nat) : List Nat :=
  ((s.groupsOn core).filter fun g => !(s.unitOf g.2).ctl && (s.unitOf g.2).ctx = (s.core core).freeze.ctx).map fun g => g.1

/-- ATTACH: compute groups are pre-empted until HALT.GO; a draw's group has its frame written where it stands, once what it
has issued is complete. -/
def State.attachCore (s : State) (core : Nat) : State :=
  if !(s.core core).freeze.frozen then s
  else
    let s := s.modCore core fun c => { c with freeze := { c.freeze with attached := true } }
    (s.frozenGroups core).foldl (fun s gid =>
      match s.groups.get gid with
      | none => s
      | some g =>
        if s.savable g then (s.modGroup gid fun x => { x with heldGo := true }).preemptGroup gid
        else if (s.unitOf g).kindCode = 0 then s
        else if !g.begun then
          let u := s.unitOf g
          match s.saveGroupImage g gid with
          | (s, true) => s
          | (s, false) => s.beginReset u.ctl u.ctx
        else
          let s := s.modGroup gid fun x => { x with heldGo := true }
          if s.attachDue gid { g with heldGo := true } then s.saveGroup gid true else s) s

/-- Parts of a draw's group are reloaded in place, and a repeat's body is pinned again (R270). -/
def State.reloadParts (s : State) : List PartRef → State
  | [] => s
  | p :: r =>
    match s.who p with
    | none => s.reloadParts r
    | some o =>
      if o.p.status = .resident then
        match s.loadPart o with
        | (s, true) => ((s.modPart p fun x => { x with line := none, kept := none }).pinAgain p).reloadParts r
        | (s, false) => (s.beginReset o.u.ctl o.u.ctx).reloadParts r
      else s.reloadParts r

/-- The end of a freeze: attached groups are reloaded, and the frozen parts issue again. -/
def State.releaseCore (s : State) (core : Nat) : State :=
  if !(s.core core).freeze.frozen then s
  else
    let s := (s.frozenGroups core).foldl (fun s gid =>
      match s.groups.get gid with
      | some g =>
        if g.state = .attached then
          (s.modGroup gid fun x => { x with state := .running, heldGo := false }).reloadParts (s.partsOf gid)
        else if (s.unitOf g).kindCode != 0 then s.modGroup gid fun x => { x with heldGo := false }
        else s
      | none => s) s
    s.modCore core fun c => { c with freeze := Freeze.reset }

/-! ### Reading and writing -/

/-- Whether an offset belongs to a register of 8 bytes. -/
def ctrlWide (a : Nat) : Bool :=
  a / 8 * 8 = 0x500000 || a / 8 * 8 = 0x500018 || a / 8 * 8 = 0x510000 || a / 8 * 8 = 0x520000 || a / 8 * 8 = 0x600000 ||
  (0x600020 ≤ a && a < 0x600040) || (0x601000 ≤ a && a < 0x601400) || (0x700000 ≤ a && a < 0x740000 && 16 ≤ a % 64)

/-- Base and size of the register at an offset. -/
def ctrlReg (a : Nat) : Nat × Nat := if ctrlWide a then (a / 8 * 8, 8) else (a / 4 * 4, 4)

/-- Whether the manual gives a register, or a reserved place beside one, at an offset (log entry 11). -/
def ctrlKnown (a : Nat) : Bool :=
  (0x400000 ≤ a && a < 0x401000) || (0x500000 ≤ a && a < 0x50002C) || (0x510000 ≤ a && a < 0x510008) ||
  (0x520000 ≤ a && a < 0x520008) || (0x538000 ≤ a && a < 0x538020) || (0x540000 ≤ a && a < 0x541004) ||
  (0x542000 ≤ a && a < 0x542080) || (0x600000 ≤ a && a < 0x600048) || (0x600100 ≤ a && a < 0x600190) ||
  (0x601000 ≤ a && a < 0x601400) || (0x700000 ≤ a && a < 0x740000) || (0x800000 ≤ a && a < 0x880000)

/-- Fields of a collective entry at an offset within it (R357). -/
def Coll.read (c : Coll) (o : Nat) : Nat :=
  if o = 0 then (if c.isOpen then 1 else 0) else if o = 4 then c.drain.toNat else if o = 8 then c.ctx.toNat
  else if o = 12 then c.tenant.toNat else if o = 16 then c.wbase.toNat else if o = 24 then c.wsize.toNat
  else c.members.toNat / 2 ^ (8 * (o - 32)) % 2 ^ 64

/-- Bits `lo` upward of a map replaced by 64 bits. -/
def setBits64 (m : BitVec 256) (lo v : Nat) : BitVec 256 :=
  (m &&& ~~~ (BitVec.ofNat 256 ((2 ^ 64 - 1) * 2 ^ lo))) ||| BitVec.ofNat 256 (v % 2 ^ 64 * 2 ^ lo)

def Coll.write (c : Coll) (o v : Nat) : Coll :=
  if c.isOpen then c
  else if o = 8 then { c with ctx := BitVec.ofNat 10 v } else if o = 12 then { c with tenant := BitVec.ofNat 16 v }
  else if o = 16 then { c with wbase := BitVec.ofNat 64 v } else if o = 24 then { c with wsize := BitVec.ofNat 64 v }
  else if 32 ≤ o then { c with members := setBits64 c.members (8 * (o - 32)) v }
  else c

/-- The value of the register at a base. -/
def State.ctrlValue (s : State) (a : Nat) : Nat :=
  let t := s.trans
  let l := s.link
  if 0x400000 ≤ a && a < 0x401000 then
    let p := (a - 0x400000) / 32
    let c := a % 32 / 8
    let b := s.bucket (bucketKey p c)
    if 82 < p then 0
    else if a % 8 = 0 then (if b.nextEn then 2 ^ 31 else 0) + b.nextB * 65536 + b.nextL
    else b.waitw.toNat * 65536 + b.cred
  else if a = 0x500000 then t.trtab
  else if a = 0x500010 then (if t.hpen then 2 ^ 31 else 0) + t.hplog
  else if a = 0x500018 then t.hpbase + t.rlog
  else if a = 0x500020 then t.hptail.toNat
  else if a = 0x500024 then t.hphead.toNat
  else if a = 0x500028 then t.hpdrop.toNat
  else if a = 0x510000 then s.tables.tqtab
  else if a = 0x520000 then s.tables.lgtab
  else if 0x538000 ≤ a && a < 0x538020 then
    let d := s.die ((a - 0x538000) / 8)
    if a % 8 = 0 then d.tail.toNat else d.drop.toNat
  else if 0x540000 ≤ a && a < 0x541000 then
    let f := (s.core ((a - 0x540000) / 8)).freeze
    if a % 8 = 0 then (if f.frozen then f.ctx * 65536 + 1 else 0) else 0
  else if a = 0x541000 then s.tables.frzlim.toNat
  else if a = 0x600000 then s.tables.cxtab
  else if a = 0x600008 then l.devid.toNat
  else if a = 0x600010 then l.flto
  else if a = 0x600018 then l.hostcls.toNat
  else if 0x600020 ≤ a && a < 0x600040 then l.present.toNat / 2 ^ (8 * (a - 0x600020)) % 2 ^ 64
  else if a = 0x600044 then l.collstat.toNat
  else if 0x600100 ≤ a && a < 0x600190 then (if a % 8 = 0 then ((l.porterr.get ((a - 0x600100) / 8)).getD 0).toNat else 0)
  else if 0x601000 ≤ a && a < 0x601400 then
    let w := (l.windows.get ((a - 0x601000) / 16)).getD (0, 0)
    if a % 16 = 0 then w.1.toNat else w.2.toNat
  else if 0x700000 ≤ a && a < 0x740000 then (s.collAt ((a - 0x700000) / 64)).read (a % 64)
  else if 0x800000 ≤ a && a < 0x880000 then
    let r := ((s.die ((a - 0x800000) / 0x20000)).recs.get ((a - 0x800000) % 0x20000 / 32)).getD []
    leNat ((r.drop (a % 32)).take 4)
  else 0

/-- The register at a base takes a value, as its access allows (R7). -/
def State.ctrlPut (s : State) (a v : Nat) : State :=
  let link := fun (f : LinkRegs → LinkRegs) => { s with link := f s.link }
  let trans := fun (f : TransRegs → TransRegs) => { s with trans := f s.trans }
  let low := field v 31 0
  if 0x400000 ≤ a && a < 0x401000 then
    let p := (a - 0x400000) / 32
    let c := a % 32 / 8
    if 82 < p then s
    else if a % 8 = 0 then s.setBucket p c low
    else s.modBucket (bucketKey p c) fun b => { b with waitw := BitVec.ofNat 16 (low / 65536) }
  else if a = 0x500000 then (if field v 51 50 != 0 then s else trans fun t => { t with trtab := field v 51 14 * 2 ^ 14 })
  else if a = 0x500008 then s.fltDone (BitVec.ofNat 32 low)
  else if a = 0x500010 then s.setHpctl low
  else if a = 0x500018 then
    if 6 ≤ field v 4 0 && field v 4 0 ≤ 16 then
      trans fun t => { t with hpbase := field v 51 12 * 4096, rlog := field v 4 0 }
    else s
  else if a = 0x500024 then trans fun t => { t with hphead := BitVec.ofNat 32 low }
  else if a = 0x500028 then trans fun t => { t with hpdrop := BitVec.ofNat 32 low }
  else if a = 0x510000 then
    if field v 51 50 != 0 then s else { s with tables := { s.tables with tqtab := field v 51 14 * 2 ^ 14 } }
  else if a = 0x520000 then
    if field v 51 50 != 0 then s else { s with tables := { s.tables with lgtab := field v 51 14 * 2 ^ 14 } }
  else if 0x540000 ≤ a && a < 0x541000 then
    let k := (a - 0x540000) / 8
    if a % 8 != 0 then s else if nbit low 1 then s.attachCore k else if nbit low 2 then s.releaseCore k else s
  else if a = 0x541000 then
    if 1 ≤ low && low ≤ 60000 then { s with tables := { s.tables with frzlim := BitVec.ofNat 32 low } } else s
  else if 0x542000 ≤ a && a < 0x542080 then s.setBreakAll ((a - 0x542000) / 16) (a % 16 / 4) (BitVec.ofNat 32 low)
  else if a = 0x600000 then { s with tables := { s.tables with cxtab := field v 51 12 * 4096 } }
  else if a = 0x600008 then link fun l => { l with devid := BitVec.ofNat 8 low }
  else if a = 0x600010 then
    if 8 ≤ field v 19 0 && field v 19 0 ≤ 1000000 then link fun l => { l with flto := field v 19 0 } else s
  else if a = 0x600018 then link fun l => { l with hostcls := BitVec.ofNat 2 low }
  else if 0x600020 ≤ a && a < 0x600040 then link fun l => { l with present := setBits64 l.present (8 * (a - 0x600020)) v }
  else if a = 0x600040 then
    match field low 13 12 with
    | 0 => s.openColl (field low 11 0)
    | 1 => s.closeColl (field low 11 0)
    | _ => s
  else if 0x600100 ≤ a && a < 0x600190 then
    if a % 8 = 0 then link fun l => { l with porterr := l.porterr.put ((a - 0x600100) / 8) (BitVec.ofNat 32 low) } else s
  else if 0x601000 ≤ a && a < 0x601400 then
    let k := (a - 0x601000) / 16
    link fun l =>
      let w := (l.windows.get k).getD (0, 0)
      let w := if a % 16 = 0 then (BitVec.ofNat 64 v &&& 0x8000FFFF007FFFFF, w.2) else (w.1, BitVec.ofNat 64 v &&& 0x7FFFFF)
      { l with windows := l.windows.put k w }
  else if 0x700000 ≤ a && a < 0x740000 then s.modColl ((a - 0x700000) / 64) fun c => c.write (a % 64) v
  else s

/-- Bytes of control space. A place that the manual does not assign reads a free value. -/
def State.ctrlRead (s : State) (a n : Nat) : State × List Byte :=
  let s := s.tick
  (s, (List.range n).map fun i =>
    let r := ctrlReg (a + i)
    if ctrlKnown (a + i) then BitVec.ofNat 8 (s.ctrlValue r.1 / 256 ^ (a + i - r.1)) else Config.freeByte s.ctr (a + i))

/-- The registers that a run of bytes touches. -/
def ctrlBases (a n : Nat) : List (Nat × Nat) := dedup ((List.range n).map fun i => ctrlReg (a + i))

/-- Bytes written to control space: each register touched takes its value with those bytes replaced. -/
def State.ctrlWrite (s : State) (a : Nat) (d : List Byte) : State :=
  (ctrlBases a d.length).foldl (fun s r =>
    let old := leBytes r.2 (s.ctrlValue r.1)
    let new := (List.range r.2).map fun i =>
      if a ≤ r.1 + i && r.1 + i < a + d.length then d.getD (r.1 + i - a) 0 else old.getD i 0
    s.ctrlPut r.1 (leNat new)) s

/-! ### The events of those writes -/

/-- FLTDONE_WRITE (R342). -/
def stepFltdoneWrite (id : BitVec 32) (s : State) : Host.Outcome State Fault Refusal := .next (s.fltDone id)

/-- HPCTL_WRITE (R343). -/
def stepHpctlWrite (value : BitVec 32) (s : State) : Host.Outcome State Fault Refusal := .next (s.setHpctl value.toNat)

/-- QBKT_WRITE (R327). -/
def stepQbktWrite (port cls : Nat) (value : BitVec 32) (s : State) : Host.Outcome State Fault Refusal :=
  .next (s.setBucket port cls value.toNat)

/-- BP_BROADCAST_WRITE (R386). -/
def stepBpBroadcastWrite (n j : Nat) (value : BitVec 32) (s : State) : Host.Outcome State Fault Refusal :=
  .next (if n < 8 && j < 4 then s.setBreakAll n j value else s)

/-- COLL_OPEN (R357). -/
def stepCollOpen (g : Nat) (s : State) : Host.Outcome State Fault Refusal := .next (if g < 4096 then s.openColl g else s)

/-- COLL_CLOSE (R357). -/
def stepCollClose (g : Nat) (s : State) : Host.Outcome State Fault Refusal := .next (if g < 4096 then s.closeColl g else s)

/-- FREEZE_ATTACH (R389). -/
def stepFreezeAttach (core : Nat) (s : State) : Host.Outcome State Fault Refusal := .next (s.attachCore core)

/-- FREEZE_RELEASE (R389). -/
def stepFreezeRelease (core : Nat) (s : State) : Host.Outcome State Fault Refusal := .next (s.releaseCore core)

/-- FREEZE_LIMIT_EXPIRY: FRZLIM ms have passed (R389). -/
def stepFreezeLimitExpiry (core : Nat) (s : State) : Host.Outcome State Fault Refusal :=
  .next <|
    if (s.core core).freeze.frozen && s.tables.frzlim.toNat * 1000000 ≤ (s.core core).freeze.since then s.releaseCore core
    else s

/-- REGISTER_WRITE: the host writes a register of control space through BAR0 (R351, R7). -/
def stepRegisterWrite (off : Nat) (value : BitVec 64) (s : State) : Host.Outcome State Fault Refusal :=
  .next (if s.ioWaits then s else s.ioAsk.ctrlWrite (ctrlReg off).1 (leBytes (ctrlReg off).2 value.toNat))

end Sys2Proof.Machine
end

