-- ==== Sys2Proof/Machine/Perform.lean ====
section
/-! DEFINITION. Performing the accesses of operations: the order that R213 keeps, reads and writes of pieces at their
points (R182), keep marks (R189), the memory-ordering log (R393, R395), signatures (R195, R219, R220). -/

namespace Sys2Proof.Machine

open Sys2Proof

/-! ### Order (R213) -/

/-- Whether two pieces share a byte. -/
def overlap (p q : Piece) : Bool :=
  p.loc.at 0 == q.loc.at 0 && p.loc.off < q.loc.off + q.len && q.loc.off < p.loc.off + p.len

/-- R209, R213: whether two accesses meet in a piece of R209, an aligned unit of 8 bytes. -/
def meetsPiece (p q : Piece) : Bool :=
  p.loc.at 0 == q.loc.at 0 && p.loc.off / 8 ≤ (q.loc.off + q.len - 1) / 8 && q.loc.off / 8 ≤ (p.loc.off + p.len - 1) / 8

/-- An ATOMC whose release half may turn out to be a FENCE's (R232): `code` is 16 or 17. -/
def Op.mayFence (x : Op) : Bool := x.kind = .atom && 16 ≤ x.code && (x.ord = 2 || x.ord = 3)

/-- R213 items 1 and 3: no earlier access of the operation's program order on its path overlaps the pieces, and no
compare-and-swap that may act as a release fence is still to be performed; and the requests for the pieces have reached
their endpoints (R318). -/
def State.clearOf (s : State) (x : Op) (l : List Piece) : Bool :=
  (l.all fun p => !s.travels x.id p.loc) &&
  s.ops.all fun y => !x.prior.contains y.id || y.done || y.kind.path != x.kind.path ||
    ((y.opens.all fun q => l.all fun p => !meetsPiece p q) && !(y.mayFence && !y.opens.isEmpty))

/-- R192, R112: whether one request serves two pieces of an instruction. A global request is a sector; of the local store
and the weight store a store reaches a sector as one, and reads of the same bytes receive one value. -/
def together (write : Bool) (p q : Piece) : Bool :=
  p.loc.sector == q.loc.sector &&
    (write || overlap p q || (match p.loc with | .ls _ _ => false | .ws _ _ => false | _ => true))

/-- R213 item 3: before a release write, every earlier normal-path access is performed. -/
def State.releaseReady (s : State) (x : Op) : Bool :=
  s.ops.all fun y => !x.prior.contains y.id || y.kind.path != 0 || y.performed

/-! ### The memory-ordering log (R393, R395) -/

/-- A sector's run of accesses: part, formation DSEQ, 1 when the run follows reads of another part that no record marks,
and whether it has written. -/
abbrev RunState := Nat × Nat × Nat × Bool

/-- The next access: whether a record is due, and the run after it. -/
def runStep (old : Option RunState) (id born : Nat) (write : Bool) : Bool × RunState :=
  match old with
  | none => (false, (id, born, 0, write))
  | some (i, b, f, w) =>
    if i = id && b = born then
      if write && f = 1 then (true, (i, b, 0, true)) else (false, (i, b, f, w || write))
    else if w || write then (true, (id, born, 0, write))
    else (false, (id, born, 1, false))

/-- The part of an operation as the log names it. -/
def Op.partKey (x : Op) : Nat := x.wid * 16 + x.part

/-- Kind 14 of an access. -/
def chunkRec (x : Op) (addr : Nat) (write : Bool) : EvRec :=
  { kind := 14, code := if write then 1 else 0, wid := x.wid, part := x.part, pc := addr, dseq := x.born,
    qmask := x.all.toNat, data := x.aord }

/-- Where the run of a sector is kept and logged: the ring, its size, the run, and the source. -/
structure RunPlace where
  ring : Nat
  size : Nat
  old  : Option RunState
  due  : Bool
  new  : RunState

/-- The place of a piece's run, for a context in record or replay mode; none elsewhere. -/
def State.runPlace (s : State) (g : Group) (u : WorkUnit) (x : Op) (p : Piece) (write : Bool) : Option RunPlace :=
  if u.mode < 2 || u.mode = 4 then none
  else
    match p.loc with
    | .dev a =>
      if x.misc = 2 || x.misc = 4 then none
      else
        let k := homeSlice a
        let r := runStep ((s.slice k).runs.get (a / 32)) x.partKey x.born write
        some { ring := u.mring k, size := u.msize, old := (s.slice k).runs.get (a / 32), due := r.1, new := r.2 }
    | .ls gid a =>
      let key := gid * 8192 + a / 32
      let r := runStep ((s.core g.core).runs.get key) x.partKey x.born write
      some { ring := u.ering g.core, size := u.esize, old := (s.core g.core).runs.get key, due := r.1, new := r.2 }
    | _ => none

/-- Whether a record is the transition that an access begins: its sector, its part with the DSEQ at which it was formed,
and the part's access ordinal (R392, R393). -/
def beginsRun (x : Op) (p : Piece) (r : List Byte) : Bool :=
  recKind r = 14 && recWid r = x.wid && recPart r = x.part && recDseq r = x.born && recPc r = p.loc.off / 32 * 32 && leNat ((r.drop 28).take 4) = x.aord

/-- R395: a record of kind 14 that cannot be met: the part that it names is past that access, and has none of that ordinal
open. -/
def State.accessGone (s : State) (ctx : Nat) (r : List Byte) : Bool :=
  recKind r = 14 && s.waves.any fun w => w.2.parts.any fun p =>
    match s.who { wave := w.1, part := p.1 } with
    | some o =>
      o.u.ctx = ctx && o.wid = recWid r && p.1 = recPart r && p.2.born.toNat = recDseq r && recData r < p.2.ord.toNat &&
        !s.ops.any fun x => x.wid = recWid r && x.part = p.1 && x.born = recDseq r && x.aord = recData r && !x.done
    | none => false

/-- R395: a slice admits an access to a logged sector only in the order of its records: one that begins a logged run when
its record is the next; any other while no record that is still to come names it. A record that cannot be met holds nothing:
the access differs from it. That the reads of several parts leave no record, so that a replay holds a logged writer for one
of them alone, is DEDUCED of R393 (log entry 81). -/
def State.admits (s : State) (g : Group) (u : WorkUnit) (x : Op) (p : Piece) (write : Bool) : Bool :=
  if u.mode != 3 then true
  else
    match s.runPlace g u x p write with
    | none => true
    | some r =>
      if (s.ringHead r.ring r.size).any fun e => s.accessGone u.ctx e.2 then true
      else if r.due then
        match s.ringHead r.ring r.size with
        | none => true
        | some (_, rec') => beginsRun x p rec'
      else
        let h := s.natAt (.dev (r.ring + 4)) 4
        !(List.range (s.ringLeft r.ring r.size h)).any fun i =>
          beginsRun x p (s.bytesAt (.dev (r.ring + 64 + 32 * ((h + i) % 2 ^ 32 % r.size))) 32)

/-- The record that an operation reserved stands in a ring (R394). -/
def State.noteLogged (s : State) (id ring : Nat) : State := s.modOp id fun y => { y with logs := ring :: y.logs }

/-- The run goes on; record mode writes what is due, replay consumes it, or ends where it differs. -/
def State.noteRun (s : State) (g : Group) (u : WorkUnit) (x : Op) (p : Piece) (write : Bool) : State :=
  match s.runPlace g u x p write with
  | none => s
  | some r =>
    let s := match p.loc with
      | .dev a => s.modSlice (homeSlice a) fun sl => { sl with runs := sl.runs.put (a / 32) r.new }
      | .ls gid a => s.modCore g.core fun c => { c with runs := c.runs.put (gid * 8192 + a / 32) r.new }
      | _ => s
    if u.mode = 3 then
      match s.ringHead r.ring r.size with
      | some (h, b) =>
        if s.accessGone u.ctx b then s.diverge u g.core b
        else if r.due then s.setNat (.dev (r.ring + 4)) 4 h
        else s
      | none => s
    else if !r.due then s
    else
      match p.loc with
      | .dev a =>
        let k := homeSlice a
        let q := (s.slice k).seq.toNat
        ((s.ringPut none r.ring r.size (evBytes s.time.toNat q (512 + k) (chunkRec x (a / 32 * 32) write))).modSlice k
          fun sl => { sl with seq := sl.seq + 1 }).noteLogged x.id k
      | _ =>
        let (s, q) := s.nextSeq g.core
        (s.ringPut (some (clusterOf g.core)) r.ring r.size
          (evBytes s.time.toNat q g.core (chunkRec x (p.loc.off / 32 * 32) write))).noteLogged x.id 128

/-! ### Keep marks (R189) -/

/-- A line with EVICT 5 takes the context's mark where its set holds fewer than 8; EVICT 0 of that context clears it. -/
def State.noteKeep (s : State) (ctx a hint : Nat) : State :=
  let line := a / 128
  let marks := (s.slice (homeSlice a)).keep
  if hint = 5 then
    if (marks.get line).isSome || (marks.filter fun e => Config.l2Set e.1 = Config.l2Set line).length < 8 then
      s.modSlice (homeSlice a) fun sl => { sl with keep := sl.keep.put line ctx }
    else s
  else if hint = 0 && marks.get line = some ctx then
    s.modSlice (homeSlice a) fun sl => { sl with keep := Tbl.del sl.keep line }
  else s

/-- The hint of an access to a piece. -/
def State.noteHint (s : State) (ctx hint : Nat) (p : Piece) : State :=
  match p.loc with
  | .dev a => s.noteKeep ctx a hint
  | _ => s

/-! ### Reading and writing pieces (R182) -/

/-- What a read of a piece gives: bytes, an error flag for each 4 bytes, and what it receives (R220). -/
structure ReadOut where
  data : List Byte
  errs : List Word
  sig  : Sig × Time

/-- Error flags of n bytes at a place. -/
def State.errsAt (s : State) (l : Loc) (n : Nat) : List Word :=
  (List.range ((n + 3) / 4)).map fun i => if s.badAt (l.add (4 * i)) (min 4 (n - 4 * i)) then 1 else 0

/-- R393: the modes in which every global access of the normal path is performed at its home slice: record and replay. -/
def logsAll (mode : Nat) : Bool := mode = 2 || mode = 3

/-- Whether an EVICT hint lets the L1 keep a sector (R189). -/
def l1Keeps (hint : Nat) : Bool := hint != 3 && hint != 4

/-- A read through the L1: its copy, or the home slice. -/
def State.readL1 (s : State) (core : Nat) (k : L1Kind) (hint a n : Nat) : State × ReadOut :=
  let errs := if ((s.core core).l1.get (l1Key k (a / 32))).isSome then [] else s.errsAt (.dev a) n
  match s.l1Read core k (l1Keeps hint) a n with
  | (s, d) => (s, { data := d, errs := errs, sig := (0, 0) })

/-- One piece of a load of space `space` at a scope. -/
def State.readPiece (s : State) (core : Nat) (mode space scope hint : Nat) (p : Piece) : State × ReadOut :=
  match p.loc with
  | .ctrl a =>
    match s.ctrlRead a p.len with
    | (s, d) => (s, { data := d, errs := [], sig := (0, 0) })
  | .dev a =>
    if space = 4 then s.readL1 core .const hint a p.len
    else if space = 2 then s.readL1 core .priv hint a p.len
    else if scope ≤ 1 && !logsAll mode then
      -- what it receives counts for a FENCE with an acquire half at a wider scope (R214)
      match s.readL1 core .global hint a p.len with
      | (t, d) => (t, { d with sig := s.sigAt a })
    else
      let sig := s.sigAt a
      let errs := s.errsAt p.loc p.len
      match s.readAt p.loc p.len with
      -- a copy that the L1 still holds does not fall behind what this part has read (R213 item 1, R215)
      | (s, d) => (s.l1Update core a d, { data := d, errs := errs, sig := sig })
  | .peer d a =>
    -- the signature that another device sends is not known here: one that names every sector (log entry 12)
    let errs := s.errsAt (.peer d a) p.len
    match s.readAt (.peer d a) p.len with
    | (s, b) => (s, { data := b, errs := errs, sig := (BitVec.allOnes 512, 0) })
  | .host a =>
    -- no home slice holds what a release into host memory carries: a signature that names every sector (log entry 12)
    (s, { data := s.bytesAt (.host a) p.len, errs := s.errsAt (.host a) p.len, sig := (BitVec.allOnes 512, 0) })
  | l => (s, { data := s.bytesAt l p.len, errs := s.errsAt l p.len, sig := (0, 0) })

/-- One piece of a store; `carry` for a release at cluster scope or wider. -/
def State.writePiece (s : State) (core space : Nat) (carry : Bool) (p : Piece) : State :=
  match p.loc with
  | .ctrl a => s.ctrlWrite a p.data
  | .dev a =>
    if space = 2 then s.privWrite core a p.data
    else
      let c := s.core core
      let s := if carry then s.carry a (c.sig, c.z) else s
      ((s.writeAt p.loc p.data).l1Update core a p.data).noteWrite core p.loc
  | l => (s.writeAt l p.data).noteWrite core l

/-! ### Operations as they go on -/

/-- The group and launch of an operation. -/
def State.opHome (s : State) (x : Op) : Option (Group × WorkUnit) :=
  (s.groups.get x.group).map fun g => (g, s.unitOf g)

/-- Indices of the pieces that an event performs: those named, or every open one. -/
def Op.pick (x : Op) (sel : List Nat) : List Nat :=
  (List.range x.pieces.length).filter fun i => (x.seen.get i).isNone && (sel = [] || sel.contains i)

/-- The open pieces that the named ones stand for: all that the same requests serve (R192). -/
def Op.pickAll (x : Op) (write : Bool) (sel : List Nat) : List Nat :=
  if sel = [] then x.pick []
  else
    let named := (x.pick sel).filterMap fun i => x.pieces[i]?
    (x.pick []).filter fun i => (x.pieces[i]?).any fun p => named.any (together write p)

/-- The pieces at some indices. -/
def Op.piecesAt (x : Op) (l : List Nat) : List Piece := l.filterMap fun i => x.pieces[i]?

/-- An operation of a kind that has not completed. -/
def State.liveOp (s : State) (id : Nat) (k : OpKind → Bool) : Option (Op × Group × WorkUnit) :=
  match s.op id with
  | none => none
  | some x => if x.done || !k x.kind then none else (s.opHome x).map fun h => (x, h.1, h.2)

/-- A completed operation leaves its counter. -/
def State.opDone (s : State) (id : Nat) : State := (s.modOp id fun x => { x with done := true }).settle

/-- What a relaxed read received waits for the next FENCE of the parts whose program order holds it (R195, R220); where
none is resident the core applies it. -/
def State.holdSigs (s : State) (core : Nat) (x : Op) (g : Sig × Time) : State :=
  let mine := fun (p : Part) => p.prior.contains x.id &&
    (match p.status with | .resident => true | .stopping _ _ => true | .parking _ => true | _ => false)
  let take := fun (p : Part) => if mine p then { p with sigs := joinSigs p.sigs (some g) } else p
  match s.waves.get x.wave with
  | some w =>
    if w.parts.any (fun p => mine p.2) then
      s.modWave x.wave fun w => { w with parts := w.parts.map fun p => (p.1, take p.2) }
    else s.applySig core g false
  | none => s.applySig core g false

/-- What the reads of a global access do with what they received: an acquire applies it (R220, R221), a relaxed read
holds it, and so does one at wave or group scope, for a FENCE at a wider scope (R214). The host sends no signature: every
global line goes. -/
def State.receive (s : State) (core : Nat) (x : Op) (acquire : Bool) (g : Sig × Time) : State :=
  if x.scope < 2 || !acquire then s.holdSigs core x g
  else
    if x.scope = 5 || x.pieces.any (fun p => match p.loc with | .host _ => true | _ => false) then
      (s.applySig core g false).applySystem core
    else s.applySig core g false

/-- Whether an operation's reads acquire. -/
def Op.acquires (x : Op) : Bool := x.ord = 1 || x.ord = 3
/-- Whether its writes release. -/
def Op.releases (x : Op) : Bool := x.ord = 2 || x.ord = 3

/-! ### The domain's fabric (R354) -/

/-- R354: the headers of the requests to other devices that some pieces stand for, as they leave the fabric ports; a
release carries its device's signature (R219, R221). -/
def State.tellFabric (s : State) (u : WorkUnit) (x : Op) (release : Bool) (l : List Piece) : State :=
  l.foldl (fun s p => match p.loc with
    | .peer d _ =>
      s.send (.fabric (Config.fabricPort d) s.link.devid.toNat (field (nth u.desc 1).toNat 15 0) (if u.ctl then 0 else u.ctx)
        (if u.ctl then 0 else field (nth u.desc 0).toNat 5 4) p.loc x.kind
        (match x.kind with
         | .atom => some x.code
         | .red => some x.code
         | .mred => some x.code
         | _ => none) x.id
        (if release then some s.allSigs.1 else none))
    | _ => s) s

/-! ### Registers -/

/-- A load's bytes as register words (R190). -/
def loadWords (code : Nat) (b : List Byte) : List Word :=
  let v := leNat b
  match code with
  | 1 => [BitVec.ofInt 32 (asInt true 8 v)]
  | 3 => [BitVec.ofInt 32 (asInt true 16 v)]
  | 6 => [BitVec.ofNat 32 ((unpack .f16 v).pack .f32 .rn)]
  | 7 => [BitVec.ofNat 32 ((unpack .bf16 v).pack .f32 .rn)]
  | 0 => [BitVec.ofNat 32 v]
  | 2 => [BitVec.ofNat 32 v]
  | _ => bytesWords b

/-- Register words as the bytes that a store writes (R190). -/
def storeBytes (code : Nat) (w : List Word) : List Byte :=
  match code with
  | 6 => leBytes 2 ((unpack .f32 (nth w 0).toNat).pack .f16 .rn)
  | 7 => leBytes 2 ((unpack .f32 (nth w 0).toNat).pack .bf16 .rn)
  | c => (wordsBytes w).take (sizeBytes c)

/-- What a lane of a load has: its bytes and their error flags, in order. -/
def laneData (x : Op) (lane : Nat) : List Byte × List Word :=
  (x.pieces.zipIdx.filter fun e => e.1.lane = lane).foldl (fun a e =>
    (a.1 ++ (x.seen.get e.2).getD [], a.2 ++ (List.range ((e.1.len + 3) / 4)).map fun i => nth ((x.acc.get e.2).getD []) i))
    ([], [])

/-- Lane data of every lane of a mask. -/
def lanesData (x : Op) (m : LaneMask) : Tbl (List Byte × List Word) := (maskBits m).map fun l => (l, laneData x l)

/-- The virtual address of a register of a lane. -/
def laneVa (x : Op) (lane i : Nat) : Dword :=
  match x.pieces.find? fun p => p.lane = lane && p.off ≤ 4 * i && 4 * i < p.off + max p.len 4 with
  | some p => p.va + BitVec.ofNat 64 (4 * i - p.off)
  | none => 0

/-- The device of the domain that a register's piece lies on. -/
def lanePeer (x : Op) (lane i : Nat) : Nat :=
  match x.pieces.find? fun p => p.lane = lane && p.off ≤ 4 * i && 4 * i < p.off + max p.len 4 with
  | some p => (match p.loc with | .peer d _ => d | _ => 0)
  | none => 0

/-- What a flag says of a loss (R355). -/
def lossOf (flag : Word) (peer : Nat) : Option (Nat × Bool) :=
  if flag.toNat < 2 then none else some (Config.fabricPort peer, flag = 3)

/-- R193, R194, R355: the registers of a load, zero where it met an error, which is held. -/
def Wave.landV (w : Wave) (x : Op) : Wave :=
  let l := lanesData x x.mask
  let flag := fun (lane i : Nat) => nth (((l.get lane).getD ([], [])).2) i
  let bad := fun (lane i : Nat) => flag lane i != 0
  let words := l.map fun e => (e.1, loadWords x.code e.2.1)
  let w := (List.range x.span).foldl (fun (w : Wave) i =>
    w.setV (x.dst.num.toNat + i) x.mask fun lane => if bad lane i then 0 else nth ((Tbl.get words lane).getD []) i) w
  { w with errs := w.errs ++ ((maskBits x.mask).flatMap fun lane =>
      ((List.range x.span).filter fun i => bad lane i).map fun i =>
        { cls := 0, num := x.dst.num.toNat + i, unit := lane, pc := x.pc, addr := laneVa x lane i,
          loss := lossOf (flag lane i) (lanePeer x lane i) }) }

/-- R198: the registers of an LDS, in every quad of the part. -/
def Wave.landS (w : Wave) (x : Op) : Wave :=
  let d := laneData x 0
  let words := loadWords x.code d.1
  let bad := fun (i : Nat) => nth d.2 i != 0
  let w := (List.range x.span).foldl (fun (w : Wave) i =>
    w.setS (x.dst.num.toNat + i) x.all (if bad i then 0 else nth words i)) w
  { w with errs := w.errs ++ ((maskBits x.all).flatMap fun q =>
      ((List.range x.span).filter fun i => bad i).map fun i =>
        { cls := 1, num := x.dst.num.toNat + i, unit := q, pc := x.pc, addr := laneVa x 0 i,
          loss := lossOf (nth d.2 i) (lanePeer x 0 i) }) }

/-- The destination registers of a load or atomic. -/
def State.land (s : State) (x : Op) : State :=
  s.modWave x.wave fun w => if x.dst.cls = .s then w.landS x else w.landV x

/-- The errors of an operation by themselves: the uncorrectable ones (R194), or the losses (R355). -/
def Op.flagged (x : Op) (p : Word → Bool) : Op :=
  { x with acc := x.acc.map fun e => (e.1, e.2.map fun f => if p f then f else 0) }

/-- R194, R233, R355: the lanes whose accesses met an error. -/
def errLanes (x : Op) : LaneMask :=
  maskOf 64 fun l => x.pieces.zipIdx.any fun e => e.1.lane = l && ((x.acc.get e.2).getD []).any fun f => f != 0

/-- The lowest address at which an access met an error, with its piece and its flag. -/
def errSpot (x : Op) : Option (Dword × Piece × Word) :=
  leastBy (fun e => e.1.toNat) (x.pieces.zipIdx.flatMap fun e =>
    (((x.acc.get e.2).getD []).zipIdx.filter fun f => f.1 != 0).map fun f => (e.1.va + BitVec.ofNat 64 (4 * f.2), e.1, f.1))

def errAddr (x : Op) : Dword := ((errSpot x).map fun e => e.1).getD 0

/-- A fault of an operation, pending on its counter or held for the wave (R168, R233, R355). -/
def opFault (x : Op) (code cause : Nat) (mask : LaneMask) (addr : Dword) (aux1 : Word) : Pending :=
  { quads := x.all, ctr := x.ctr, code := code, cause := cause, mask := mask, pc := x.pc, addr := addr, aux0 := 0,
    aux1 := aux1, merged := 0, barr := none, hand := none, op := x.id }

/-- The FABRIC_LOSS of an operation some of whose requests were lost (R355): the port is that of the lowest address. -/
def lossErr (x : Op) : Option Pending :=
  let y := x.flagged fun f => 2 ≤ f.toNat
  (errSpot y).map fun e =>
    opFault y codeLoss (if e.2.2 = 3 then 1 else 0) (errLanes y) e.1
      (BitVec.ofNat 32 (Config.fabricPort (match e.2.1.loc with | .peer d _ => d | _ => 0)))

/-- The faults of an operation without registers that met errors: MEM_DATA with cause 4 (R194, R233), and FABRIC_LOSS
(R355). -/
def opErrs (x : Op) : List Pending :=
  let y := x.flagged fun f => f = 1
  (if errLanes y = 0 then [] else [opFault y codeMemData 4 (errLanes y) (errAddr y) 0]) ++ (lossErr x).toList

/-- They become pending. -/
def State.pendErr (s : State) (x : Op) : State := (opErrs x).foldl (fun s f => s.pend x.wave f) s

end Sys2Proof.Machine
end

