-- ==== Sys2Proof/Machine/Mem.lean ====
section
/-! DEFINITION. The memory instructions 0x60 to 0x6B and their events (R178 to R204, R223, R224). -/

namespace Sys2Proof.Machine

open Sys2Proof

/-! ### Loads and stores (R197, R198) -/

/-- The request of a per-lane memory instruction. -/
def laneReq (x : MemOp) (write : Bool) (o : Who) : Request :=
  { space := x.space.toNat, kind := if write then .write else .read, write := write, n := sizeBytes x.szty.toNat,
    lanes := laneAddrs o x }

/-- The request of an instruction with one access for the part (R198, R204). -/
def partReq (x : MemOp) (n : Nat) (o : Who) : Request :=
  { space := x.space.toNat, kind := .read, write := false, n := n, lanes := [(none, o.base x.addr 0 + sext32 x.off)] }

/-- The operation of a memory instruction. -/
def memOp (o : Who) (x : MemOp) (id : Nat) (kind : OpKind) (ps : List Piece) : Op :=
  { blankOp o id (lineCounter o.p x.h.csel) kind with
    code := x.szty.toNat, scope := usedScope x.space.toNat x.scope.toNat, ord := x.ord.toNat, hint := x.evict.toNat,
    dst := x.reg, mask := o.lanes x.h, pieces := ps, misc := x.space.toNat }

/-- Pieces from a given index on are read for an operation: its bytes, errors and signatures grow. -/
def State.readInto (s : State) (core mode : Nat) (x : Op) (note : State → Piece → State) :
    List (Nat × Piece) → State × Op
  | [] => (s, x)
  | (i, p) :: r =>
    let (s, d) := s.readPiece core mode x.misc x.scope x.hint p
    let s := note s p
    s.readInto core mode { x with seen := x.seen.put i d.data, acc := x.acc.put i d.errs, sigs := joinSigs x.sigs (some d.sig) }
      note r

/-- Pieces with their indices. -/
def Op.indexed (x : Op) (l : List Nat) : List (Nat × Piece) := l.filterMap fun i => (x.pieces[i]?).map fun p => (i, p)

/-- A constant load takes its bytes at issue, a moment that R186 allows. -/
def State.readConst (s : State) (o : Who) (x : Op) : State × Op :=
  if x.misc = 4 then s.readInto o.g.core o.u.mode x (State.noteHint · o.u.ctx x.hint) (x.indexed (x.pick [])) else (s, x)

/-- The pieces of operations at system scope recall the lines that the host may hold (R182). -/
def State.recallFor (s : State) (x : Op) : State := if x.scope = 5 then s.recallLines x.pieces else s

/-- An operation of the normal path issues: it enters the table, its requests go out, and the part goes on. -/
def State.launchOp (s : State) (o : Who) (x : Op) (load : Bool) : State :=
  ((((s.addOp o x).sendRequests o x load x.misc).recallFor x).advance o.pr).settle

/-- A load issues. -/
def State.issueLoad (s : State) (i : Instr) (o : Who) (x : MemOp) (ps : List Piece) : State :=
  if ps.isEmpty then s.finish o i
  else
    let (s, id) := s.fresh1
    let (s, op) := s.readConst o { memOp o x id .load ps with span := sizeRegs x.szty.toNat }
    s.launchOp o op true

/-- THE ISSUE OF A LOAD. -/
def State.loadInstr (s : State) (i : Instr) (x : MemOp) (req : Who → Request) : Host.Outcome State Fault Refusal :=
  s.issueCut i (sliceUse req) (fun o s => s.checkAccess o (req o) fun _ => []) fun ps o s => s.issueLoad i o x ps

def execLd (x : MemOp) (s : State) : Host.Outcome State Fault Refusal := s.loadInstr (.ld x) x (laneReq x false)
def execLdx (x : MemOp) (s : State) : Host.Outcome State Fault Refusal := s.loadInstr (.ldx x) x (laneReq x false)
def execLds (x : MemOp) (s : State) : Host.Outcome State Fault Refusal :=
  s.loadInstr (.lds x) x (partReq x (sizeBytes x.szty.toNat))

/-- The words of a store in a lane: its V registers, or the part's S copy. -/
def storeWords (o : Who) (x : MemOp) (lane : Nat) : List Word :=
  (List.range (sizeRegs x.szty.toNat)).map fun i =>
    if x.reg.cls = .s then o.sreg (x.reg.num.toNat + i) else o.w.vreg (x.reg.num.toNat + i) lane

/-- The bytes that a run of a store carries. -/
def storeRun (o : Who) (x : MemOp) (r : Run) : List Byte :=
  ((storeBytes x.szty.toNat (storeWords o x (r.lane.getD 0))).drop r.off).take r.len

/-- R192: of lanes that write the same bytes, the highest supplies them. -/
def lastWriters : List Piece → List Piece
  | [] => []
  | p :: r => if r.any fun q => q.loc == p.loc then lastWriters r else p :: lastWriters r

/-- R195, R203, R214: whether a write carries the core's signature: a release at cluster scope or wider, any write at those
scopes after a FENCE with a release half, and any write after such a FENCE at those scopes. -/
def carriesSig (o : Who) (x : Op) : Bool :=
  (2 ≤ x.scope && x.releases) || (match o.p.fence with | some f => 2 ≤ x.scope || 2 ≤ f.toNat | none => false)

/-- The widest scope of the FENCEs with a release half that a part has passed. -/
def fenceJoin (a : Option (BitVec 3)) (b : BitVec 3) : BitVec 3 :=
  match a with
  | some f => if f.toNat < b.toNat then b else f
  | none => b

/-- A flag in an operation's arguments: it carries. -/
def Op.carries (x : Op) : Bool := nth x.args 0 = 1

/-- A store issues. -/
def State.issueStore (s : State) (i : Instr) (o : Who) (x : MemOp) (ps : List Piece) : State :=
  if ps.isEmpty then s.finish o i
  else
    let (s, id) := s.fresh1
    let op := memOp o x id .store (lastWriters ps)
    s.launchOp o { op with args := [if carriesSig o op then 1 else 0] } false

/-- THE ISSUE OF A STORE. -/
def State.storeInstr (s : State) (i : Instr) (x : MemOp) : Host.Outcome State Fault Refusal :=
  s.issueCut i (sliceUse (laneReq x true)) (fun o s => s.checkAccess o (laneReq x true o) (storeRun o x))
    fun ps o s => s.issueStore i o x ps

def execSt (x : MemOp) (s : State) : Host.Outcome State Fault Refusal := s.storeInstr (.st x) x
def execStx (x : MemOp) (s : State) : Host.Outcome State Fault Refusal := s.storeInstr (.stx x) x

/-! ### Completion -/

/-- Nothing keeps pieces of an operation from being performed: R213, host ownership,
a bank in its turning window, the replay's order. -/
def State.mayPerform (s : State) (g : Group) (u : WorkUnit) (x : Op) (write : Bool) (l : List Piece) : Bool :=
  s.clearOf x l && (!(write && x.releases) || s.releaseReady x) &&
    l.all fun p => !(x.scope = 5 && s.snooping p) && !s.turning p.loc && s.admits g u x p write

/-- A load's registers are written; it retires (R193 to R195). -/
def State.landLoad (s : State) (g : Group) (x : Op) : State :=
  (((s.modOp x.id fun _ => x).land x).receive g.core x x.acquires (x.sigs.getD (0, 0))).opDone x.id

/-- An operation that may not be performed yet: the lines that the host has taken since its issue are recalled (R182). -/
def State.recallAgain (s : State) (x : Op) (l : List Nat) : State := s.recallFor { x with pieces := x.piecesAt l }

/-- LOAD_COMPLETE: the named pieces, with all that the same requests serve, are read where they are performed; with the
last the registers are written. -/
def stepLoadComplete (op : Nat) (sel : List Nat) (s : State) : Host.Outcome State Fault Refusal :=
  .next <|
    match s.liveOp op (fun k => k = .load) with
    | none => s
    | some (x, g, u) =>
      let l := x.pickAll false sel
      if s.mayPerform g u x false (x.piecesAt l) then
        let (s, y) := (s.tellFabric u x false (x.piecesAt l)).readInto g.core u.mode x
          (fun s p => (s.noteRun g u x p false).noteHint u.ctx x.hint p) (x.indexed l)
        if y.opens.isEmpty then s.landLoad g y else s.modOp op fun _ => y
      else s.recallAgain x l

/-- Pieces of a store are written. -/
def State.writeFrom (s : State) (g : Group) (u : WorkUnit) (x : Op) : List (Nat × Piece) → State
  | [] => s
  | (i, p) :: r =>
    let s := (s.tellFabric u x x.carries [p]).writePiece g.core x.misc x.carries p
    let s := (s.noteRun g u x p true).noteHint u.ctx x.hint p
    (s.modOp x.id fun y => { y with seen := y.seen.put i [] }).writeFrom g u x r

/-- A store has been performed whole (R219, R355). -/
def State.storeDone (s : State) (g : Group) (x : Op) : State :=
  ((if x.carries then s.afterRelease g.core else s).pendErr x).opDone x.id

/-- STORE_PERFORMED: the named pieces, with the rest of their sectors, reach their point; the last retires the store. -/
def stepStorePerformed (op : Nat) (sel : List Nat) (s : State) : Host.Outcome State Fault Refusal :=
  .next <|
    match s.liveOp op (fun k => k = .store) with
    | none => s
    | some (x, g, u) =>
      let l := x.pickAll true sel
      if s.mayPerform g u x true (x.piecesAt l) then
        let s := s.writeFrom g u x (x.indexed l)
        match s.op op with
        | some y =>
          if y.opens.isEmpty then s.storeDone g y else s
        | none => s
      else s.recallAgain x l

/-! ### LDW (R199) -/

/-- The local-store address of a lane. -/
def ldwDest (o : Who) (x : MemOp) (lane : Nat) : Nat := (o.w.vreg x.reg.num.toNat lane).toNat

/-- Alignment of both ends, then the destination's range (R191, R199). -/
def ldwTrap (o : Who) (x : MemOp) : Option TrapInfo :=
  let n := sizeBytes x.szty.toNat
  let ends := (laneAddrs o x).map fun e => (e.1, e.2, ldwDest o x (e.1.getD 0))
  match accTrap o codeMemAlign ((ends.filter fun e => e.2.1.toNat % n != 0 || e.2.2 % n != 0).map fun e =>
      (e.1, if e.2.1.toNat % n != 0 then e.2.1 else BitVec.ofNat 64 e.2.2)) with
  | some t => some t
  | none => accTrap o codeLsRange ((ends.filter fun e => o.u.lsz < e.2.2 + n).map fun e => (e.1, BitVec.ofNat 64 e.2.2))

/-- The local-store words of an LDW. -/
def ldwPieces (o : Who) (x : MemOp) : List Piece :=
  (maskBits (o.lanes x.h)).flatMap fun l => (List.range (sizeBytes x.szty.toNat / 4)).map fun i =>
    { lane := l, off := 4 * i, va := BitVec.ofNat 64 (ldwDest o x l + 4 * i), loc := .ls o.w.group (ldwDest o x l + 4 * i),
      len := 4, data := [], hs := false }

/-- LDW: the sources come first among the pieces, then the destinations; the arguments count the sources. -/
def execLdw (x : MemOp) (s : State) : Host.Outcome State Fault Refusal :=
  s.issueCut (.ldw x) (sliceUse (laneReq x false))
    (fun o s => match ldwTrap o x with
      | some t => (s, none, .error (.trap t))
      | none => s.checkAccess o (laneReq x false o) fun _ => [])
    fun ps o s =>
      if ps.isEmpty then s.finish o (.ldw x)
      else
        let (s, id) := s.fresh1
        let op := { memOp o x id .ldw (ps ++ ldwPieces o x) with args := [BitVec.ofNat 32 ps.length] }
        let (s, op) := if op.misc = 4 then
            s.readInto o.g.core o.u.mode op (State.noteHint · o.u.ctx op.hint) (op.indexed (List.range ps.length))
          else (s, op)
        s.launchOp o op true

/-- The bytes of a lane's source, zero where they met an error, at the offset of a destination word. -/
def ldwBytes (x : Op) (n : Nat) (p : Piece) : List Byte :=
  let d := laneData { x with pieces := x.pieces.take n } p.lane
  let clean := (List.range d.1.length).map fun i => if nth d.2 (i / 4) != 0 then 0 else d.1.getD i 0
  (clean.drop p.off).take p.len

/-- The last word of an LDW is written: an error of the source is pending on the counter (R194). -/
def State.ldwDone (s : State) (g : Group) (x : Op) (n : Nat) : State :=
  let y := { x with pieces := x.pieces.take n }
  let s := s.pendErr y
  (s.receive g.core x false (x.sigs.getD (0, 0))).opDone x.id

/-- LDW_COMPLETE: the named words are written to the local store, their sources read before; the last retires the LDW. A
load that races with it meets old or new words (R199). -/
def stepLdwComplete (op : Nat) (sel : List Nat) (s : State) : Host.Outcome State Fault Refusal :=
  .next <|
    match s.liveOp op (fun k => k = .ldw) with
    | none => s
    | some (x, g, u) =>
      let n := (nth x.args 0).toNat
      let l := x.pickAll true sel
      let dst := (x.indexed l).filter fun e => n ≤ e.1
      let named := ((x.pick []).filter fun i => i < n).filter fun i => l.contains i ||
        dst.any fun e => (x.pieces[i]?).any fun p => p.lane = e.2.lane && p.off / 8 = e.2.off / 8
      -- lanes that read the same bytes receive one value (R192)
      let src := (if named = [] then [] else x.pickAll false named).filter fun i => i < n
      if s.mayPerform g u x false (x.piecesAt src ++ dst.map fun e => e.2) then
        let (s, y) := (s.tellFabric u x false (x.piecesAt src)).readInto g.core u.mode x
          (fun s p => (s.noteRun g u x p false).noteHint u.ctx x.hint p) (x.indexed src)
        let s := dst.foldl (fun s e => (s.setBytes e.2.loc (ldwBytes y n e.2)).noteRun g u x e.2 true) s
        let y := { y with seen := dst.foldl (fun t e => Tbl.put t e.1 []) y.seen }
        let s := s.modOp op fun _ => y
        if y.opens.isEmpty then s.ldwDone g y n else s
      else s.recallAgain x src

/-! ### PRF, INVL, WBL (R200 to R202) -/

/-- The pieces of the lanes that R200 does not drop. -/
def State.quietPieces (s : State) (o : Who) (x : MemOp) : State × List Piece :=
  let (s, l) := s.translateRuns o .read 0 [] (runsOf o { laneReq x false o with n := 1 })
  (s, l.flatMap fun f => match s.placeRuns o (fun _ => []) [f] with | .ok ps => ps | .error _ => [])

def execPrf (x : MemOp) (s : State) : Host.Outcome State Fault Refusal :=
  s.issue (.prf x) fun o s =>
    let (s, ps) := s.quietPieces o x
    if ps.isEmpty then s.finish o (.prf x)
    else
      let (s, id) := s.fresh1
      s.launchOp o { memOp o x id .prefetch ps with scope := x.scope.toNat } true

/-- PREFETCH_PLACED: each line of local device memory goes into L1 at scope 0 and 1, unless it is dropped (R200). -/
def stepPrefetchPlaced (op : Nat) (drop : Bool) (s : State) : Host.Outcome State Fault Refusal :=
  .next <|
    match s.liveOp op (fun k => k = .prefetch) with
    | none => s
    | some (x, g, u) =>
      if s.heldBack op then s else
      let place := fun (s : State) (p : Piece) =>
        match p.loc with
        | .dev a =>
          let s := s.noteKeep u.ctx a x.hint
          if x.scope ≤ 1 then
            (List.range 4).foldl (fun s i =>
              (s.l1Read g.core (if x.misc = 4 then .const else .global) (l1Keeps x.hint) (a / 128 * 128 + 32 * i) 1).1) s
          else s
        | _ => s
      (if drop then s else x.pieces.foldl place s).opDone op

/-- The global and constant sectors of a line leave a core's L1. -/
def State.invalLine (s : State) (core line : Nat) : State :=
  s.modCore core fun c => { c with l1 := c.l1.filter fun e => !(e.1 % 4 < 2 && e.1 / 16 = line) }

/-- R201: the pieces of the lanes whose addresses translate; a PA of no region is MEM_REGION (R180). -/
def State.invlCheck (s : State) (o : Who) (x : MemOp) : State × Option (QuadMask × FarInfo) × Except Stop (List Piece) :=
  let (s, l) := s.translateRuns o .read 0 [] (runsOf o { laneReq x false o with n := 1 })
  match s.placeRuns o (fun _ => []) l with
  | .ok ps => (s, none, .ok ps)
  | .error t => (s, none, .error (.trap t))

def execInvl (x : MemOp) (s : State) : Host.Outcome State Fault Refusal :=
  s.issueCut (.invl x) (fun _ _ => []) (fun o s => s.invlCheck o x) fun ps o s =>
    (ps.foldl (fun s p => match p.loc with | .dev a => s.invalLine o.g.core (a / 128) | _ => s) s).finish o (.invl x)

def execInvlAll (x : MemOp) (s : State) : Host.Outcome State Fault Refusal :=
  s.issue (.invlAll x) fun o s =>
    (s.modCore o.g.core fun c => { c with l1 := c.l1.filter (fun e => e.1 % 4 = 2), f := s.time }).finish o (.invlAll x)

/-- The dirty private sectors of a line are written back; they stay. -/
def State.privLine (s : State) (core cls a : Nat) : State :=
  let keys := (List.range 4).map fun i => l1Key .priv (a / 128 * 4 + i)
  let s := s.backAsks core cls ((s.core core).l1.filter fun e => keys.contains e.1)
  keys.foldl (fun s k => s.privBack core k) s

/-- Whether an earlier store of the part to the lines of some pieces is still to be performed (R213 item 1). -/
def State.storesOut (s : State) (o : Who) (l : List Piece) : Bool :=
  (s.before o).any fun y => y.kind = .store && y.opens.any fun q => l.any fun p =>
    p.loc.at 0 == q.loc.at 0 && p.loc.off / 128 = q.loc.off / 128

/-- WBL: with SPACE 2 the private lines go to L2, with SPACE 0 the L2 lines go to GDDR7 (R202). -/
def execWbl (x : MemOp) (s : State) : Host.Outcome State Fault Refusal :=
  s.issueCut (.wbl x) (fun _ _ => [])
    (fun o s =>
      match s.checkAccess o (laneReq x false o) fun _ => [] with
      | (s, c, .ok ps) => (s, c, if s.storesOut o ps then .error (.stall 2) else .ok ps)
      | r => r)
    fun ps o s =>
      (ps.foldl (fun s p =>
        match p.loc with
        | .dev a =>
          if x.space = 2 then s.privLine o.g.core o.netClass a
          else ((s.ask (clusterOf o.g.core) o.netClass true (.dev (a / 128 * 128)) 4).settleFixed (.dev (a / 128 * 128)) 128).writeBack (a / 128 * 128) 128
        | _ => s) s).finish o (.wbl x)

/-- R185: the 128-byte lines of a wave's private block that hold bytes of the part's lanes. -/
def privRows (o : Who) : List Dword :=
  (List.range (o.u.n 0x28 / 4)).flatMap fun i => ([0, 1].filter fun h =>
    (o.p.quads.extractLsb' (8 * h) 8 : BitVec 8) != 0).map fun h => o.privVa (32 * h) (4 * i)

def execWblAll (x : MemOp) (s : State) : Host.Outcome State Fault Refusal :=
  s.issueWith (α := Unit) (.wblAll x) (fun _ _ => [])
    (fun o s => if (s.before o).any fun y => y.kind = .store && y.misc = 2 && y.opens != [] then (s, .error (.stall 2))
      else (s, .ok ()))
    fun _ o s =>
      ((privRows o).foldl (fun s va =>
        match s.locate o.asid .read va with
        | (s, .ok (.dev a)) => s.privLine o.g.core o.netClass a
        | (s, _) => s) s).finish o (.wblAll x)

/-! ### FENCE (R203) -/

/-- The halves and the scope of a FENCE. -/
def fenceRel (x : CtlOp) : Bool := x.imm.getLsbD 1
def fenceAcq (x : CtlOp) : Bool := x.imm.getLsbD 0
def fenceScope (x : CtlOp) : BitVec 3 := x.imm.extractLsb' 2 3

/-- Whether a FENCE waits: for earlier accesses to be performed, or for earlier loads to be complete. -/
def State.fenceWaits (s : State) (o : Who) (x : CtlOp) : Bool :=
  (fenceRel x && s.accessesOut o) ||
  (fenceAcq x && (s.before o).any fun y => y.kind = .load || y.kind = .atom || y.kind = .ldw || y.kind = .red || y.kind = .mred)

/-- Signatures that a part holds are applied to its core's L1. -/
def State.applyHeld (s : State) (o : Who) (system : Bool) : State :=
  let s := match o.p.sigs with
    | some g => s.applySig o.g.core g false
    | none => s
  (if system then s.applySystem o.g.core else s).modPart o.pr fun p => { p with sigs := none }

/-- The FENCE has nothing to wait for. -/
def State.passFence (s : State) (o : Who) (x : CtlOp) : State :=
  let s := if fenceRel x then s.modPart o.pr fun p => { p with fence := some (fenceJoin p.fence (fenceScope x)) } else s
  let s := if fenceAcq x then s.applyHeld o (fenceScope x = 5) else s
  s.finish o (.fence x)

def execFence (x : CtlOp) (s : State) : Host.Outcome State Fault Refusal :=
  s.issue (.fence x) fun o s => if s.fenceWaits o x then s.holdOn o.pr (.fence x) 2 else s.passFence o x

/-- FENCE_WAIT_DONE. -/
def stepFenceWaitDone (p : PartRef) (s : State) : Host.Outcome State Fault Refusal :=
  .next <|
    match s.who p with
    | some o =>
      match o.p.hold, o.p.status with
      | .instr (.fence x), .resident => if s.fenceWaits o x then s else s.passFence o x
      | _, _ => s
    | none => s

/-! ### FENCEX (R223, R224) -/

/-- R224 step 1: an operation on a path of FROM that has accesses not performed. -/
def State.fencexWaits (s : State) (o : Who) (x : CtlOp) : Bool :=
  (s.before o).any fun y => y.kind != .done && !y.performed && x.imm.getLsbD (5 + y.kind.path)

/-- Steps 2 and 3. -/
def State.passFencex (s : State) (o : Who) (x : CtlOp) : State :=
  let k := o.g.core
  let s := if x.imm.getLsbD 11 then s.applySig k ((s.core k).sig, (s.core k).z) true else s
  let s := if x.imm.getLsbD 15 then s.modCore k fun c => { c with tex := [] } else s
  let s := if x.imm.getLsbD 16 then s.modCore k fun c => { c with rays := [] } else s
  s.finish o (.fencex x)

def execFencex (x : CtlOp) (s : State) : Host.Outcome State Fault Refusal :=
  s.issue (.fencex x) fun o s => if s.fencexWaits o x then s.holdOn o.pr (.fencex x) 2 else s.passFencex o x

/-- FENCEX_WAIT_DONE. -/
def stepFencexWaitDone (p : PartRef) (s : State) : Host.Outcome State Fault Refusal :=
  .next <|
    match s.who p with
    | some o =>
      match o.p.hold, o.p.status with
      | .instr (.fencex x), .resident => if s.fencexWaits o x then s else s.passFencex o x
      | _, _ => s
    | none => s

/-! ### MONW (R204) -/

/-- A condition on two values: EQ, NE, GE, LT. -/
def monCond (c : Nat) (a b : Int) : Bool :=
  match c with
  | 0 => a = b
  | 1 => a ≠ b
  | 2 => b ≤ a
  | _ => a < b

/-- Bytes of the word that a MONW watches. -/
def monBytes (x : MemOp) : Nat := if x.szty.getLsbD 3 then 8 else 4

/-- Whether the bytes read satisfy the condition. -/
def monHolds (o : Who) (x : MemOp) (d : List Byte) : Bool :=
  let w := 8 * monBytes x
  let signed := x.szty.getLsbD 2
  let b := if w = 64 then (o.spair x.reg.num.toNat).toNat else (o.sreg x.reg.num.toNat).toNat
  monCond (x.szty.toNat % 4) (asInt signed w (leNat d)) (asInt signed w b)

/-- The checks of a MONW; its read comes after the part's earlier stores to the word (R213 item 1). -/
def State.monCheck (s : State) (o : Who) (x : MemOp) : State × Except Stop (List Piece) :=
  match s.checkAccess o (partReq x (monBytes x) o) fun _ => [] with
  | (s, _, .ok ps) =>
    if s.clearOf { memOp o x 0 .load ps with prior := o.p.prior } ps then (s, .ok ps) else (s, .error (.stall 2))
  | (s, _, .error e) => (s, .error e)

/-- The request of a look that a waiting part makes (R323, R354): it is made and answered at once. -/
def State.lookOut (s : State) (o : Who) (x : Op) (p : Piece) : State :=
  (s.ask (clusterOf o.g.core) o.netClass false p.loc p.len).tellFabric o.u x false [p]

/-- Whether the request of a look would wait for credit (R325). -/
def State.lookWaits (s : State) (o : Who) : Bool := s.portWaits (clusterOf o.g.core) o.netClass 2

/-- A word in uncorrectable error satisfies nothing: a MEM_DATA is held for the wave, once, and the wait goes on (R2; log
entry 71). -/
def State.monErr (s : State) (o : Who) (p : Piece) : State :=
  if o.w.pend.any fun f => f.code = codeMemData && f.op = 0 && f.pc = o.p.pc then s
  else
    s.pend o.pr.wave
      { quads := o.p.quads, ctr := none, code := codeMemData, cause := 4, mask := 0, pc := o.p.pc, addr := p.va, aux0 := 0,
        aux1 := 0, merged := 0, barr := none, hand := none, op := 0 }

/-- One look at the word: past the L1, at its own place. The wait ends, or goes on for another 4,096 clocks. -/
def State.monLook (s : State) (o : Who) (x : MemOp) (ps : List Piece) : State :=
  let op := memOp o x 0 .load ps
  let p := ps.head?.getD { lane := 0, off := 0, va := 0, loc := .dev 0, len := 0, data := [], hs := false }
  let again := fun (s : State) => (s.modPart o.pr fun p => { p with timer := 4096, since := s.time }).holdOn o.pr (.monw x) 15
  if !s.admits o.g o.u op p false || (op.scope = 5 && s.snooping p) || s.lookWaits o then again (s.recallFor op)
  else
    let s := s.lookOut o op p
    let (s, d) := s.readPiece o.g.core o.u.mode x.space.toNat (max 2 op.scope) x.evict.toNat p
    let s := (s.noteRun o.g o.u op p false).noteHint o.u.ctx x.evict.toNat p
    if d.errs.any fun e => e != 0 then again (s.monErr o p)
    else if monHolds o x d.data then
      let s :=
        if x.ord = 1 then s.receive o.g.core op true d.sig
        else s.modPart o.pr fun q => { q with sigs := joinSigs q.sigs (some d.sig) }
      s.finish o (.monw x)
    else again s

def execMonw (x : MemOp) (s : State) : Host.Outcome State Fault Refusal :=
  s.issueWith (.monw x) (sliceUse (partReq x (monBytes x))) (fun o s => s.monCheck o x)
    fun ps o s => (if (memOp o x 0 .load ps).scope = 5 then s.recallLines ps else s).monLook o x ps

/-- A MONW that waits reads its word again. -/
def State.monAgain (s : State) (p : PartRef) (may : Who → List Piece → Bool) : State :=
  match s.who p with
  | some o =>
    match o.p.hold, o.p.status with
    | .instr (.monw x), .resident =>
      match s.monCheck o x with
      | (t, .ok ps) => if may o ps then t.monLook o x ps else s
      | (t, .error e) => if may o [] then t.stopAt p e else s
    | _, _ => s
  | none => s

/-- Whether a MONW watches host memory, which only the poll reads again. -/
def watchesHost (ps : List Piece) : Bool := ps.any fun p => match p.loc with | .host _ => true | _ => false

/-- MONW_WAKE: a write to the watched sector has been performed. -/
def stepMonwWake (p : PartRef) (s : State) : Host.Outcome State Fault Refusal :=
  .next (s.monAgain p fun _ ps => !watchesHost ps)

/-- MONW_POLL_EXPIRY: 4,096 clocks have passed. -/
def stepMonwPollExpiry (p : PartRef) (s : State) : Host.Outcome State Fault Refusal :=
  .next (s.monAgain p fun o _ => o.p.timer = 0)

/-! ### L1_EVICT and PAGE_WALK -/

/-- L1_EVICT: every copy of a sector leaves a core's L1, private data written back (R182, R185). -/
def stepL1Evict (core sector : Nat) (s : State) : Host.Outcome State Fault Refusal :=
  .next (((s.l1Drop core (l1Key .global sector)).l1Drop core (l1Key .const sector)).l1Drop core (l1Key .priv sector))

/-- PAGE_WALK: a walk that completes fills the TLBs (R333, R336). -/
def stepPageWalk (core asid : Nat) (va : BitVec 64) (s : State) : Host.Outcome State Fault Refusal :=
  .next (if s.flat asid || field va.toNat 63 57 != 0 then s else (s.lookup core asid va.toNat).1)

end Sys2Proof.Machine
end

