-- ==== Sys2Proof/Machine/Atomics.lean ====
section
/-! DEFINITION. Atomics and reductions (R225 to R236): where they execute, what they compute, and their steps. -/

namespace Sys2Proof.Machine

open Sys2Proof

/-! ### Operations (R229, R230) -/

/-- Width in bytes of ATOM's and RED's codes; 16 and 17 stand for ATOMC of 4 and 8 bytes. -/
def atomBytes (c : Nat) : Nat :=
  match c with
  | 1 => 8 | 6 => 8 | 7 => 8 | 12 => 8 | 15 => 8 | 17 => 8 | _ => 4

/-- A floating sum of R230. -/
def atomFadd (f : FloatFmt) (a b : Nat) : Nat := ((unpack f a).add false (unpack f b)).pack f .rn

/-- The value an ATOM or RED writes, of the old value and the operand. -/
def atomResult (c a b : Nat) : Nat :=
  match c with
  | 0 => (a + b) % 2 ^ 32
  | 1 => (a + b) % 2 ^ 64
  | 2 => if asInt true 32 a ≤ asInt true 32 b then a else b
  | 3 => min a b
  | 4 => if asInt true 32 a ≤ asInt true 32 b then b else a
  | 5 => max a b
  | 6 => min a b
  | 7 => max a b
  | 8 => Nat.land a b
  | 9 => Nat.lor a b
  | 10 => Nat.xor a b
  | 13 => atomFadd .f32 a b
  | 14 => atomFadd .bf16 (a % 65536) (b % 65536) + atomFadd .bf16 (a / 65536) (b / 65536) * 65536
  | 15 => atomFadd .f64 a b
  | _ => b

/-- What a step writes; none where a comparison fails. `b` is the operand or comparand, `c2` the swap value. -/
def atomWrites (code old b c2 : Nat) : Option Nat :=
  if 16 ≤ code then (if old = b then some c2 else none) else some (atomResult code old b)

/-! ### Places (R226, R227) -/

/-- The rank that a scope and a placement name; 4 is the CXL port unit, 5 the fabric unit. -/
def rankOf (scope ap : Nat) : Nat :=
  if ap = 2 then 4
  else if ap = 3 then 5
  else max (match scope with | 0 => 0 | 1 => 0 | 2 => 1 | 3 => 2 | 4 => 2 | _ => 4) (if ap = 1 then 3 else 0)

/-- The rank at which a lane's step is performed: R227, R234; in record and replay mode every step is
performed at the home slice (R393). -/
def placeOf (o : Who) (loc : Loc) (scope ap : Nat) : Nat :=
  match loc with
  | .ls _ _ => 0
  | .host _ => 4
  | _ => if o.u.fixed || logsAll o.u.mode then 2 else rankOf scope ap

/-- The atomic placement of the page of an address (R226). -/
def State.placement (s : State) (o : Who) (va : Dword) : Nat :=
  match s.translate o.g.core o.asid .write va with
  | (_, .ok x) => x.ap
  | _ => 0

/-- What a lane's step has: its rank, operand and swap value, and the old value once it has been read apart. -/
structure Step1 where
  rank : Nat
  b    : Nat
  c2   : Nat
  old  : Option Nat
  bad  : Bool

def Step1.words (t : Step1) : List Word :=
  [BitVec.ofNat 32 t.rank, lo32 (BitVec.ofNat 64 t.b), hi32 (BitVec.ofNat 64 t.b), lo32 (BitVec.ofNat 64 t.c2),
    hi32 (BitVec.ofNat 64 t.c2), if t.old.isSome then 1 else 0, lo32 (BitVec.ofNat 64 (t.old.getD 0)),
    hi32 (BitVec.ofNat 64 (t.old.getD 0)), if t.bad then 1 else 0]

/-- The step of piece i. -/
def Op.step1 (x : Op) (i : Nat) : Step1 :=
  let l := (x.lanes.get i).getD []
  { rank := (nth l 0).toNat, b := (pair (nth l 1) (nth l 2)).toNat, c2 := (pair (nth l 3) (nth l 4)).toNat,
    old := if nth l 5 = 1 then some (pair (nth l 6) (nth l 7)).toNat else none, bad := nth l 8 = 1 }

/-! ### Issue (R231 to R233) -/

/-- The request of an atomic of width w. -/
def atomReq (x : MemOp) (w : Nat) (o : Who) : Request :=
  { space := x.space.toNat, kind := .write, write := true, n := w, lanes := laneAddrs o x }

/-- A value of w bytes in a lane's data registers, from the k-th on. -/
def atomOperand (o : Who) (x : MemOp) (w k lane : Nat) : Nat :=
  let r := x.reg.num.toNat + k
  if x.reg.cls = .s then (if w = 8 then (o.spair r).toNat else (o.sreg r).toNat)
  else if w = 8 then (pair (o.w.vreg r lane) (o.w.vreg (r + 1) lane)).toNat else (o.w.vreg r lane).toNat

/-- R236: an atomic that carries a replay ticket. -/
def ticketed (u : WorkUnit) (kind : OpKind) (code : Nat) : Bool := u.fixed && (kind = .atom || code = 15)

/-- R234: under fixed-order mode the core records the order of local-store atomics, kind 9. -/
def State.bankDecision (s : State) (o : Who) (ps : List Piece) : State :=
  match ps.head? with
  | some p => match p.loc with
    | .ls _ a => if o.u.fixed then s.decide o 9 0 o.pr.part o.p.pc.toNat o.p.quads.toNat a else s
    | _ => s
  | none => s

/-- Whether the replay lets a local-store atomic issue (R395). -/
def State.bankReady (s : State) (o : Who) (ps : List Piece) : Bool :=
  !o.u.fixed || ps.all (fun p => match p.loc with | .ls _ _ => false | _ => true) || s.mayDecide o 9

/-- The lines that the host may hold and that steps at a home slice or beyond are to reach are recalled (R227). -/
def State.atomRecall (s : State) (x : Op) (l : List Nat) : State :=
  s.recallLines (((x.indexed l).filter fun e => 2 ≤ (x.step1 e.1).rank).map fun e => e.2)

/-- An atomic issues. -/
def State.issueAtom (s : State) (i : Instr) (o : Who) (x : MemOp) (kind : OpKind) (code : Nat) (ps : List Piece) : State :=
  if ps.isEmpty then s.finish o i
  else
    let w := atomBytes code
    let s := s.bankDecision o ps
    let (s, id) := s.fresh1
    let n := ((s.waves.get o.pr.wave).map fun w => w.seqs.atom).getD 0
    let steps : Tbl (List Word) := ps.zipIdx.map fun e =>
      (e.2, Step1.words { rank := placeOf o e.1.loc (usedScope x.space.toNat x.scope.toNat) (s.placement o e.1.va),
                          b := atomOperand o x w 0 e.1.lane, c2 := if 16 ≤ code then atomOperand o x w (w / 4) e.1.lane else 0,
                          old := none, bad := false })
    let op := { memOp o x id kind ps with
      code := code, span := if kind = OpKind.atom then w / 4 else 0, lanes := steps }
    let op := { op with args := [if carriesSig o op then 1 else 0, n],
                        logs := if o.u.fixed && ps.any (fun p => match p.loc with | .ls _ _ => true | _ => false) then [128] else [] }
    let s := if ticketed o.u kind code then
        s.modWave o.pr.wave fun w => { w with seqs := { w.seqs with atom := w.seqs.atom + 1 } }
      else s
    let s := s.atomRecall op (List.range ps.length)
    s.launchOp o op false

/-- THE ISSUE OF AN ATOMIC. -/
def State.atomInstr (s : State) (i : Instr) (x : MemOp) (kind : OpKind) (code : Nat) : Host.Outcome State Fault Refusal :=
  s.issueCut i (sliceUse (atomReq x (atomBytes code)))
    (fun o s =>
      match s.checkAccess o (atomReq x (atomBytes code) o) fun _ => [] with
      | (s, c, .ok ps) => (s, c, if s.bankReady o ps then .ok ps else .error (.stall 2))
      | r => r)
    fun ps o s => s.issueAtom i o x kind code ps

def execAtom (x : MemOp) (s : State) : Host.Outcome State Fault Refusal := s.atomInstr (.atom x) x .atom x.szty.toNat
def execAtomc (x : MemOp) (s : State) : Host.Outcome State Fault Refusal :=
  s.atomInstr (.atomc x) x .atom (16 + x.szty.toNat % 2)
def execRed (x : MemOp) (s : State) : Host.Outcome State Fault Refusal := s.atomInstr (.red x) x .red x.szty.toNat

/-! ### Steps (R228, R232 to R236) -/

/-- The old value of a step, with its error flags and what the read receives. Before a step at rank 3 or 4 the slice
writes the line back and drops it (R228). -/
def State.atomRead (s : State) (core : Nat) (x : Op) (rank : Nat) (p : Piece) : State × ReadOut :=
  match p.loc with
  | .dev a =>
    if rank = 0 then s.readL1 core .global x.hint a p.len
    else (if 3 ≤ rank then s.dropSliceLine a else s).readPiece core 2 0 x.scope x.hint p
  | _ => s.readPiece core 2 x.misc x.scope x.hint p

/-- The write of a step. -/
def State.atomWrite (s : State) (core : Nat) (x : Op) (rank : Nat) (p : Piece) (v : Nat) : State :=
  let s := s.writePiece core x.misc x.carries { p with data := leBytes p.len v }
  match p.loc with
  | .dev a => if 3 ≤ rank then s.writeBack (a / 128 * 128) 128 else s
  | _ => s

/-- Pending sectors of a context. -/
def State.fixedCount (s : State) (ctx : Nat) : Nat :=
  (s.slices.map fun e => (e.2.fixed.filter fun f => f.2.ctx = ctx).length).foldl (· + ·) 0

/-- R235, R388: with a context's first pending sector its spill region holds what the slices write there, in a layout that
the manual does not give (log entry 68). -/
def State.spillArea (s : State) (ctx : Nat) : State :=
  let w := s.logWords ctx
  let lg := field (nth w 0).toNat 4 0
  let base := (pair (nth w 8) (nth w 9)).toNat
  if lg = 0 || !paLocal base || s.fixedCount ctx != 0 then s else s.blur base (512 * 2 ^ lg)

/-- A contribution of a context to a fixed-order sector. -/
def State.contribute (s : State) (ctx op : Nat) (l : Loc) (data : List Byte) : State :=
  (match l with | .dev _ => s.spillArea ctx | _ => s).addFixed ctx op l data

/-- R235: a contribution to an exact accumulator, at the home slice of the owning device; the core's own copy of the
sector goes. -/
def State.atomFixed (s : State) (g : Group) (u : WorkUnit) (x : Op) (l : Loc) (data : List Byte) : State :=
  let s := match l with
    | .dev a => if x.carries then s.carry a ((s.core g.core).sig, (s.core g.core).z) else s
    | _ => s
  let s := s.contribute u.ctx x.code l data
  let s := match l with
    | .dev a => s.modCore g.core fun c => { c with l1 := c.l1.del (l1Key .global (a / 32)) }
    | _ => s
  s.noteWrite g.core l

/-- Whether a location lies in memory whose home slices keep exact accumulators: this device's or another's (R225). -/
def Loc.exact (l : Loc) : Bool :=
  match l with
  | .dev _ => true
  | .peer _ _ => true
  | _ => false

/-- Kind 15: the ticket of a step at a slice (R236). -/
def ticketRec (x : Op) (p : Piece) : EvRec :=
  { kind := 15, code := 0, wid := x.wid, part := x.part, pc := p.loc.off / 32 * 32, dseq := x.born, qmask := p.lane,
    data := (nth x.args 1).toNat }

/-- R236: the ring of the slice of a ticketed step, and its log's head. -/
def State.ticketRing (u : WorkUnit) (x : Op) (p : Piece) : Option (Nat × Nat) :=
  match p.loc with
  | .dev a => if ticketed u x.kind x.code then some (homeSlice a, u.mring (homeSlice a)) else none
  | _ => none

/-- Whether a record is a ticket: of that wave, atomic, lane and sector. -/
def isTicket (e : EvRec) (r : List Byte) : Bool :=
  recKind r = 15 && recWid r = e.wid && recQuads r % 64 = e.qmask && recData r = e.data && recPc r = e.pc

/-- In replay a step waits until its ticket is the next one logged for its sector. -/
def State.ticketTurn (s : State) (g : Group) (u : WorkUnit) (x : Op) (p : Piece) : Bool :=
  if u.mode != 3 then true
  else
    match State.ticketRing u x p with
    | none => true
    | some (_, ring) =>
      let due := match s.runPlace g u x p true with | some r => r.due | none => false
      let head := s.ringHead ring u.msize
      match if due then head.bind fun e => s.replayScan ring u.msize e.1 (s.ringLeft ring u.msize e.1) else head with
      | none => true
      | some (_, rec') =>
        isTicket (ticketRec x p) rec'

/-- A ticket in the ring of a slice: recorded, or consumed. -/
def State.logTicket (s : State) (u : WorkUnit) (k ring : Nat) (e : EvRec) : State :=
  if u.mode = 2 then
    (s.ringPut none ring u.msize (evBytes s.time.toNat (s.slice k).seq.toNat (512 + k) e)).modSlice k
      fun sl => { sl with seq := sl.seq + 1 }
  else if u.mode = 3 then
    match s.ringHead ring u.msize with
    | some (h, _) => s.setNat (.dev (ring + 4)) 4 h
    | none => s
  else s

/-- The ticket is recorded, or consumed. -/
def State.noteTicket (s : State) (u : WorkUnit) (x : Op) (p : Piece) : State :=
  match State.ticketRing u x p with
  | none => s
  | some (k, ring) =>
    (s.logTicket u k ring (ticketRec x p)).noteLogged x.id k

/-- R228: a step that is a read and then a write towards other agents: at the cluster unit, and at the CXL port on host
memory for what CXL.io has no AtomicOp. At an L1 the read is the copy that an earlier fill left. -/
def splits (x : Op) (rank : Nat) (p : Piece) : Bool :=
  match p.loc with
  | .dev _ => rank = 1
  | .host _ => !(x.code = 0 || x.code = 1 || x.code = 11 || x.code = 12 || 16 ≤ x.code)
  | _ => false

/-- Whether a step is served by a unit that is atomic only among its own steps, the split ones with the others. -/
def unitServes (rank : Nat) (p : Piece) : Bool :=
  match p.loc with
  | .dev _ => rank = 1
  | .host _ => true
  | _ => false

/-- The unit that serves a split step is between the read and the write of another on the piece. -/
def State.unitBusy (s : State) (g : Group) (x : Op) (i : Nat) (p : Piece) : Bool :=
  s.ops.any fun y => !y.done && (y.kind = .atom || y.kind = .red) &&
    (match p.loc with
     | .dev _ => (match s.groups.get y.group with | some h => clusterOf h.core = clusterOf g.core | none => false)
     | _ => true) &&
    y.pieces.zipIdx.any fun e => !(y.id = x.id && e.2 = i) && overlap e.1 p && (y.seen.get e.2).isNone && (y.step1 e.2).old.isSome

/-- R228: a step at an L1 finds a copy that a sector load filled earlier, whatever its EVICT, which changes no order (R182,
R189). -/
def fillsL1 (rank : Nat) (p : Piece) : Bool :=
  match p.loc with
  | .dev _ => rank = 0
  | _ => false

/-- The old value of a split step is read, and the write follows later; or the sector of a step at an L1 is filled. -/
def State.atomFetch (s : State) (g : Group) (x : Op) (i : Nat) : State :=
  match x.pieces[i]? with
  | none => s
  | some p =>
    let t := x.step1 i
    if fillsL1 t.rank p && (x.seen.get i).isNone then (s.l1Read g.core .global true p.loc.off p.len).1
    else if !splits x t.rank p || (x.seen.get i).isSome || t.old.isSome || s.unitBusy g x i p then s
    else
      let (s, d) := s.atomRead g.core x t.rank p
      s.modOp x.id fun y =>
        { y with sigs := joinSigs y.sigs (some d.sig),
                 lanes := y.lanes.put i (Step1.words { t with old := some (leNat d.data), bad := d.errs.any fun e => e != 0 }) }

/-- One lane's step. -/
def State.atomStep (s : State) (g : Group) (u : WorkUnit) (id i : Nat) : State :=
  match s.op id with
  | none => s
  | some x =>
    match x.pieces[i]? with
    | none => s
    | some p =>
      let t := x.step1 i
      let exact := u.fixed && x.kind = .red && (x.code = 13 || x.code = 14) && p.loc.exact
      let (s, d) : State × ReadOut := match t.old with
        | some v => (s, { data := leBytes p.len v, errs := if t.bad then [1, 1] else [], sig := (0, 0) })
        | none =>
          if exact then
            (s, { data := [], errs := s.errsAt p.loc p.len,
                  sig := match p.loc with | .dev a => if 2 ≤ x.scope then s.sigAt a else (0, 0) | _ => (0, 0) })
          else s.atomRead g.core x t.rank p
      let bad := d.errs.any fun e => e != 0
      -- R233: an error in the read of a step concerns the whole of its data register
      let d := if bad then { d with errs := d.errs.map fun _ => leastBy BitVec.toNat (d.errs.filter fun e => e != 0) |>.getD 1 }
        else d
      let v := atomWrites x.code (leNat d.data) t.b t.c2
      let s := s.noteRun g u x p (!bad && v.isSome)
      let s := s.noteTicket u x p
      let s := s.noteHint u.ctx x.hint p
      let s := if bad then s
        else if exact then s.atomFixed g u x p.loc (leBytes p.len t.b)
        else match v with
          | some v => s.atomWrite g.core x t.rank p v
          | none => s
      s.modOp id fun y =>
        { y with seen := y.seen.put i d.data, acc := y.acc.put i d.errs, sigs := joinSigs y.sigs (some d.sig) }

/-- R232: the release half of a comparison that failed is a FENCE's. -/
def State.fenceFailed (s : State) (x : Op) : State :=
  let failed := x.mayFence && (List.range x.pieces.length).any fun i =>
    leNat ((x.seen.get i).getD []) != (x.step1 i).b
  let mark := fun (p : Part) =>
    if p.prior.contains x.id then { p with fence := some (fenceJoin p.fence (BitVec.ofNat 3 x.scope)) } else p
  if failed then s.modWave x.wave fun w => { w with parts := w.parts.map fun e => (e.1, mark e.2) } else s

/-- Every step has been performed: registers, errors, signatures, retirement (R233). -/
def State.atomDone (s : State) (g : Group) (x : Op) : State :=
  let s := s.fenceFailed x
  let s := if x.carries then s.afterRelease g.core else s
  let s :=
    if x.kind = .atom then s.land { x with code := 4 } else s.pendErr x
  (s.receive g.core x x.acquires (x.sigs.getD (0, 0))).opDone x.id

/-- R234: an earlier local-store atomic of the core under fixed-order mode is still to be performed. -/
def State.banksBehind (s : State) (g : Group) (u : WorkUnit) (x : Op) : Bool :=
  u.fixed && x.misc = 1 &&
    (s.ops.takeWhile fun y => y.id != x.id).any fun y =>
      !y.done && y.misc = 1 && (y.kind = .atom || y.kind = .red) && s.onCore g.core y

/-- Whether nothing holds the steps of some lanes. -/
def State.atomMay (s : State) (g : Group) (u : WorkUnit) (x : Op) (l : List Nat) : Bool :=
  s.clearOf x (x.piecesAt l) && (!x.releases || s.releaseReady x) && !s.banksBehind g u x &&
    (x.indexed l).all fun e => !(2 ≤ (x.step1 e.1).rank && s.snooping e.2) && s.admits g u x e.2 true &&
      s.ticketTurn g u x e.2 && !(unitServes (x.step1 e.1).rank e.2 && s.unitBusy g x e.1 e.2)

/-- ATOMIC_STEP: the named lanes' steps are performed at their places. An index beyond the lanes is the read alone of a
step that R228 splits, or the fill of one at an L1. Under fixed-order mode the lanes of a local-store atomic go together, in ascending order. -/
def stepAtomicStep (op : Nat) (sel : List Nat) (s : State) : Host.Outcome State Fault Refusal :=
  .next <|
    match s.liveOp op (fun k => k = .atom || k = .red) with
    | none => s
    | some (x, g, u) =>
      let n := x.pieces.length
      let l := x.pick (if u.fixed && x.misc = 1 then [] else sel)
      if sel.any fun i => n ≤ i then
        let l := (sel.filter fun i => n ≤ i).map fun i => i - n
        if s.atomMay g u x l then l.foldl (fun s i => s.atomFetch g ((s.op op).getD x) i) s else s.atomRecall x l
      else if s.atomMay g u x l then
        let s := l.foldl (fun s i => (s.tellFabric u x x.carries (x.piecesAt [i])).atomStep g u op i) s
        match s.op op with
        | some y => if y.opens.isEmpty then s.atomDone g y else s
        | none => s
      else s.atomRecall x l

/-! ### Early resolution (R235, R397) -/

/-- A unit of a context whose jobs have read a legal log-table entry (R388). -/
def State.loggingUnit (s : State) (ctx : Nat) : Option WorkUnit :=
  (s.units.find? fun e => !e.2.ctl && e.2.ctx = ctx && e.2.log != [] && logLegal e.2.log).map fun e => e.2

/-- FIXED_ORDER_RESOLVE: an accumulator leaves a full spill region; kind 13 and FOFULL tell it (R397). -/
def stepFixedOrderResolve (sector : Nat) (s : State) : Host.Outcome State Fault Refusal :=
  .next <|
    match s.fixedAt (.dev (32 * sector)) with
    | none => s
    | some e =>
      let lg := field (nth (s.logWords e.ctx) 0).toNat 4 0
      if (if lg = 0 then 0 else 2 ^ lg) < s.fixedCount e.ctx then
        let s := s.resolveFixed (.dev (32 * sector))
        let a := s.tables.lgtab + 64 * e.ctx + 46
        let s := s.setNat (.dev a) 2 (min (s.natAt (.dev a) 2 + 1) 65535)
        match s.loggingUnit e.ctx with
        | none => s
        | some u =>
          let k := homeSlice (32 * sector)
          let r : EvRec := { kind := 13, code := 0, wid := 0, part := 0, pc := 32 * sector, dseq := 0, qmask := 0, data := 0 }
          (s.ringPut none (u.mring k) u.msize (evBytes s.time.toNat (s.slice k).seq.toNat (512 + k) r)).modSlice k
            fun sl => { sl with seq := sl.seq + 1 }
      else s

/-! ### Tickets of other devices' steps (R236) -/

/-- The kind 15 of a step of another device at a place here. -/
def remoteTicket (r : DomainReq) (a : Nat) : Option EvRec :=
  r.ticket.map fun t =>
    { kind := 15, code := 0, wid := t.1.toNat, part := 0, pc := a / 32 * 32, dseq := 0, qmask := t.2.2.toNat, data := t.2.1.toNat }

/-- In replay such a step waits until its ticket is the next one logged. -/
def State.remoteTurn (s : State) (r : DomainReq) (ctx a : Nat) : Bool :=
  match remoteTicket r a, s.loggingUnit ctx with
  | some e, some u =>
    u.mode != 3 || (s.ringHead (u.mring (homeSlice a)) u.msize).all fun h => isTicket e h.2
  | _, _ => true

/-- The ticket of another device's step is recorded, or consumed. -/
def State.noteRemote (s : State) (r : DomainReq) (ctx a : Nat) : State :=
  match remoteTicket r a, s.loggingUnit ctx with
  | some e, some u => s.logTicket u (homeSlice a) (u.mring (homeSlice a)) e
  | _, _ => s

end Sys2Proof.Machine
end

