-- ==== Sys2Proof/Machine/Copy.lean ====
section
/-! DEFINITION. Operands of engines in memory (R115, R239); the copy engine (R237 to R244), writes and windows of the
weight store (R128, R150, R151), and multicast (R245, R246). -/

namespace Sys2Proof.Machine

open Sys2Proof

/-! ### Pages of an engine instruction (R115, R239) -/

/-- Bytes of an operand from a virtual address on, cut at 4 KiB pages. -/
def pageRuns (va : Dword) (n : Nat) : List Run :=
  (List.range ((va.toNat % 4096 + n + 4095) / 4096)).map fun i =>
    let lo := if i = 0 then 0 else 4096 * i - va.toNat % 4096
    let hi := min n (4096 * (i + 1) - va.toNat % 4096)
    { lane := none, off := lo, va := va + BitVec.ofNat 64 lo, len := hi - lo }

/-- Bytes of a virtual range that lie at one place. -/
structure Mapped where
  va  : Dword
  len : Nat
  loc : Loc
  hs  : Bool

/-- The translations of an engine instruction's global operands, once the TLBs hold them. `ACC` 3 counts its lookups
(R343). -/
def State.engineRuns (s : State) (o : Who) (reads writes : List Run) : State × Except Stop (List Mapped) :=
  let (s, a) := s.translateRuns o .read 3 [] reads
  let (s, b) := s.translateRuns o .write 3 (a.map fun f => pageKey f.run f.res) writes
  let bad (k : Nat) (l : List Found) : List (Run × XFault × Nat) := l.filterMap fun f =>
    match f.res with | .ok _ => none | .error e => some (f.run, e, k)
  let all := bad 0 a ++ bad 1 b
  let faults := all.map fun x => (x.1, x.2.1)
  match nearFirst faults with
  | some x => (s, .error (.trap (nearTrap o x (nearLanes x.2.1 faults))))
  | none =>
    match all.findSome? fun x => match x.2.1 with | .far lv => some (x.1, lv, x.2.2) | .near _ _ => none with
    | some (r, lv, k) =>
      if s.canPark o r.va then (s, .error (.far { va := r.va, level := lv, acc := k })) else (s, .error (.stall 25))
    | none =>
      let place := fun (f : Found) => match f.res with
        | .ok x => (match s.region o.u.ctl x.pa with
          | some l => (.ok { va := f.run.va, len := f.run.len, loc := l, hs := x.hs } : Except TrapInfo Mapped)
          | none => .error (s.regionTrap o (a ++ b)))
        | .error _ => .error (s.regionTrap o (a ++ b))
      match (a ++ b).mapM place with
      | .ok l => (s, .ok l)
      | .error t => (s, .error (.trap t))

/-- Every page of an engine instruction's global operands is translated at issue, for which the part waits (R239); a fault
is precise and saves the whole part (R115). -/
def State.engineMap (s : State) (o : Who) (reads writes : List Run) : State × Except Stop (List Mapped) :=
  match s.fillTlbs o.g.core o.asid ((reads ++ writes).map fun r => r.va) with
  | (s, true) => (s, .error (.stall 24))
  | (_, false) => s.engineRuns o reads writes

/-- The place of a virtual address among mapped ranges. -/
def mapAt (l : List Mapped) (va : Dword) : Loc :=
  match l.find? fun m => m.va.toNat ≤ va.toNat && va.toNat < m.va.toNat + m.len with
  | some m => m.loc.add (va.toNat - m.va.toNat)
  | none => .dev 0

/-- One of an engine's reads of bytes, at the place itself; an error reads as zeros, and says so. -/
def State.engineRead (s : State) (l : Loc) (n : Nat) : State × List Byte × Bool :=
  match l with
  | .ctrl a => match s.ctrlRead a n with | (s, d) => (s, d, false)
  | _ =>
    let bad := s.badAt l n
    let zero := fun i => s.badAt (l.add (4 * (i / 4))) 4
    match s.readAt l n with
    | (t, d) => (t, if bad then d.zipIdx.map fun e => if zero e.2 then 0 else e.1 else d, bad)

/-- One of an engine's writes, performed at the place itself and entered in the core's signature (R218). -/
def State.engineWrite (s : State) (core : Nat) (l : Loc) (d : List Byte) : State :=
  match l with
  | .ctrl a => s.ctrlWrite a d
  | _ => (s.writeAt l d).noteWrite core l

/-! ### Descriptors (R238, R239) -/

/-- What a copy's registers say. -/
structure CopyDesc where
  src   : Dword
  dst   : Dword
  bytes : Nat
  rows  : Nat
  sp    : Nat
  dp    : Nat
  srcL  : Bool
  dstL  : Bool
  mask  : Option Dword
  barr  : Nat
  stamp : Dword
  value : Dword
  bad   : Bool

/-- The descriptor, read at issue. -/
def copyDesc (o : Who) (x : EngOp) (gather : Bool) : CopyDesc :=
  let r := x.a.num.toNat
  let b := x.b.num.toNat
  let w := fun i => (o.sreg (r + i)).toNat
  let dstL := !x.mod.getLsbD 1
  { src := o.spair r, dst := o.spair (r + 2), bytes := w 4 % 2 ^ 24, rows := w 5 % 65536, sp := w 6, dp := w 7,
    srcL := x.mod.getLsbD 0, dstL := dstL, mask := if gather then some (o.spair x.c.num.toNat) else none,
    barr := (o.sreg b).toNat, stamp := if dstL then 0 else o.spair b, value := if dstL then 0 else o.spair (b + 2),
    bad := w 4 / 2 ^ 24 != 0 || w 5 / 65536 != 0 }

/-- R239: what raises COPY_DESC. -/
def CopyDesc.illegal (d : CopyDesc) (lsz : Nat) : Bool :=
  let pitch := fun (p : Nat) => p % 4 != 0 || (1 < d.rows && p < d.bytes)
  let out := fun (l : Bool) (a : Dword) (p : Nat) => l && (2 ^ 32 ≤ a.toNat || lsz < a.toNat + (d.rows - 1) * p + d.bytes)
  d.bad || pitch d.dp || pitch d.sp || d.rows = 0 || (d.mask.isSome && 64 < d.rows) || d.bytes = 0 || d.bytes % 4 != 0 ||
  d.src.toNat % 4 != 0 || d.dst.toNat % 4 != 0 || 2 ^ 24 < d.rows * d.bytes || out d.srcL d.src d.sp ||
  out d.dstL d.dst d.dp || (d.dstL && (d.barr % 16 != 0 || lsz < d.barr + 20)) ||
  (!d.dstL && d.stamp.toNat % (if d.mask.isSome then 16 else 8) != 0)

/-- The rows that move, source and destination (R240). -/
def CopyDesc.moves (d : CopyDesc) (scatter : Bool) : List (Nat × Nat) :=
  match d.mask with
  | none => (List.range d.rows).map fun i => (i, i)
  | some m => ((List.range d.rows).filter m.getLsbD).zipIdx.map fun e => if scatter then (e.2, e.1) else (e.1, e.2)

/-- Bytes of a row, cut where the source or the destination passes into another sector. -/
def rowCuts (src dst : Nat) : Nat → Nat → Nat → List (Nat × Nat)
  | 0, _, _ => []
  | f + 1, off, n =>
    if n = 0 then []
    else
      let k := min n (min (32 - (src + off) % 32) (32 - (dst + off) % 32))
      (off, k) :: rowCuts src dst f (off + k) (n - k)

/-- Runs of the rows of a global end. -/
def rowRuns (a : Dword) (rows pitch bytes : Nat) : List Run :=
  (List.range rows).flatMap fun i => pageRuns (a + BitVec.ofNat 64 (i * pitch)) bytes

/-! ### The channel (R237, R244) -/

/-- The channel of a wave's copies. -/
def Who.channel (o : Who) : Nat := 2 * (o.g.core % 8) + o.w.index % 2

def State.channel (s : State) (cl ch : Nat) : Channel := ((s.cluster cl).chans.get ch).getD Channel.reset
def State.modChannel (s : State) (cl ch : Nat) (f : Channel → Channel) : State :=
  s.modCluster cl fun c => { c with chans := c.chans.put ch (f ((c.chans.get ch).getD Channel.reset)) }

/-- The channel's copies that have not completed, in issue order. -/
def State.waiting (s : State) (cl ch : Nat) : List Op :=
  (s.channel cl ch).queue.filterMap fun i => (s.op i).bind fun x => if x.done then none else some x

/-! ### Issue -/

/-- Arguments of a copy's operation: pieces of the source, global destination, barrier, stamp value, handle, bytes of
rows that are not selected, rows that are, whether it is a GCOPY or SCOPY, whether it has started. -/
def Op.arg (x : Op) (i : Nat) : Nat := (nth x.args i).toNat

/-- The pieces of a copy: sources, then destinations one for one, each with its destination row, then the stamp. -/
def copyPieces (o : Who) (d : CopyDesc) (scatter : Bool) (m : List Mapped) : List Piece :=
  let piece := fun (row : Nat) (va : Dword) (l : Loc) (n : Nat) =>
    ({ lane := 0, off := row, va := va, loc := l, len := n, data := [], hs := false } : Piece)
  let cuts := (d.moves scatter).flatMap fun e =>
    let a := d.src + BitVec.ofNat 64 (e.1 * d.sp)
    let b := d.dst + BitVec.ofNat 64 (e.2 * d.dp)
    (rowCuts a.toNat b.toNat (d.bytes / 4 + 1) 0 d.bytes).map fun c =>
      (e.2, a + BitVec.ofNat 64 c.1, b + BitVec.ofNat 64 c.1, c.2)
  let place := fun (l : Bool) (va : Dword) => if l then Loc.ls o.w.group va.toNat else mapAt m va
  cuts.map (fun c => piece c.1 c.2.1 (place d.srcL c.2.1) c.2.2.2) ++
    cuts.map (fun c => piece c.1 c.2.2.1 (place d.dstL c.2.2.1) c.2.2.2) ++
    (if d.dstL then [] else
      [{ piece 0 d.stamp (mapAt m d.stamp) (if d.mask.isSome then 16 else 8) with
         hs := ((m.find? fun p => p.va = d.stamp).map fun p => p.hs).getD false }])

/-- The checks of a copy, in the order of R239. -/
def State.copyCheck (s : State) (o : Who) (x : EngOp) (gather : Bool) : State × Except Stop (List Mapped) :=
  let d := copyDesc o x gather
  if d.illegal o.u.lsz then (s, .error (.trap (TrapInfo.plain codeCopyDesc o.p.pc)))
  else if 8 ≤ (s.waiting (clusterOf o.g.core) o.channel).length then (s, .error (.stall 26))
  else
    s.engineMap o (if d.srcL then [] else rowRuns d.src d.rows d.sp d.bytes)
      (if d.dstL then [] else rowRuns d.dst d.rows d.dp d.bytes ++ pageRuns d.stamp (if gather then 16 else 8))

/-- A copy enters its channel (R237, R244). -/
def State.issueCopy (s : State) (i : Instr) (o : Who) (x : EngOp) (gather scatter : Bool) (m : List Mapped) : State :=
  let d := copyDesc o x gather
  let cl := clusterOf o.g.core
  let serial := (s.channel cl o.channel).issued + 1
  let handle : Word := serial ++ BitVec.ofNat 4 o.channel
  let ps := copyPieces o d scatter m
  let n := (ps.length - if d.dstL then 0 else 1) / 2
  let (s, id) := s.fresh1
  let moved := (d.moves scatter).length
  let op := { blankOp o id (lineCounter o.p (headOf i).csel) .copy with
    scope := (x.mod.extractLsb' 5 3).toNat, hint := (x.mod.extractLsb' 2 3).toNat, pieces := ps,
    args := [BitVec.ofNat 32 n, if d.dstL then 0 else 1, BitVec.ofNat 32 d.barr, lo32 d.value, hi32 d.value, handle,
      BitVec.ofNat 32 ((d.rows - moved) * d.bytes), BitVec.ofNat 32 moved, if gather then 1 else 0, 0] }
  let s := s.modChannel cl o.channel fun c => { c with issued := serial, queue := (s.waiting cl o.channel).map (·.id) ++ [id] }
  let s := (s.addOp o op).sendPieces o op (ps.take n) (ps.drop n)
  let s := if op.scope = 5 then s.recallLines (ps.drop (2 * n)) else s
  ((s.writeS o x.dst handle.toNat).advance o.pr).settle

def execBcopy (x : EngOp) (s : State) : Host.Outcome State Fault Refusal :=
  s.issueWith (.bcopy x) (fun _ _ => []) (fun o s => s.copyCheck o x false)
    fun m o s => s.issueCopy (.bcopy x) o x false false m
def execGcopy (x : EngOp) (s : State) : Host.Outcome State Fault Refusal :=
  s.issueWith (.gcopy x) (fun _ _ => []) (fun o s => s.copyCheck o x true)
    fun m o s => s.issueCopy (.gcopy x) o x true false m
def execScopy (x : EngOp) (s : State) : Host.Outcome State Fault Refusal :=
  s.issueWith (.scopy x) (fun _ _ => []) (fun o s => s.copyCheck o x true)
    fun m o s => s.issueCopy (.scopy x) o x true true m

/-! ### Performing a copy (R240 to R243) -/

/-- R241, R242: bytes subtracted from a barrier's pending count; the excess is overfill. A barrier in uncorrectable error
stays so (log entry 82). -/
def State.subtractBytes (s : State) (g a n : Nat) : State :=
  if s.barrBad g a then s else
  let b := s.readBarr g a
  let b' := if n ≤ b.pend then { b with pend := b.pend - n }
    else { b with pend := 0, ovf := min (b.ovf + (n - b.pend)) (2 ^ 32 - 1) }
  s.writeBarr g a b'.settle

/-- A copy's bytes at its barrier; the copy that first overfills it is named in the record of OVERFILL (R360). -/
def State.countDown (s : State) (x : Op) (n : Nat) : State :=
  let a := x.arg 2
  let t := s.subtractBytes x.group a n
  if (s.readBarr x.group a).pend < n && (s.readBarr x.group a).ovf = 0 then
    t.modGroup x.group fun g => { g with overs := g.overs.put a x.pc }
  else t

/-- The place of a GCOPY's or SCOPY's row count, while it is still to be written (R240). -/
def Op.countPiece (x : Op) : List Piece :=
  if x.arg 9 = 1 || x.arg 8 = 0 then []
  else if x.arg 1 = 0 then
    [{ lane := 0, off := 0, va := 0, loc := .ls x.group (x.arg 2 + 16), len := 4, data := leBytes 4 (x.arg 7), hs := false }]
  else (x.pieces[2 * x.arg 0]?).toList.map fun p => { p with loc := p.loc.add 8, len := 8, data := leBytes 8 (x.arg 7) }

/-- The first event of a copy writes a GCOPY's or SCOPY's row count (R240). -/
def State.startCopy (s : State) (g : Group) (x : Op) : State :=
  if x.arg 9 = 1 then s
  else
    x.countPiece.foldl (fun s p =>
      match p.loc with
      | .ls _ _ => s.setBytes p.loc p.data
      | _ => s.engineWrite g.core p.loc p.data) (s.modOp x.id fun y => { y with args := y.args.set 9 1 })

/-- A source sector is read. -/
def State.copyFetch (s : State) (id i : Nat) : State :=
  match s.op id with
  | none => s
  | some x =>
    match x.pieces[i]? with
    | none => s
    | some p =>
      if (x.seen.get i).isSome then s
      else
        let errs := s.errsAt p.loc p.len
        let (s, d, bad) := s.engineRead p.loc p.len
        s.modOp id fun y => { y with seen := y.seen.put i d, acc := if bad then y.acc.put i errs else y.acc }

/-- A destination sector is written, and counted at the barrier. -/
def State.copyWrite (s : State) (g : Group) (u : WorkUnit) (id i : Nat) : State :=
  let s := s.copyFetch id i
  match s.op id with
  | none => s
  | some x =>
    match x.pieces[x.arg 0 + i]?, x.seen.get i with
    | some p, some d =>
      let s := s.engineWrite g.core p.loc d
      let s := s.noteHint u.ctx x.hint p
      let s := if x.arg 1 = 0 then s.countDown x p.len else s
      s.modOp id fun y => { y with seen := y.seen.put (y.arg 0 + i) [] }
    | _, _ => s

/-- The channel of a copy, and whether every earlier copy of it has started, or has completed (R237). -/
def copyChannel (g : Group) (x : Op) : Nat × Nat := (clusterOf g.core, x.arg 5 % 16)
def State.copyTurn (s : State) (g : Group) (x : Op) : Bool :=
  ((s.waiting (copyChannel g x).1 (copyChannel g x).2).takeWhile fun y => y.id != x.id).all fun y => y.arg 9 = 1
def State.copyHead (s : State) (g : Group) (x : Op) : Bool :=
  match s.waiting (copyChannel g x).1 (copyChannel g x).2 with
  | y :: _ => y.id = x.id
  | [] => true

/-- R240: the source pieces that stand for a list of them: a source sector is read as one. -/
def Op.sources (x : Op) (l : List Nat) : List Nat :=
  let at_ := dedup (l.filterMap fun i => (x.pieces[i]?).map fun p => p.loc.sector)
  (List.range (x.arg 0)).filter fun i => (x.seen.get i).isNone && (x.pieces[i]?).any fun p => at_.contains p.loc.sector

/-- R240: the destination pieces that stand for a list of them: of a row, a sector is written as one. -/
def Op.targets (x : Op) (l : List Nat) : List Nat :=
  let n := x.arg 0
  let at_ := dedup (l.filterMap fun i => (x.pieces[n + i]?).map fun p => (p.off, p.loc.sector))
  (List.range n).filter fun i =>
    (x.seen.get (n + i)).isNone && (x.pieces[n + i]?).any fun p => at_.contains (p.off, p.loc.sector)

/-- COPY_WRITE_PERFORMED: an index below the number of pieces is a source read alone; one above is a destination write;
none is every write that is left. -/
def stepCopyWritePerformed (op : Nat) (sel : List Nat) (s : State) : Host.Outcome State Fault Refusal :=
  .next <|
    match s.liveOp op (fun k => k = .copy) with
    | none => s
    | some (x, g, u) =>
      let n := x.arg 0
      let l := if sel = [] then (List.range n).filter fun i => (x.seen.get (n + i)).isNone
        else x.targets ((sel.filter fun i => n ≤ i && i < 2 * n && (x.seen.get i).isNone).map fun i => i - n)
      let f := x.sources ((sel.filter fun i => i < n) ++ l.filter fun i => (x.seen.get i).isNone)
      if s.copyTurn g x && s.clearOf x (x.countPiece ++ x.piecesAt (f ++ l ++ l.map fun i => n + i)) then
        let s := (s.startCopy g x).tellFabric u x false (x.piecesAt (f ++ l.map fun i => n + i))
        let s := f.foldl (fun s i => s.copyFetch op i) s
        l.foldl (fun s i => s.copyWrite g u op i) s
      else s

/-- R243, R361: the COPY_DATA of a copy whose source had an error. -/
def copyFault (x : Op) (code cause : Nat) (aux1 : Word) : Pending :=
  { opFault { x with pieces := x.pieces.take (x.arg 0) } code cause 0
      (errAddr { x with pieces := x.pieces.take (x.arg 0) }) aux1 with
    barr := if x.arg 1 = 0 then some (x.arg 2) else none, hand := some (nth x.args 5) }

/-- The faults of a copy: uncorrectable errors of its source (R243), and losses (R355). -/
def copyFaults (x : Op) : List Pending :=
  let a := x.flagged fun f => f = 1
  (if (errSpot a).isNone then [] else [copyFault a codeCopyData 0 (nth x.args 5)]) ++
    ((lossErr x).map fun f => { copyFault x codeLoss f.cause f.aux1 with addr := f.addr }).toList

/-- A copy has completed: its channel moves on and its counter retires. -/
def State.closeCopy (s : State) (g : Group) (x : Op) (l : List Pending) : State :=
  let (cl, ch) := copyChannel g x
  let s := s.modChannel cl ch fun c =>
    { c with doneS := BitVec.ofNat 28 (x.arg 5 / 16), queue := c.queue.filter fun i => i != x.id }
  (l.foldl (fun s f => s.pend x.wave f) s).opDone x.id

/-- The stamp: a release of the payload, the copy's last write (R241). -/
def State.writeStamp (s : State) (g : Group) (x : Op) : State :=
  match x.pieces[2 * x.arg 0]? with
  | none => s
  | some p =>
    let s := match p.loc with
      | .dev a => s.carry a ((s.core g.core).sig, (s.core g.core).z)
      | _ => s
    (s.engineWrite g.core p.loc (leBytes 8 (pair (nth x.args 3) (nth x.args 4)).toNat)).afterRelease g.core

/-- COPY_COMPLETE: every write has been performed; the bytes of rows that were not selected are counted, or the stamp is
written, a release (R241, R213 item 3). -/
def stepCopyComplete (op : Nat) (s : State) : Host.Outcome State Fault Refusal :=
  .next <|
    match s.liveOp op (fun k => k = .copy) with
    | none => s
    | some (x, g, u) =>
      let n := x.arg 0
      let stamp := x.pieces.drop (2 * n)
      if s.copyHead g x && ((List.range n).all fun i => (x.seen.get (n + i)).isSome) && s.clearOf x (x.countPiece ++ stamp) &&
          (stamp.isEmpty || s.releaseReady x) && !(x.scope = 5 && stamp.any s.snooping) then
        let s := (s.startCopy g x).tellFabric u x true stamp
        let s := if x.arg 1 = 0 then (if x.arg 6 = 0 then s else s.countDown x (x.arg 6))
          else if (x.seen.get (2 * n)).isSome then s else s.writeStamp g x
        s.closeCopy g x (copyFaults x)
      else s.recallFor { x with pieces := stamp }

/-! ### CPOLL (R244) -/

/-- R243: the undelivered faults of the copies that the waves of a group have issued: those pending, those that are to
become pending as their copy retires, and those of copies that have written every byte and have still to complete. -/
def State.copyDue (s : State) (group : Nat) : List (Nat × Pending) :=
  let waves := s.waves.filter fun w => w.2.group = group
  let kept := fun (w : Nat) (f : Pending) => waves.any fun v => v.1 = w && v.2.pend.any fun p => p.holds f
  let copies := s.ops.filter fun x => x.kind = .copy && x.group = group
  (waves.flatMap fun w => (w.2.pend.filter fun f => f.hand.isSome).map fun f => (w.1, f)) ++
  (copies.flatMap fun x => (x.owed.filter fun f => !kept x.wave f).map fun f => (x.wave, f)) ++
  (copies.filter fun x => !x.done && (List.range (x.arg 0)).all fun i => (x.seen.get (x.arg 0 + i)).isSome).flatMap fun x =>
    (copyFaults x).map fun f => (x.wave, f)

/-- The fault of a copy is delivered: nothing raises it again. -/
def State.deliverCopy (s : State) (w : Nat) (f : Pending) : State :=
  ((s.modWave w fun v => { v with pend := v.pend.filter fun g => !(g.hand.isSome && g.op = f.op && g.code = f.code) }).disown f).modOp
    f.op fun y => if y.done then y else y.flagged fun v => if f.code = codeLoss then v = 1 else v != 1

/-- The undelivered fault of a copy that a wave of the group issued. -/
def State.pollFault (s : State) (group : Nat) (h : Word) : Option (Nat × Pending) :=
  (s.copyDue group).find? fun e => e.2.hand = some h

def execCpoll (x : EngOp) (s : State) : Host.Outcome State Fault Refusal :=
  s.issueWith (α := Unit) (.cpoll x) (fun _ _ => [])
    (fun o s =>
      match s.pollFault o.w.group (o.sreg x.a.num.toNat) with
      | some (w, f) => (s.deliverCopy w f, .error (.trap (f.trap o.p.pc)))
      | none => (s, .ok ()))
    fun _ o s =>
      let h := o.sreg x.a.num.toNat
      let c := s.channel (clusterOf o.g.core) (h.toNat % 16)
      (s.writeS o x.dst (if (c.doneS - BitVec.ofNat 28 (h.toNat / 16)).toNat < 2 ^ 27 then 1 else 0)).finish o (.cpoll x)

/-! ### The weight store (R128, R150, R151) -/

/-- What raises WS_DESC. -/
def wsBad (d : Nat) (a : Dword) (n : Nat) : Bool :=
  d % 64 != 0 || a.toNat % 64 != 0 || n % 64 != 0 || n < 64 || 65536 < n || 2 ^ 32 < d + n

/-- WSWRITE's destination, source and length. -/
def wsArgs (o : Who) (x : EngOp) : Nat × Dword × Nat :=
  ((o.sreg x.dst.num.toNat).toNat, o.spair x.a.num.toNat, (o.sval x.b).toNat)

def execWswrite (x : EngOp) (s : State) : Host.Outcome State Fault Refusal :=
  s.issueWith (.wswrite x) (fun _ _ => [])
    (fun o s =>
      let (d, a, n) := wsArgs o x
      if wsBad d a n then (s, .error (.trap (TrapInfo.plain codeWsDesc o.p.pc)))
      else if s.wsReaders (dieOf o.g.core) then (s, .error (.trap (TrapInfo.plain codeWsBusy o.p.pc)))
      else s.engineMap o (pageRuns a n) [])
    fun m o s =>
      let (d, a, n) := wsArgs o x
      let (s, id) := s.fresh1
      let piece := fun (va : Dword) (l : Loc) =>
        ({ lane := 0, off := 0, va := va, loc := l, len := 32, data := [], hs := false } : Piece)
      let src := (List.range (n / 32)).map fun i =>
        piece (a + BitVec.ofNat 64 (32 * i)) (mapAt m (a + BitVec.ofNat 64 (32 * i)))
      let dst := (List.range (n / 32)).map fun i => piece 0 (.ws (dieOf o.g.core) (d + 32 * i))
      let op := { blankOp o id (lineCounter o.p x.h.csel) .wsWrite with
        pieces := src ++ dst, args := [BitVec.ofNat 32 (n / 32)] }
      (((s.addOp o op).sendPieces o op src []).advance o.pr).settle

/-- The fault of a WSWRITE whose source had an error, as of a copy (R2, log entry 25); none where it had none. -/
def State.wsFault (s : State) (x : Op) : State :=
  if x.acc.isEmpty then s else s.pend x.wave (opFault x codeCopyData 0 0 (errAddr x) 0)

/-- WSWRITE_COMPLETE: every byte is written, zeros for those in error (R2). -/
def stepWswriteComplete (op : Nat) (s : State) : Host.Outcome State Fault Refusal :=
  .next <|
    match s.liveOp op (fun k => k = .wsWrite) with
    | none => s
    | some (x, g, u) =>
      if s.clearOf x x.pieces then
        let n := x.arg 0
        let s := s.tellFabric u x false x.pieces
        ((List.range n).foldl (fun s i =>
          match x.pieces[i]?, x.pieces[n + i]? with
          | some p, some q =>
            let errs := s.errsAt p.loc p.len
            let (s, d, bad) := s.engineRead p.loc p.len
            let s := if bad then s.modOp op fun y => { y with acc := y.acc.put i errs } else s
            s.engineWrite g.core q.loc d
          | _, _ => s) s) |> fun s => (match s.op op with | some y => s.wsFault y | none => s).opDone op
      else s

/-- The start of the window that R151 reports, and whether the bank is in it. -/
def State.windowOf (s : State) (b : Nat) : Nat × Bool :=
  let t := s.time.toNat
  match leastBy id (s.windows b) with
  | some e => ((t + 2 ^ 48 - e) % 2 ^ 48, true)
  | none => ((t + 64000 - bankPhase t b) % 2 ^ 48, false)

def execWswin (x : EngOp) (s : State) : Host.Outcome State Fault Refusal :=
  s.issue (.wswin x) fun o s =>
    let a := s.scalar o x.a 0
    let b := wsBank a.toNat
    let (t, inw) := s.windowOf b
    (s.writeSS o x.dst (t + b * 2 ^ 48 + if inw then 2 ^ 63 else 0)).finish o (.wswin x)

/-- The stall reason of a part that no longer waits for a bank. -/
def plainReason (p : Part) : Nat :=
  match p.hold with
  | .lineMask => 1
  | .instr (.mwait _) => 18
  | .instr _ => 2
  | _ => 3

/-- WS_WINDOW_END: the bank's window has ended; its reads go on, and the parts of the die that waited for it no longer
report reason 19 (R131). -/
def stepWsWindowEnd (die bank : Nat) (s : State) : Host.Outcome State Fault Refusal :=
  .next <|
    if s.windows bank != [] then s
    else
      s.parts.foldl (fun s pr =>
        match s.who pr with
        | some o =>
          if o.p.stall = 19 && dieOf o.g.core = die && !(s.turnsFor o fun _ => true) then
            s.modPart pr fun p => { p with stall := plainReason p }
          else s
        | none => s) s

/-! ### Multicast (R245, R246) -/

/-- The collective group and the offset of a lane's address. -/
def collAddr (a : Dword) : Nat × Nat := (a.toNat / 2 ^ 52, a.toNat % 2 ^ 52)

/-- The traps of R245, in order. -/
def State.collTrap (s : State) (o : Who) (x : MemOp) (w : Nat) : Option TrapInfo :=
  let l := laneAddrs o x
  let first := fun (code : Nat) (p : Dword → Bool) => accTrap o code (l.filter fun e => p e.2)
  match first codeCollGroup fun a =>
      let c := s.collAt (collAddr a).1
      !c.isOpen || c.ctx.toNat != o.asid with
  | some t => some t
  | none =>
    match first codeCollRange fun a => (s.collAt (collAddr a).1).wsize.toNat < (collAddr a).2 + w with
    | some t => some t
    | none => first codeMemAlign fun a => a.toNat % w != 0

/-- The members of a group. -/
def Coll.list (c : Coll) : List Nat := maskBits c.members

/-- Where a member's window byte lies: this device's register, or the other device's own. -/
def State.windowLoc (s : State) (g m off : Nat) : Loc :=
  if m = s.link.devid.toNat then .dev (((s.collAt g).wbase.toNat + off) % 2 ^ 39)
  else .peer m ((Config.peerWindow m g * 65536 + off) % 2 ^ 39)

/-- One lane's pieces at one member. -/
def State.deliverPieces (s : State) (lane : Nat) (a : Dword) (data : List Byte) (m : Nat) : List Piece :=
  let (g, off) := collAddr a
  (List.range ((data.length + 7) / 8)).map fun i =>
    { lane := lane, off := 8 * i, va := a + BitVec.ofNat 64 (8 * i), loc := s.windowLoc g m (off + 8 * i),
      len := min 8 (data.length - 8 * i), data := (data.drop (8 * i)).take 8, hs := false }

/-- The pieces of a multicast: by lane and member. -/
def State.multiPieces (s : State) (o : Who) (x : MemOp) (data : Nat → List Byte) : List Piece :=
  (laneAddrs o x).flatMap fun e => (s.collAt (collAddr e.2).1).list.flatMap fun m =>
    s.deliverPieces (e.1.getD 0) e.2 (data (e.1.getD 0)) m

/-- Each delivery adds 1 to its group's drain count (R246). -/
def State.addDrains (s : State) (o : Who) (x : MemOp) : State :=
  (laneAddrs o x).foldl (fun s e =>
    s.modColl (collAddr e.2).1 fun c => { c with drain := c.drain + BitVec.ofNat 32 c.list.length }) s

/-- A multicast issues. -/
def State.issueMulti (s : State) (i : Instr) (o : Who) (x : MemOp) (kind : OpKind) (data : Nat → List Byte) : State :=
  let ps := s.multiPieces o x data
  if ps.isEmpty then s.finish o i
  else
    let (s, id) := s.fresh1
    let n := ((s.waves.get o.pr.wave).map fun w => w.seqs.atom).getD 0
    let op := memOp o x id kind ps
    let s := if ticketed o.u kind op.code then
        s.modWave o.pr.wave fun w => { w with seqs := { w.seqs with atom := w.seqs.atom + 1 } }
      else s
    (s.addDrains o x).launchOp o { op with args := [if carriesSig o op then 1 else 0, n] } false

/-- The slices of this device that a multicast touches (R394). -/
def multiSlices (x : MemOp) (w : Nat) (o : Who) (s : State) : List Nat :=
  pieceSlices (s.multiPieces o x fun _ => leBytes w 0)

def execMcst (x : MemOp) (s : State) : Host.Outcome State Fault Refusal :=
  s.issueWith (α := Unit) (.mcst x) (multiSlices x (sizeBytes x.szty.toNat))
    (fun o s => match s.collTrap o x (sizeBytes x.szty.toNat) with
      | some t => (s, .error (.trap t))
      | none => (s, .ok ()))
    fun _ o s => s.issueMulti (.mcst x) o x .mcst fun l => storeBytes x.szty.toNat (storeWords o x l)

def execMred (x : MemOp) (s : State) : Host.Outcome State Fault Refusal :=
  let w := atomBytes x.szty.toNat
  s.issueWith (α := Unit) (.mred x) (multiSlices x w)
    (fun o s => match s.collTrap o x w with
      | some t => (s, .error (.trap t))
      | none => (s, .ok ()))
    fun _ o s => s.issueMulti (.mred x) o x .mred fun l => leBytes w (atomOperand o x w 0 l)

/-- A delivery: lane and member of its number, 256 times the lane plus the member. -/
def Piece.goesTo (p : Piece) (own n : Nat) : Bool :=
  p.lane = n / 256 && (match p.loc with | .peer d _ => d = n % 256 | _ => own = n % 256)

/-- R246, R221: a release carries the device's Σ, its Z the device time. -/
def State.carryAll (s : State) (x : Op) (l : Loc) : State :=
  match l with
  | .dev a => if x.carries then s.carry a (s.allSigs.1, s.time) else s
  | _ => s

/-- One piece of a multicast store at a member. -/
def State.castWrite (s : State) (g : Group) (u : WorkUnit) (x : Op) (p : Piece) : State :=
  let s := (s.carryAll x p.loc).writePiece g.core 0 false p
  (s.noteRun g u x p true).noteHint u.ctx x.hint p

/-- One reduction step at a member; its read may meet an error. -/
def State.castReduce (s : State) (g : Group) (u : WorkUnit) (x : Op) (p : Piece) : State × Bool :=
  let s := s.carryAll x p.loc
  let s := s.noteTicket u x p
  if s.badAt p.loc p.len then (s, true)
  else
    if u.fixed && (x.code = 13 || x.code = 14) && p.loc.exact then
      (s.atomFixed g u { x with args := [] } p.loc p.data, false)
    else
      let (s, d) := s.readAt p.loc p.len
      let v := atomResult x.code (leNat d) (leNat p.data)
      let s := s.noteRun g u x p true
      (s.writePiece g.core 0 false { p with data := leBytes p.len v }, false)

/-- A fault of a multicast, pending on its counter or held for the wave (R355). -/
def State.castFault (s : State) (x : Op) (code cause lane : Nat) (va : Dword) (aux1 : Word) : State :=
  s.pend x.wave (opFault x code cause (bit1 64 lane) va aux1)

/-- MCST_DELIVERY_PERFORMED: a delivery, numbered 256 times its lane plus its member, is performed at its member or, away
from this device, lost; DRAIN falls (R246, R355). -/
def stepMcstDeliveryPerformed (op member : Nat) (lost : Bool) (s : State) : Host.Outcome State Fault Refusal :=
  .next <|
    match s.liveOp op (fun k => k = .mcst || k = .mred) with
    | none => s
    | some (x, g, u) =>
      let own := s.link.devid.toNat
      let l := x.indexed ((x.pick []).filter fun i => match x.pieces[i]? with
        | some p => p.goesTo own member
        | none => false)
      match l with
      | [] => s
      | (_, p) :: _ =>
        if (lost && member % 256 = own) || !s.clearOf x (l.map fun e => e.2) || (x.releases && !s.releaseReady x) ||
            !(l.all fun e => s.admits g u x e.2 true && s.ticketTurn g u x e.2) then s
        else
          let port := BitVec.ofNat 32 (Config.fabricPort (member % 256))
          let s :=
            if lost then s.castFault x codeLoss 0 (member / 256) p.va port
            else l.foldl (fun s e =>
              let s := s.tellFabric u x x.carries [e.2]
              if x.kind = .mcst then s.castWrite g u x e.2
              else
                match s.castReduce g u x e.2 with
                | (s, true) => s.castFault x codeMemData 4 (member / 256) p.va 0
                | (s, false) => s) s
          let s := s.modColl (collAddr p.va).1 fun c => { c with drain := c.drain - 1 }
          let s := s.modOp op fun y => { y with seen := l.foldl (fun t e => Tbl.put t e.1 []) y.seen }
          match s.op op with
          | some y => if y.opens.isEmpty then (if x.carries then s.afterRelease g.core else s).opDone op else s
          | none => s

end Sys2Proof.Machine
end

