-- ==== Sys2Proof/Machine/Fmu.lean ====
section
/-! DEFINITION. The fine matrix unit (R102 to R123): accumulator tokens, batches, MMA and MMAS, reads and writes of cells,
drains. -/

namespace Sys2Proof.Machine

open Sys2Proof

/-! ### Tiles and tokens (R103 to R106) -/

/-- The tiles an instruction names: one, or a pair. -/
def tilesOf (n : Nat) (two : Bool) : List Nat := if two then [n, n + 1] else [n]

/-- Whether the FMU holds a tile's token: no part does. -/
def fmuHolds (g : Group) (n : Nat) : Bool := (g.token.get n).isNone

/-- Whether a part holds it. -/
def partHolds (o : Who) (n : Nat) : Bool := o.g.token.get n = some o.pr

/-- A cell's bits. -/
def Group.cell (g : Group) (n e : Nat) : Word := (g.acc.get (n * 1024 + e)).getD 0

/-- A cell written. -/
def Group.setCell (g : Group) (n e : Nat) (v : Word) : Group := 
  { g with acc := g.acc.put (n * 1024 + e) v, accErr := g.accErr.filter fun k => k != n * 1024 + e }

/-- A cell read as a format: F64 takes the pair (R104). -/
def Group.cellBits (g : Group) (n e cf : Nat) : Nat :=
  match cf with
  | 0 => (pair (g.cell n e) (g.cell (n + 1) e)).toNat
  | 1 => (g.cell n e).toNat
  | _ => (g.cell n e).toNat % 65536

/-- A value written in a format. -/
def Group.putCell (g : Group) (n e cf v : Nat) : Group :=
  let g := g.setCell n e (BitVec.ofNat 32 v)
  if cf = 0 then g.setCell (n + 1) e (BitVec.ofNat 32 (v / 2 ^ 32)) else g

/-- Every cell of some tiles +0 (R115, R122). -/
def Group.zeroTiles (g : Group) (l : List Nat) : Group :=
  { g with acc := g.acc.filter fun e => !l.contains (e.1 / 1024),
           accErr := g.accErr.filter fun k => !l.contains (k / 1024) }

/-- Whether a cell of some tiles is in error. -/
def Group.tilesBad (g : Group) (l : List Nat) : Bool := g.accErr.any fun k => l.contains (k / 1024)

/-- Whether an element's cell, or its pair, is. -/
def Group.cellBad (g : Group) (n e : Nat) (two : Bool) : Bool := (tilesOf n two).any fun t => g.accErr.contains (t * 1024 + e)

/-! ### Queues and batches (R110, R113, R114, R120) -/

/-- Operations of a path on a core that have not reached completion, in issue order. -/
def State.engineQueue (s : State) (core path : Nat) : List Op :=
  s.ops.filter fun x => !x.done && x.kind.path = path && x.kind != .done && s.onCore core x

/-- Position of a batch number in its sequence. -/
def batchPos (v : Nat) : Nat := (v + 65534) % 65535

/-- How far a batch lies behind the last closed one. -/
def batchDist (last b : Nat) : Nat := (batchPos last + 65535 - batchPos b) % 65535

/-- The batches of a wave at a unit: 0 the FMU, 1 the TA. -/
def Wave.batches (w : Wave) (unit : Nat) : Batches := if unit = 0 then w.fmu else w.ta
def Wave.setBatches (w : Wave) (unit : Nat) (b : Batches) : Wave := if unit = 0 then { w with fmu := b } else { w with ta := b }

/-- The path of a unit's operations (R211). -/
def unitPath (unit : Nat) : Nat := if unit = 0 then 2 else 3

/-- R114: all operations of a batch and of the earlier ones have completed. -/
def State.batchDone (s : State) (wave unit b : Nat) : Bool :=
  s.ops.all fun x => x.done || x.wave != wave || x.kind.path != unitPath unit || x.kind = .done ||
    32767 < batchDist b x.batch

/-- The number of the wave's open batch. -/
def State.openBatch (s : State) (wave unit : Nat) : Nat :=
  ((s.waves.get wave).map fun w => (w.batches unit).openNum).getD 1

/-- A fault that a batch carries. -/
def State.batchFault (s : State) (x : Op) (unit code sub : Nat) (addr : Dword) (val aux1 : Word) : State :=
  s.modWave x.wave fun w =>
    let b := w.batches unit
    w.setBatches unit { b with faults := b.faults ++
      [{ code := code, num := x.batch, sub := sub, pc := x.pc, addr := addr, val := val, aux1 := aux1 }] }

/-- Stall reason of a wait for the batches of a unit. -/
def unitReason (unit : Nat) : Nat := if unit = 0 then 17 else 18

/-- MFENCE: the open batch is closed, unless 32 are kept and the oldest is not complete (R114, R120). -/
def execMfence (x : EngOp) (s : State) : Host.Outcome State Fault Refusal :=
  let unit := (x.mod.extractLsb' 0 2).toNat
  s.issueWith (α := Unit) (.mfence x) (fun _ _ => [])
    (fun o s =>
      let l := (o.w.batches unit).closed
      if 32 ≤ l.length && !(s.batchDone o.pr.wave unit (l.headD 0)) then (s, .error (.stall 17))
      else (s, .ok ()))
    fun _ o s =>
      let b := o.w.batches unit
      let n := b.openNum
      let l := b.closed ++ [n]
      let s := s.modWave o.pr.wave fun w => w.setBatches unit
        { b with openNum := n % 65535 + 1, closed := l.drop (l.length - 32) }
      (s.writeS o x.dst n).finish o (.mfence x)

/-- R120: the rows of MWAIT: BATCH_RANGE, a wait, or none. -/
inductive WaitRow where
  | range
  | wait
  | past
deriving DecidableEq, Repr

def waitRow (l : List Nat) (b : Nat) : WaitRow :=
  match l.getLast? with
  | none => .range
  | some last =>
    if b = 0 then .range
    else if batchDist last b ≤ 31 then .wait
    else if batchDist last b ≤ 32767 then .past
    else .range

/-- The oldest undelivered fault of batches up to b. -/
def waitFault (w : Wave) (unit b : Nat) : Option (BatchFault × Wave) :=
  (takeBatch (fun f => batchDist b f.num ≤ 32767) (w.batches unit).faults).map fun r =>
    (r.1, w.setBatches unit { w.batches unit with faults := r.2 })

/-- MWAIT is over: a fault is delivered before it, or the part goes on. -/
def State.passMwait (s : State) (o : Who) (x : EngOp) (unit b : Nat) : State :=
  match waitFault o.w unit b with
  | some (f, w) => (s.modWave o.pr.wave fun _ => w).takeTrap o.pr (f.trap o.p.pc)
  | none => s.finish o (.mwait x)

/-- Unit and batch of a MWAIT. Where A differs from lane to lane, lane 0's counts, a DESIGN CHOICE (log entry 75). -/
def State.mwaitArgs (s : State) (o : Who) (x : EngOp) : Nat × Nat :=
  ((x.mod.extractLsb' 0 2).toNat, (s.scalar o x.a 0).toNat % 65536)

/-- Stall reason of a MWAIT for the wave's batches up to b: 17 or 18, but 19 where a TWLD of theirs reads a bank in its
turning window (R114, R131). -/
def State.mwaitReason (s : State) (o : Who) (unit b : Nat) : Nat :=
  if unit = 1 && s.ops.any (fun y => y.wave = o.pr.wave && !y.done && y.kind = .twld && batchDist b y.batch ≤ 32767 &&
      y.opens.any fun q => s.turning q.loc) then 19
  else unitReason unit

def execMwait (x : EngOp) (s : State) : Host.Outcome State Fault Refusal :=
  s.issueWith (α := Unit) (.mwait x) (fun _ _ => [])
    (fun o s =>
      let (unit, b) := s.mwaitArgs o x
      if waitRow (o.w.batches unit).closed b = .range then
        (s, .error (.trap { TrapInfo.plain codeBatchRange o.p.pc with val := BitVec.ofNat 32 b }))
      else (s, .ok ()))
    fun _ o s =>
      let (unit, b) := s.mwaitArgs o x
      if waitRow (o.w.batches unit).closed b = .past || s.batchDone o.pr.wave unit b then s.passMwait o x unit b
      else (s.modPart o.pr fun p => { p with timer := b }).holdOn o.pr (.mwait x) (s.mwaitReason o unit b)

/-- MWAIT_RELEASE: the batch that the MWAIT read at its issue, which `timer` keeps, has completed. -/
def stepMwaitRelease (p : PartRef) (s : State) : Host.Outcome State Fault Refusal :=
  .next <|
    match s.who p with
    | some o =>
      match o.p.hold, o.p.status with
      | .instr (.mwait x), .resident =>
        let unit := (x.mod.extractLsb' 0 2).toNat
        if s.batchDone p.wave unit o.p.timer then s.passMwait o x unit o.p.timer else s
      | _, _ => s
    | none => s

/-! ### MACQ and MREL (R118) -/

/-- Tiles of an FMU operation. -/
def Op.tiles (x : Op) : List Nat := tilesOf x.dst.num.toNat (fmtC x.fmt = 0)

/-- No FMU operation on a tile of a group is outstanding. -/
def State.tileFree (s : State) (group n : Nat) : Bool :=
  s.ops.all fun x => x.done || x.group != group || x.kind.path != 2 || !x.tiles.contains n

/-- A part that waits for the token of a tile of the group. -/
def State.macqWaiters (s : State) (group n : Nat) : List (PartRef × Part) :=
  s.waves.flatMap fun w =>
    if w.2.group = group then
      (w.2.parts.filter fun p => match p.2.hold with
        | .instr (.macq x) => x.dst.num.toNat = n && p.2.status = .resident
        | _ => false).map fun p => ({ wave := w.1, part := p.1 }, p.2)
    else []

/-- R106: a grant is a decision, kind 4. -/
def State.grant (s : State) (o : Who) (x : EngOp) : State :=
  let n := x.dst.num.toNat
  let s := s.modGroup o.w.group fun g => { g with token := g.token.put n o.pr }
  (s.decide o 4 0 o.pr.part o.p.pc.toNat o.p.quads.toNat n).finish o (.macq x)

/-- Whether a token is free, and the replay gives it to this part. -/
def State.mayGrant (s : State) (o : Who) (n : Nat) : Bool :=
  fmuHolds o.g n && s.tileFree o.w.group n && s.mayDecide o 4

def execMacq (x : EngOp) (s : State) : Host.Outcome State Fault Refusal :=
  s.issue (.macq x) fun o s =>
    let n := x.dst.num.toNat
    if partHolds o n then s.finish o (.macq x)
    else if s.mayGrant o n && (s.macqWaiters o.w.group n).isEmpty then s.grant o x
    else
      let (s, stamp) := s.fresh1
      (s.modPart o.pr fun p => { p with timer := ktoClk o.cutp, stamp := stamp }).holdOn o.pr (.macq x) 16

/-- MACQ_GRANT: to the part that began waiting first. -/
def stepMacqGrant (p : PartRef) (s : State) : Host.Outcome State Fault Refusal :=
  .next <|
    match s.who p with
    | some o =>
      match o.p.hold, o.p.status with
      | .instr (.macq x), .resident =>
        if s.mayGrant o x.dst.num.toNat &&
            (s.macqWaiters o.w.group x.dst.num.toNat).all (fun q => o.p.stamp ≤ q.2.stamp) then s.grant o x
        else s
      | _, _ => s
    | none => s

/-- MACQ_TIMEOUT: another part has held the token for the knit timeout; ACC_TOKEN, the token unchanged. -/
def stepMacqTimeout (p : PartRef) (s : State) : Host.Outcome State Fault Refusal :=
  .next <|
    match s.who p with
    | some o =>
      match o.p.hold, o.p.status with
      | .instr (.macq x), .resident =>
        if o.p.timer = 0 && !fmuHolds o.g x.dst.num.toNat then s.trapHere o codeAccToken else s
      | _, _ => s
    | none => s

/-- MREL: the part's reads and writes of cells are complete at their issue (R121). -/
def execMrel (x : EngOp) (s : State) : Host.Outcome State Fault Refusal :=
  s.issueIf (.mrel x)
    (fun o _ => if partHolds o x.dst.num.toNat then none else some (TrapInfo.plain codeAccToken o.p.pc))
    fun o s => (s.modGroup o.w.group fun g => { g with token := g.token.del x.dst.num.toNat }).finish o (.mrel x)

/-! ### MRD and MWR (R121) -/

/-- Element index of a lane. -/
def State.cellIndex (s : State) (o : Who) (a : Src) (l : Nat) : Nat := s.ctlOf o a l % 1024

/-- The part must hold the tokens of the tiles. -/
def cellTrap (o : Who) (n : Nat) (two : Bool) : Option TrapInfo :=
  if (tilesOf n two).all (partHolds o) then none else some (TrapInfo.plain codeAccToken o.p.pc)

/-- A cell in error reads as zero, and the error is held against the register, as of a load (log entry 45). -/
def State.holdCells (s : State) (o : Who) (x : EngOp) (two : Bool) (l : List Nat) : State :=
  if l.isEmpty then s
  else
    s.modWave o.pr.wave fun w => { w with errs := w.errs ++ l.flatMap fun lane =>
      (List.range (if two then 2 else 1)).map fun i =>
        { cls := 0, num := x.dst.num.toNat + i, unit := lane, pc := o.p.pc, addr := 0, loss := none } }

def execMrd (x : EngOp) (s : State) : Host.Outcome State Fault Refusal :=
  let n := (x.mod.extractLsb' 0 3).toNat
  let two := WF.cellWide x.mod
  s.issueIf (.mrd x) (fun o _ => cellTrap o n two) fun o s =>
    let bad := fun l => o.g.cellBad n (s.cellIndex o x.a l) two
    let f := fun l => if bad l then 0 else o.g.cellBits n (s.cellIndex o x.a l) (if two then 0 else 1)
    ((s.writeDst o x.dst two (o.lanes x.h) f).holdCells o x two ((maskBits (o.lanes x.h)).filter bad)).finish o (.mrd x)

/-- MWR (R121). The negate bit of B gives the two's complement, a DESIGN CHOICE (log entry 75). -/
def execMwr (x : EngOp) (s : State) : Host.Outcome State Fault Refusal :=
  let n := x.dst.num.toNat
  let two := WF.cellWide x.mod
  s.issueIf (.mwr x) (fun o _ => cellTrap o n two) fun o s =>
    let put := fun (g : Group) (l : Nat) =>
      g.putCell n (s.cellIndex o x.a l) (if two then 0 else 1) (s.operand o (.int (if two then 64 else 32)) false x.b l)
    -- lanes in ascending order: the highest of those that name one cell wins
    (s.modGroup o.w.group fun g => (maskBits (o.lanes x.h)).foldl put g).finish o (.mwr x)

/-! ### MMA and MMAS (R107 to R112, R119) -/

/-- R109: the formats that the FMU accepts. -/
def matrixCombo (a b c : Nat) : Bool :=
  let e8 := fun x => x = 4 || x = 5
  let e6 := fun x => x = 7 || x = 8 || x = 9
  (a = 0 && b = 0 && c = 0) || (a = 1 && b = 1 && c = 1) || (a = 2 && b = 2 && (c = 1 || c = 2)) ||
  (a = 3 && b = 3 && (c = 1 || c = 3)) ||
  (((e8 a && e8 b) || (a = 6 && b = 6)) && (c = 1 || c = 2 || c = 3)) ||
  (((e6 a && e6 b) || (e8 a && e6 b) || (e6 a && e8 b)) && (c = 1 || c = 3))

/-- R65: the formats that may carry block scales. -/
def scalable (c : Nat) : Bool := c = 4 || c = 5 || c = 7 || c = 8 || c = 9

/-- Operands that FMT.SCM scales. -/
def scalesA (fmt : Word) : Bool := fmtScm fmt = 1 || fmtScm fmt = 2
def scalesB (fmt : Word) : Bool := fmtScm fmt = 1 || fmtScm fmt = 3

/-- What raises FMT_COMBO. -/
def comboBad (fmt : Word) (scaled : Bool) (n : Nat) : Bool :=
  !matrixCombo (fmtA fmt) (fmtB fmt) (fmtC fmt) || ((fmtScm fmt != 0) != scaled) || (fmtC fmt = 0 && n % 2 = 1) ||
  (scaled && ((scalesA fmt && !scalable (fmtA fmt)) || (scalesB fmt && !scalable (fmtB fmt))))

/-- A matrix operand in memory: global, address, rows, bytes of a row, pitch in bytes. -/
structure Tile where
  glob  : Bool
  addr  : Dword
  rows  : Nat
  row   : Nat
  pitch : Nat

/-- The two operands and the scales of an MMA's descriptor. -/
structure MatrixDesc where
  k      : Nat
  a      : Tile
  b      : Tile
  scales : Dword
  bt     : Bool

def matrixDesc (o : Who) (x : EngOp) : MatrixDesc :=
  let r := x.a.num.toNat
  let k := (o.sreg (r + 7)).toNat
  let p := (o.sreg (r + 6)).toNat
  let ba := elemBits (fmtA o.fmt)
  let bb := elemBits (fmtB o.fmt)
  let bt := x.mod.getLsbD 2
  { k := k, bt := bt, scales := o.spair (r + 4),
    a := { glob := x.mod.getLsbD 0, addr := o.spair r, rows := 32, row := k * ba / 8, pitch := 16 * (p % 65536) },
    b := { glob := x.mod.getLsbD 1, addr := o.spair (r + 2), rows := if bt then 32 else k,
           row := if bt then k * bb / 8 else 32 * bb / 8, pitch := 16 * (p / 65536) } }

/-- An operand's alignment, pitch and local extent. -/
def Tile.bad (t : Tile) (lsz : Nat) : Bool :=
  t.addr.toNat % 16 != 0 || t.pitch < t.row || (!t.glob && lsz < t.addr.toNat + (t.rows - 1) * t.pitch + t.row)

/-- What raises MMA_DESC. -/
def MatrixDesc.bad (d : MatrixDesc) (lsz : Nat) (scaled : Bool) : Bool :=
  d.k % 32 != 0 || d.k < 32 || 8192 < d.k || d.a.bad lsz || d.b.bad lsz ||
  (scaled && (d.scales.toNat % 16 != 0 || lsz < d.scales.toNat + 2 * d.k))

/-- Sectors of a row at an address: offset and length. -/
def sectorCuts (a : Nat) : Nat → Nat → Nat → List (Nat × Nat)
  | 0, _, _ => []
  | f + 1, off, n =>
    if n = 0 then []
    else
      let k := min n (32 - (a + off) % 32)
      (off, k) :: sectorCuts a f (off + k) (n - k)

/-- The pieces of an operand, row by row, sector by sector. -/
def Tile.pieces (t : Tile) (group lane : Nat) (m : List Mapped) : List Piece :=
  (List.range t.rows).flatMap fun i =>
    let a := t.addr + BitVec.ofNat 64 (i * t.pitch)
    (sectorCuts a.toNat (t.row / 16 + 2) 0 t.row).map fun c =>
      let va := a + BitVec.ofNat 64 c.1
      { lane := lane, off := t.row * i + c.1, va := va, len := c.2, data := [], hs := false,
        loc := if t.glob then mapAt m va else .ls group va.toNat }

/-- The global pages of an operand. -/
def Tile.pages (t : Tile) : List Run := if t.glob then rowRuns t.addr t.rows t.pitch t.row else []

/-- Local-store bytes as an operand of one row. -/
def localTile (a : Dword) (n : Nat) : Tile := { glob := false, addr := a, rows := 1, row := n, pitch := n }

/-- R105: the FMU must hold the tokens. -/
def tokensOut (o : Who) (n : Nat) : Bool := (tilesOf n (fmtC o.fmt = 0)).any fun t => !fmuHolds o.g t

/-- A trap with FMT as its value. -/
def comboTrap (o : Who) : TrapInfo := { TrapInfo.plain codeFmtCombo o.p.pc with val := o.fmt }

/-- The checks of MMA and MMAS, in the order of R117. -/
def State.mmaCheck (s : State) (o : Who) (x : EngOp) (scaled : Bool) : State × Except Stop (List Mapped) :=
  let n := x.dst.num.toNat
  let d := matrixDesc o x
  if tokensOut o n then (s, .error (.trap (TrapInfo.plain codeAccToken o.p.pc)))
  else if comboBad o.fmt scaled n then (s, .error (.trap (comboTrap o)))
  else if d.bad o.u.lsz scaled then (s, .error (.trap (TrapInfo.plain codeMmaDesc o.p.pc)))
  else if 16 ≤ (s.engineQueue o.g.core 2).length then (s, .error (.stall 4))
  else s.engineMap o (d.a.pages ++ d.b.pages) []

/-- The counted half of an engine operation that retires before it completes (R113): an entry of its own, which the
operation names in its first argument. -/
def State.splitCount (s : State) (o : Who) (i : Instr) : State × Word :=
  match lineCounter o.p (headOf i).csel with
  | none => (s, 0)
  | some n =>
    let (s, id) := s.fresh1
    (s.addOp o (blankOp o id (some n) .done), BitVec.ofNat 32 id)

/-- The pieces that an engine operation writes: the destination of a drain, and the texels of an IMGST. -/
def Op.writesTo (x : Op) (p : Piece) : Bool := x.kind = .image || x.kind = .tdrain && p.lane = 0

/-- An engine operation issues. The traffic of the FMU does not use the request network (R329). -/
def State.launchEngine (s : State) (o : Who) (x : Op) : State :=
  ((if x.kind.path = 2 then s.addOp o x
    else (s.addOp o x).sendPieces o x (x.pieces.filter fun p => !x.writesTo p) (x.pieces.filter x.writesTo)).advance o.pr).settle

/-- MMA and MMAS issue one operation: operand A is lane 0, B lane 1, the scales lane 2. -/
def State.issueMma (s : State) (i : Instr) (o : Who) (x : EngOp) (scaled : Bool) (m : List Mapped) : State :=
  let d := matrixDesc o x
  let (s, cnt) := s.splitCount o i
  let (s, id) := s.fresh1
  let q := d.k / 32
  let scales := if scaled then
      (if scalesA o.fmt then (localTile d.scales (32 * q)).pieces o.w.group 2 [] else []) ++
      (if scalesB o.fmt then (localTile (d.scales + BitVec.ofNat 64 (32 * q)) (32 * q)).pieces o.w.group 3 [] else [])
    else []
  s.launchEngine o { blankOp o id none (if scaled then .mmas else .mma) with
    dst := x.dst, batch := s.openBatch o.pr.wave 0,
    pieces := d.a.pieces o.w.group 0 m ++ d.b.pieces o.w.group 1 m ++ scales,
    args := [cnt, BitVec.ofNat 32 d.k, if d.bt then 1 else 0, if x.mod.getLsbD 3 then 1 else 0] }

def execMma (x : EngOp) (s : State) : Host.Outcome State Fault Refusal :=
  s.issueWith (.mma x) (fun _ _ => []) (fun o s => s.mmaCheck o x false) fun m o s => s.issueMma (.mma x) o x false m
def execMmas (x : EngOp) (s : State) : Host.Outcome State Fault Refusal :=
  s.issueWith (.mmas x) (fun _ _ => []) (fun o s => s.mmaCheck o x true) fun m o s => s.issueMma (.mmas x) o x true m

/-! ### R77 -/

/-- The bytes that an operation has read for an operand. -/
def Op.operandBytes (x : Op) (lane : Nat) : List Byte := (laneData x lane).1

/-- The rows of an operand as numbers. -/
def rowsOf (d : List Byte) (rows row : Nat) : List Nat := (List.range rows).map fun i => leNat ((d.drop (row * i)).take row)

/-- Element e of a row (R58). -/
def rowElem (l : List Nat) (c i e : Nat) : Nat := l.getD i 0 / 2 ^ (elemBits c * e) % 2 ^ elemBits c

/-- An E8M0 scale (R65). -/
def scaleNum (c : Nat) : Num := if c = 255 then .nan else .fin false 1 ((c : Int) - 127)

/-- The operands of an MMA as functions of row, column and k, and the scales of a block. -/
structure MatrixVals where
  a  : Nat → Nat → Num
  b  : Nat → Nat → Num
  sa : Nat → Nat → Num
  sb : Nat → Nat → Num

def Op.matrixVals (x : Op) : MatrixVals :=
  let k := x.arg 1
  let bt := x.arg 2 = 1
  let q := k / 32
  let fa := fmtA x.fmt
  let fb := fmtB x.fmt
  let ra := rowsOf (x.operandBytes 0) 32 (k * elemBits fa / 8)
  let rb := if bt then rowsOf (x.operandBytes 1) 32 (k * elemBits fb / 8) else rowsOf (x.operandBytes 1) k (32 * elemBits fb / 8)
  let va := x.operandBytes 2
  let vb := x.operandBytes 3
  let one : Num := .fin false 1 0
  { a := fun i k => elemNum x.fmt fa (rowElem ra fa i k),
    b := fun k c => elemNum x.fmt fb (if bt then rowElem rb fb c k else rowElem rb fb k c),
    sa := fun i j => if va.isEmpty then one else scaleNum (va.getD (q * i + j) 0).toNat,
    sb := fun j c => if vb.isEmpty then one else scaleNum (vb.getD (q * c + j) 0).toNat }

/-- R77: one element, from its accumulator's pattern. -/
def matrixCell (fmt : Word) (v : MatrixVals) (k i c acc : Nat) : Nat :=
  let mode := fmtRm fmt
  let rd := decide (mode = .rd)
  let f := (elemFmt (fmtC fmt)).getD .f32
  let block := fun (j : Nat) => Num.sum rd ((List.range 32).map fun t =>
    ((v.sa i j).mul (v.a i (32 * j + t))).mul ((v.sb j c).mul (v.b (32 * j + t) c)))
  (List.range (k / 32)).foldl (fun a j =>
    roundFmt fmt mode f ((unpack f a).add rd (unpack f (roundFmt fmt mode f (block j))))) (flushIn fmt f acc)
where
  /-- R61 on the accumulator as it is read. -/
  flushIn (fmt : Word) (f : FloatFmt) (b : Nat) : Nat := if fmtFlushIn fmt && f.flushes then flushBits f b else b

/-- The tile after an MMA. -/
def Group.matrix (g : Group) (x : Op) : Group :=
  let n := x.dst.num.toNat
  let cf := fmtC x.fmt
  let v := x.matrixVals
  (List.range 1024).foldl (fun h e =>
    h.putCell n e cf (matrixCell x.fmt v (x.arg 1) (e / 32) (e % 32) (if x.arg 3 = 1 then 0 else g.cellBits n e cf))) g

/-! ### MDRAIN (R122) -/

/-- Bits of an output code. -/
def drainCode (x : EngOp) : Nat := (x.mod.extractLsb' 0 4).toNat

/-- The destination of a drain. -/
def drainTile (o : Who) (x : EngOp) : Tile :=
  { glob := x.mod.getLsbD 7, addr := o.spair x.a.num.toNat, rows := 32, row := 4 * elemBits (drainCode x),
    pitch := (o.sval x.b).toNat }

def State.drainCheck (s : State) (o : Who) (x : EngOp) : State × Except Stop (List Mapped) :=
  let n := x.dst.num.toNat
  let t := drainTile o x
  if tokensOut o n then (s, .error (.trap (TrapInfo.plain codeAccToken o.p.pc)))
  else if 4 ≤ fmtC o.fmt || (fmtC o.fmt = 0 && n % 2 = 1) then (s, .error (.trap (comboTrap o)))
  else if t.bad o.u.lsz || t.pitch % 16 != 0 then (s, .error (.trap (TrapInfo.plain codeMmaDesc o.p.pc)))
  else if 16 ≤ (s.engineQueue o.g.core 2).length then (s, .error (.stall 4))
  else s.engineMap o [] t.pages

def execMdrain (x : EngOp) (s : State) : Host.Outcome State Fault Refusal :=
  s.issueWith (.mdrain x) (fun _ _ => []) (fun o s => s.drainCheck o x) fun m o s =>
    let (s, id) := s.fresh1
    s.launchEngine o { blankOp o id (lineCounter o.p x.h.csel) .mdrain with
      dst := x.dst, batch := s.openBatch o.pr.wave 0, code := drainCode x, ord := (x.mod.extractLsb' 4 3).toNat,
      pieces := (drainTile o x).pieces o.w.group 0 m, args := [0, if x.mod.getLsbD 8 then 1 else 0] }

/-- The rows that a drain writes: each cell converted (R122). -/
def Group.drained (g : Group) (x : Op) : List Byte :=
  let cf := fmtC x.fmt
  let f := (elemFmt cf).getD .f32
  (List.range 1024).flatMap fun e =>
    leBytes (elemBits x.code / 8)
      (elemPack x.fmt (rmodeCode x.fmt x.ord) x.code (readNum x.fmt f (g.cellBits x.dst.num.toNat e cf)))

/-! ### Events (R110, R112, R115) -/

/-- One sector of an operand is read as it stands. -/
def State.fetchPiece (s : State) (id i : Nat) : State := s.copyFetch id i

/-- The counted half of an operation retires. -/
def State.retireCount (s : State) (x : Op) : State := if x.arg 0 = 0 then s else s.opDone (x.arg 0)

/-- FMU_OPERANDS_CONSUMED: the named sectors are read now; with none named, all that are left, and the counter retires. -/
def stepFmuOperandsConsumed (op : Nat) (sel : List Nat) (s : State) : Host.Outcome State Fault Refusal :=
  .next <|
    match s.liveOp op (fun k => k = .mma || k = .mmas) with
    | none => s
    | some (x, _, u) =>
      let l := x.pickAll true sel
      if s.clearOf x (x.piecesAt l) then
        let s := l.foldl (fun s i => s.fetchPiece op i) (s.tellFabric u x false (x.piecesAt l))
        match s.op op with
        | some y => if y.opens.isEmpty then s.retireCount y else s
        | none => s
      else s

/-- R110: the operation is the oldest of its core's FMU. -/
def State.fmuHead (s : State) (g : Group) (x : Op) : Bool :=
  match s.engineQueue g.core 2 with
  | y :: _ => y.id = x.id
  | [] => false

/-- An MMA completes: its tile holds its result, or +0 with a MATRIX_DATA where it read an error of its operands or of a
cell that it accumulates on (R115). -/
def State.finishMma (s : State) (g : Group) (x : Op) : State :=
  if x.acc.isEmpty && (x.arg 3 = 1 || !g.tilesBad x.tiles) then
    (s.modGroup x.group fun g => g.matrix x).opDone x.id
  else
    let s := s.modGroup x.group fun g => g.zeroTiles x.tiles
    (s.batchFault x 0 codeMatrixData x.dst.num.toNat 0 0 0).opDone x.id

/-- The named rows' sectors of a drain are written; the last completes it. A tile with a cell in error is +0 throughout, a
MATRIX_DATA (R115). -/
def State.drainWrites (s : State) (g : Group) (x : Op) (l : List Nat) : State :=
  let bad := g.tilesBad x.tiles
  let g := if bad then g.zeroTiles x.tiles else g
  let s := if bad then s.modGroup x.group fun g => g.zeroTiles x.tiles else s
  let x := if bad then { x with acc := x.acc.put 0 [1] } else x
  let d := g.drained x
  let s := (x.indexed l).foldl (fun s e => s.engineWrite g.core e.2.loc ((d.drop e.2.off).take e.2.len)) s
  let y := { x with seen := l.foldl (fun t i => Tbl.put t i []) x.seen }
  let s := s.modOp x.id fun _ => y
  if y.opens.isEmpty then
    let s := if x.arg 1 = 1 || !x.acc.isEmpty then s.modGroup x.group fun g => g.zeroTiles x.tiles else s
    (if x.acc.isEmpty then s else s.batchFault x 0 codeMatrixData x.dst.num.toNat 0 0 0).opDone x.id
  else s

/-- FMU_OP_COMPLETE: the oldest operation of the core completes; a drain may write the named sectors alone. -/
def stepFmuOpComplete (op : Nat) (sel : List Nat) (s : State) : Host.Outcome State Fault Refusal :=
  .next <|
    match s.liveOp op (fun k => k = .mma || k = .mmas || k = .mdrain) with
    | none => s
    | some (x, g, u) =>
      if !s.fmuHead g x then s
      else if x.kind = .mdrain then
        let l := x.pick sel
        if s.clearOf x (x.piecesAt l) then (s.tellFabric u x false (x.piecesAt l)).drainWrites g x l else s
      else if x.opens.isEmpty then s.finishMma g x
      else s

end Sys2Proof.Machine
end

