-- ==== Sys2Proof/Machine/Ta.lean ====
section
/-! DEFINITION. The ternary array (R124 to R149): weight tiles, accumulation, drains, and the trit instructions. -/

namespace Sys2Proof.Machine

open Sys2Proof

/-! ### Trit bytes (R67, R68) -/

/-- R67: the five trits of a legal code. -/
def tritsOf (b : Nat) : List Int := (List.range 5).map fun i => ((b / 3 ^ i % 3 : Nat) : Int) - 1

/-- R68, R139: whether byte j of a weight row is illegal. -/
def tritBad (j b : Nat) : Bool := 243 ≤ b || (j = 51 && (b < 120 || 122 < b))

/-- The nonzero trits of a weight row as plane entries from a key on; an illegal byte gives none. -/
def rowTrits (key : Nat) (d : List Byte) : Tbl Int :=
  d.zipIdx.flatMap fun e =>
    if tritBad e.2 e.1.toNat then []
    else ((tritsOf e.1.toNat).zipIdx.filter fun t => t.1 != 0 && 5 * e.2 + t.2 < 256).map fun t => (key + 5 * e.2 + t.2, t.1)

/-- A tile's bytes as the entries of plane p (R126, R143). -/
def tileTrits (p : Nat) (d : List Byte) : Tbl Int :=
  (List.range 256).flatMap fun c => rowTrits (p * 65536 + c * 256) ((d.drop (52 * c)).take 52)

/-- Offsets of the illegal bytes of a tile. -/
def illegalAt (d : List Byte) : List Nat := (d.zipIdx.filter fun e => tritBad (e.2 % 52) e.1.toNat).map fun e => e.2

/-- Plane p replaced. -/
def Group.setPlane (g : Group) (p : Nat) (t : Tbl Int) : Group :=
  { g with plane := (g.plane.filter fun e => e.1 < p * 65536) ++ t ++ g.plane.filter fun e => (p + 1) * 65536 ≤ e.1 }

/-- An element of a TACC (R125). -/
def Group.sumAt (g : Group) (n r c : Nat) : Word := (g.tacc.get (n * 16384 + r * 256 + c)).getD 0

/-- m rows of a TACC from row r on. -/
def Group.setRows (g : Group) (n r m : Nat) (f : Nat → Nat → Word) : Group :=
  let k := n * 16384 + r * 256
  let new := (List.range (256 * m)).map fun i => f (r + i / 256) (i % 256)
  { g with tacc := g.tacc.putRun k new, taccErr := g.taccErr.filter fun i => !(k ≤ i && i < k + 256 * m) }

/-- Whether an element of m rows of a TACC from row r on is in error (R140). -/
def Group.rowsBad (g : Group) (n r m : Nat) : Bool :=
  g.taccErr.any fun i => n * 16384 + r * 256 ≤ i && i < n * 16384 + (r + m) * 256

/-! ### Issue (R132, R133, R138) -/

/-- R133, R395: an engine issue of a cut wave is a decision, kind 6, its code the opcode. -/
def State.taDecision (s : State) (o : Who) (opc : Nat) : State :=
  if 1 < o.w.parts.length then s.decide o 6 opc o.pr.part o.p.pc.toNat o.p.quads.toNat 0 else s

/-- A queue of 16, and in replay the logged order. -/
def State.taRoom (s : State) (o : Who) : Bool :=
  (s.engineQueue o.g.core 3).length < 16 && (o.w.parts.length ≤ 1 || s.mayDecide o 6)

/-- TA_GRANT, TA_DESC and what follows, in the order of R138. -/
def State.taCheck (s : State) (o : Who) (bad : Bool) (more : Option TrapInfo) (reads writes : List Run) :
    State × Except Stop (List Mapped) :=
  if !o.u.taq then (s, .error (.trap (TrapInfo.plain codeTaGrant o.p.pc)))
  else if bad then (s, .error (.trap (TrapInfo.plain codeTaDesc o.p.pc)))
  else
    match more with
    | some t => (s, .error (.trap t))
    | none => if !s.taRoom o then (s, .error (.stall 4)) else s.engineMap o reads writes

/-- A TA operation issues. -/
def State.launchTa (s : State) (o : Who) (opc : Nat) (x : Op) : State :=
  (s.taDecision o opc).launchEngine o { x with
    batch := s.openBatch o.pr.wave 1, logs := if 1 < o.w.parts.length then [128] else [] }

/-! ### TWLD (R143) -/

/-- Plane and source of a TWLD. -/
def twldPlane (x : EngOp) : Nat := if x.mod.getLsbD 1 then 1 else 0
def twldGlobal (x : EngOp) : Bool := x.mod.getLsbD 0

/-- TA_DESC of a TWLD. -/
def twldBad (o : Who) (x : EngOp) : Bool :=
  let a := o.spair x.a.num.toNat
  a.toNat % 64 != 0 || (!twldGlobal x && 2 ^ 32 ≤ a.toNat)

/-- R127: WS_ACCESS. -/
def twldTrap (o : Who) (x : EngOp) : Option TrapInfo :=
  let a := o.spair x.a.num.toNat
  if !twldGlobal x && (!o.u.wsb || o.window.2 < a.toNat + 13312) then accTrap o codeWsAccess [(none, a)] else none

/-- The sectors of a tile. -/
def twldPieces (o : Who) (x : EngOp) (m : List Mapped) : List Piece :=
  let a := o.spair x.a.num.toNat
  (List.range 416).map fun i =>
    let va := a + BitVec.ofNat 64 (32 * i)
    { lane := 0, off := 32 * i, va := va, len := 32, data := [], hs := false,
      loc := if twldGlobal x then mapAt m va else .ws (dieOf o.g.core) (o.window.1 + va.toNat) }

/-- Arguments of TA operations: counted half, plane or target, started, first row, rows, Z. -/
def execTwld (x : EngOp) (s : State) : Host.Outcome State Fault Refusal :=
  s.issueWith (.twld x) (fun _ _ => [])
    (fun o s => s.taCheck o (twldBad o x) (twldTrap o x)
      (if twldGlobal x then pageRuns (o.spair x.a.num.toNat) 13312 else []) [])
    fun m o s =>
      let (s, cnt) := s.splitCount o (.twld x)
      let (s, id) := s.fresh1
      s.launchTa o 0x90 { blankOp o id none .twld with
        pieces := twldPieces o x m, args := [cnt, BitVec.ofNat 32 (twldPlane x), 1, 0, 0, 0] }

/-! ### TMAC (R144) -/

/-- Row 0, rows, pitch and address of a TMAC. -/
def tmacDesc (o : Who) (x : EngOp) : Nat × Nat × Nat × Nat :=
  let a := (o.sreg x.a.num.toNat).toNat
  let d := (o.sreg (x.a.num.toNat + 1)).toNat
  (field d 29 24, field d 22 16, field d 15 0, a)

def tmacBad (o : Who) (x : EngOp) : Bool :=
  let d := (o.sreg (x.a.num.toNat + 1)).toNat
  let (row, m, pitch, a) := tmacDesc o x
  field d 31 30 != 0 || nbit d 23 || m = 0 || 64 < m || 64 < row + m || pitch % 16 != 0 || pitch < 256 || a % 16 != 0 ||
  o.u.lsz < a + (m - 1) * pitch + 256

def execTmac (x : EngOp) (s : State) : Host.Outcome State Fault Refusal :=
  s.issueWith (.tmac x) (fun _ _ => []) (fun o s => s.taCheck o (tmacBad o x) none [] []) fun _ o s =>
    let (row, m, pitch, a) := tmacDesc o x
    let (s, cnt) := s.splitCount o (.tmac x)
    let (s, id) := s.fresh1
    let t : Tile := { glob := false, addr := BitVec.ofNat 64 a, rows := m, row := 256, pitch := pitch }
    s.launchTa o 0x91 { blankOp o id none .tmac with
      dst := x.dst, pieces := t.pieces o.w.group 0 [],
      args := [cnt, if x.mod.getLsbD 1 then 1 else 0, 0, BitVec.ofNat 32 row, BitVec.ofNat 32 m, 0] }

/-! ### TDRAIN (R145) -/

/-- What a TDRAIN's registers say. -/
structure DrainDesc where
  out   : Nat
  row   : Nat
  rows  : Nat
  wsa   : Nat
  asa   : Nat
  tile  : Tile
  bad   : Bool

/-- Bytes of an output: F32, BF16, M8. -/
def outBytes (o : Nat) : Nat := match o with | 0 => 4 | 1 => 2 | _ => 1

def drainDesc (o : Who) (x : EngOp) : DrainDesc :=
  let r := x.a.num.toNat
  let w := fun i => (o.sreg (r + i)).toNat
  let out := (x.mod.extractLsb' 0 2).toNat
  let m := field (w 5) 6 0
  let row := field (w 5) 13 8
  let t : Tile := { glob := x.mod.getLsbD 5, addr := o.spair r, rows := m, row := 256 * outBytes out, pitch := w 2 }
  { out := out, row := row, rows := m, wsa := w 4, asa := w 3, tile := t,
    bad := field (w 5) 31 14 != 0 || nbit (w 5) 7 || m = 0 || 64 < m || 64 < row + m || w 4 % 4 != 0 ||
      o.u.lsz < w 4 + 1024 || w 3 % 4 != 0 || o.u.lsz < w 3 + 4 * m || w 2 % 16 != 0 ||
      (!t.glob && 2 ^ 32 ≤ t.addr.toNat) || t.bad o.u.lsz }

def execTdrain (x : EngOp) (s : State) : Host.Outcome State Fault Refusal :=
  s.issueWith (.tdrain x) (fun _ _ => [])
    (fun o s => let d := drainDesc o x; s.taCheck o d.bad none [] (if d.tile.glob then d.tile.pages else []))
    fun m o s =>
      let d := drainDesc o x
      let (s, id) := s.fresh1
      s.launchTa o 0x92 { blankOp o id (lineCounter o.p x.h.csel) .tdrain with
        dst := x.dst, code := d.out, ord := (x.mod.extractLsb' 2 3).toNat,
        pieces := d.tile.pieces o.w.group 0 m ++ (localTile (BitVec.ofNat 64 d.asa) (4 * d.rows)).pieces o.w.group 1 [] ++
          (localTile (BitVec.ofNat 64 d.wsa) 1024).pieces o.w.group 2 [],
        args := [0, 0, 0, BitVec.ofNat 32 d.row, BitVec.ofNat 32 d.rows, if x.mod.getLsbD 6 then 1 else 0] }

/-! ### TZERO (R146) -/

/-- TZERO of a TACC (target 0) or a plane (target 1). -/
def zeroInstr (i : Instr) (x : EngOp) (s : State) : Host.Outcome State Fault Refusal :=
  s.issueWith i (fun _ _ => []) (fun o s => s.taCheck o false none [] []) fun _ o s =>
    let (s, id) := s.fresh1
    s.launchTa o 0x93 { blankOp o id (lineCounter o.p x.h.csel) .tzero with
      dst := x.dst, code := if x.mod.getLsbD 0 then 1 else 0,
      args := [0, if x.mod.getLsbD 1 then 1 else 0, 0, 0, 0, 0] }

def execTzero (x : EngOp) (s : State) : Host.Outcome State Fault Refusal := zeroInstr (.tzero x) x s
def execTzeroPlane (x : EngOp) (s : State) : Host.Outcome State Fault Refusal := zeroInstr (.tzeroPlane x) x s

/-! ### Order in the array (R132, R134 to R136) -/

/-- Earlier operations of the core's TA that are not complete. -/
def State.taBefore (s : State) (g : Group) (x : Op) : List Op := (s.engineQueue g.core 3).takeWhile fun y => y.id != x.id

/-- The plane that an operation fills, and the one that a TMAC uses. -/
def Op.fills (x : Op) (p : Nat) : Bool := (x.kind = .twld || (x.kind = .tzero && x.code = 1)) && x.arg 1 = p
def Op.uses (x : Op) (p : Nat) : Bool := x.kind = .tmac && x.arg 1 = p
/-- Whether an operation zeroes a whole TACC, or reads or writes it. -/
def Op.clears (x : Op) (n : Nat) : Bool := x.kind = .tzero && x.code = 0 && x.dst.num.toNat = n
def Op.touches (x : Op) (n : Nat) : Bool := (x.kind = .tmac || x.kind = .tdrain || x.clears n) && x.dst.num.toNat = n

/-- Whether an earlier operation holds this one back from its start. -/
def Op.delays (x y : Op) : Bool :=
  let n := x.dst.num.toNat
  match x.kind with
  | .tmac => (y.kind = .tmac && y.arg 2 = 0) || y.fills (x.arg 1) || (y.kind = .tdrain && y.dst.num.toNat = n) || y.clears n
  | .tdrain => y.dst.num.toNat = n && (y.kind = .tmac || y.clears n || (y.kind = .tdrain && y.arg 5 = 1))
  | .tzero => if x.code = 1 then y.fills (x.arg 1) || y.uses (x.arg 1) else y.touches n
  | _ => false

/-- Whether an earlier operation holds back this one's completion. -/
def Op.precedes (x y : Op) : Bool :=
  match x.kind with
  | .twld => y.fills (x.arg 1) || y.uses (x.arg 1)
  | .tdrain => y.kind = .tdrain
  | _ => false

/-! ### What the array does -/

/-- Free bytes (log entry 3). -/
def State.freeBytes (s : State) (n : Nat) : State × List Byte :=
  let s := s.tick
  (s, (List.range n).map fun i => Config.freeByte s.ctr i)

/-- Bytes read at a place, with words in error replaced by free values (R140 states none), and whether there were any. -/
def State.cleanRead (s : State) (l : Loc) (n : Nat) : State × List Byte × Bool :=
  match s.engineRead l n with
  | (s, d, false) => (s, d, false)
  | (s, d, true) =>
    let (s, f) := s.freeBytes n
    (s, d.zipIdx.map (fun e => if s.badAt (l.add (e.2 / 4 * 4)) 4 then f.getD e.2 0 else e.1), true)

/-- One source sector is read. -/
def State.taFetch (s : State) (id i : Nat) : State :=
  match (s.op id).bind fun x => x.pieces[i]? with
  | none => s
  | some p =>
    let (s, d, bad) := s.cleanRead p.loc p.len
    s.modOp id fun y => { y with seen := y.seen.put i d, acc := if bad then y.acc.put i [1] else y.acc }

/-- The sectors that an operation only reads. -/
def Op.readOnly (x : Op) (l : List Nat) : List Nat :=
  l.filter fun i => match x.pieces[i]? with | some p => x.kind != .tdrain || p.lane != 0 | none => false

/-- The first source or destination in error. -/
def Op.errorPiece (x : Op) : Option Piece := ((x.pieces.zipIdx.filter fun e => (x.acc.get e.2).isSome).map fun e => e.1).head?

/-- Its address: that of the piece, a DESIGN CHOICE (log entry 83). -/
def Op.errorVa (x : Op) : Dword := (x.errorPiece.map fun p => p.va).getD 0

/-- The TACC row that a TA_DATA of a TMAC or a TDRAIN names (R140, R361): the one in error, which `acc` keeps beside the
pieces; else that of the operand in error; else the first. -/
def Op.errorRow (x : Op) (bytes : Nat) : Word :=
  match x.acc.get x.pieces.length with
  | some l => nth l 0
  | none =>
    match x.errorPiece with
    | some p => BitVec.ofNat 32 (x.arg 3 + (if p.lane = 0 then p.off / (256 * bytes) else if p.lane = 1 then p.off / 4 else 0))
    | none => nth x.args 3

/-- An operation with the first of its TACC rows that holds an element in error. -/
def Op.withRow (x : Op) (g : Group) : Op :=
  match (List.range (x.arg 4)).find? fun i => g.rowsBad x.dst.num.toNat (x.arg 3 + i) 1 with
  | some i => { x with acc := x.acc.put x.pieces.length [BitVec.ofNat 32 (x.arg 3 + i)] }
  | none => x

/-- R144: the sums of a TMAC; an operand or an element of its rows in error zeroes the rows and is a TA_DATA (R140). -/
def State.runTmac (s : State) (g : Group) (x : Op) : State :=
  let n := x.dst.num.toNat
  let row := x.arg 3
  let m := x.arg 4
  let x := x.withRow g
  if !x.acc.isEmpty then
    (s.modGroup x.group fun g => g.setRows n row m fun _ _ => 0).batchFault x 1 codeTaData 0 x.errorVa (x.errorRow 1) 0
  else
    let d := x.operandBytes 0
    s.modGroup x.group fun g =>
      let sum := fun (i c : Nat) =>
        (g.plane.filter fun e => e.1 / 256 = x.arg 1 * 256 + c).foldl
          (fun (a : Int) e => a + asInt true 8 (d.getD (256 * i + e.1 % 256) 0).toNat * e.2) 0
      g.setRows n row m fun r c => g.sumAt n r c + BitVec.ofInt 32 (sum (r - row) c)

/-- R139, R140, R143: the tile enters its plane. -/
def State.loadPlane (s : State) (x : Op) : State :=
  let p := x.arg 1
  if !x.acc.isEmpty then
    (s.modGroup x.group fun g => g.setPlane p []).batchFault x 1 codeTaData p x.errorVa 0 0
  else
    let d := x.operandBytes 0
    let bad := illegalAt d
    let s := s.modGroup x.group fun g =>
      { g.setPlane p (tileTrits p d) with illeg := BitVec.ofNat 32 (min (g.illeg.toNat + bad.length) (2 ^ 32 - 1)) }
    match bad, x.pieces.head? with
    | off :: _, some q =>
      s.batchFault x 1 codeTritIllegal p (q.va + BitVec.ofNat 64 off) 0 (BitVec.ofNat 32 (min bad.length 65535))
    | _, _ => s

/-- One output of a drain (R80, R145): row i of the drain, column c; `old` the F32 destination. -/
def drainOut (g : Group) (x : Op) (err : Bool) (sa sw : List Byte) (i c old : Nat) : List Byte :=
  let scale := fun (d : List Byte) (k : Nat) => readNum x.fmt .f32 (leNat ((d.drop (4 * k)).take 4))
  let a : Int := if err then 0 else (g.sumAt x.dst.num.toNat (x.arg 3 + i) c).toInt
  let out := (((scale sa i).mul (scale sw c)).mul (Num.ofInt a)).pack .f32 .rn
  let mode := rmodeCode x.fmt x.ord
  match x.code with
  | 0 => leBytes 4 (roundFmt x.fmt mode .f32 ((readNum x.fmt .f32 old).add (mode = .rd) (unpack .f32 out)))
  | 1 => leBytes 2 (roundFmt x.fmt mode .bf16 (unpack .f32 out))
  | _ => leBytes 1 (encodeM8 (fmtInf x.fmt) (unpack .f32 out))

/-- R137: a destination sector is read where it accumulates, and written, as one step. -/
def State.drainSector (s : State) (g : Group) (x : Op) (err : Bool) (p : Piece) : State :=
  let ob := outBytes x.code
  let (s, old) := if x.code = 0 then (match s.cleanRead p.loc p.len with | (s, d, _) => (s, d)) else (s, [])
  let sa := x.operandBytes 1
  let sw := x.operandBytes 2
  let data := (List.range (p.len / ob)).flatMap fun j =>
    let e := p.off / ob + j
    drainOut g x err sa sw (e / 256) (e % 256) (leNat ((old.drop (4 * j)).take 4))
  s.engineWrite g.core p.loc data

/-! ### Events -/

def isTa (k : OpKind) : Bool := k = .twld || k = .tmac || k = .tdrain || k = .tzero

/-- R131: none of the sectors lies in a bank in its window. -/
def State.notTurning (s : State) (l : List Piece) : Bool := l.all fun p => !s.turning p.loc

/-- TA_OPERANDS_CONSUMED: the named source sectors are read; when none is left the counter of a TWLD or TMAC retires. -/
def stepTaOperandsConsumed (op : Nat) (sel : List Nat) (s : State) : Host.Outcome State Fault Refusal :=
  .next <|
    match s.liveOp op isTa with
    | none => s
    | some (x, _, u) =>
      let l := x.readOnly (x.pickAll true sel)
      if s.clearOf x (x.piecesAt l) && s.notTurning (x.piecesAt l) then
        let s := l.foldl (fun s i => s.taFetch op i) (s.tellFabric u x false (x.piecesAt l))
        match s.op op with
        | some y => if y.opens.isEmpty then s.retireCount y else s
        | none => s
      else s

/-- TA_OP_START: what an operation depends on is complete (R135, R136). TMACs start in issue order, and the model lets
each take its effect there: nothing can observe an accumulator before the TMAC's completion. -/
def stepTaOpStart (op : Nat) (s : State) : Host.Outcome State Fault Refusal :=
  .next <|
    match s.liveOp op (fun k => k = .tmac || k = .tdrain || k = .tzero) with
    | none => s
    | some (x, g, _) =>
      if x.arg 2 = 1 || (s.taBefore g x).any x.delays || (x.kind = .tmac && !x.opens.isEmpty) then s
      else
        let s := s.modOp op fun y => { y with args := y.args.set 2 1 }
        if x.kind = .tmac then s.runTmac g x else s

/-- An operation that has started and whose turn has come. -/
def State.taReady (s : State) (op : Nat) (k : OpKind) : Option (Op × Group) :=
  match s.liveOp op (fun j => j = k) with
  | none => none
  | some (x, g, _) => if x.arg 2 = 1 && !(s.taBefore g x).any x.precedes then some (x, g) else none

/-- TWLD_COMPLETE (R134). -/
def stepTwldComplete (op : Nat) (s : State) : Host.Outcome State Fault Refusal :=
  .next <|
    match s.taReady op .twld with
    | some (x, _) => if x.opens.isEmpty then (s.loadPlane x).opDone op else s
    | none => s

/-- TMAC_COMPLETE (R135). -/
def stepTmacComplete (op : Nat) (s : State) : Host.Outcome State Fault Refusal :=
  .next <|
    match s.taReady op .tmac with
    | some _ => s.opDone op
    | none => s

/-- Destination sectors that an earlier drain still has to write (R136). -/
def State.drainClear (s : State) (g : Group) (x : Op) (l : List Piece) : Bool :=
  (s.taBefore g x).all fun y => y.kind != .tdrain ||
    y.pieces.zipIdx.all fun e => e.1.lane != 0 || (y.seen.get e.2).isSome || l.all fun p => e.1.loc.sector != p.loc.sector

/-- The scales that are not read yet. -/
def State.drainScales (s : State) (x : Op) : State :=
  (x.readOnly (x.pick [])).foldl (fun s i => s.taFetch x.id i) s

/-- Whether a drain has met an error (R140): a scale, an element of its rows, or an F32 destination still to be written. -/
def State.drainErr (s : State) (g : Group) (x : Op) : Bool :=
  !x.acc.isEmpty || g.rowsBad x.dst.num.toNat (x.arg 3) (x.arg 4) || (x.code = 0 && x.pieces.zipIdx.any fun e => e.1.lane = 0 && (x.seen.get e.2).isNone && s.badAt e.1.loc e.1.len)

/-- The end of a drain: Z zeroes the rows; an error is a TA_DATA. -/
def State.endDrain (s : State) (x : Op) : State :=
  let s := if x.arg 5 = 1 then s.modGroup x.group fun g => g.setRows x.dst.num.toNat (x.arg 3) (x.arg 4) fun _ _ => 0 else s
  (if x.acc.isEmpty then s else s.batchFault x 1 codeTaData 0 x.errorVa (x.errorRow (outBytes x.code)) 0).opDone x.id

/-- TDRAIN_COMPLETE: the named destination sectors are written; the last of them completes the drain, in issue order
(R136). -/
def stepTdrainComplete (op : Nat) (sel : List Nat) (s : State) : Host.Outcome State Fault Refusal :=
  .next <|
    match s.liveOp op (fun k => k = .tdrain) with
    | none => s
    | some (x, g, u) =>
      let l := (x.pickAll true sel).filter fun i => match x.pieces[i]? with | some p => p.lane = 0 | none => false
      let last := ((x.pick []).filter fun i => match x.pieces[i]? with | some p => p.lane = 0 | none => false).all l.contains
      if x.arg 2 = 0 || !s.clearOf x (x.piecesAt (l ++ x.readOnly (x.pick []))) || !s.drainClear g x (x.piecesAt l) ||
          (last && (s.taBefore g x).any x.precedes) then s
      else
        let s := (s.tellFabric u x false (x.piecesAt l)).drainScales x
        match s.op op with
        | none => s
        | some x =>
          let err := s.drainErr g x
          let hit := l.filter fun i => match x.pieces[i]? with | some p => x.code = 0 && s.badAt p.loc p.len | none => false
          let s := (x.piecesAt l).foldl (fun s p => s.drainSector g x err p) s
          let y := { x with seen := l.foldl (fun t i => Tbl.put t i []) x.seen,
                            acc := hit.foldl (fun t i => Tbl.put t i [1]) (x.withRow g).acc }
          let s := s.modOp op fun _ => y
          if last then s.endDrain y else s

/-- TZERO_COMPLETE (R136, R146). -/
def stepTzeroComplete (op : Nat) (s : State) : Host.Outcome State Fault Refusal :=
  .next <|
    match s.taReady op .tzero with
    | some (x, _) =>
      (s.modGroup x.group fun g =>
        if x.code = 1 then g.setPlane (x.arg 1) []
        else { g with tacc := g.tacc.filter fun e => e.1 / 16384 != x.dst.num.toNat,
                      taccErr := g.taccErr.filter fun i => i / 16384 != x.dst.num.toNat }).opDone op
    | none => s

/-! ### TPACK, TUNPK, TQNT, TSTAT (R147 to R149) -/

/-- R147: the digit of a byte's sign. -/
def signDigit (b : Nat) : Nat :=
  let v := asInt true 8 b
  if v < 0 then 0 else if v = 0 then 1 else 2

/-- TPACK's byte. -/
def packTrits (a b : Nat) : Nat :=
  ((List.range 5).map fun i => signDigit (if i < 4 then a / 256 ^ i % 256 else b % 256) * 3 ^ i).foldl (· + ·) 0

def execTpack (x : EngOp) (s : State) : Host.Outcome State Fault Refusal :=
  s.issue (.tpack x) fun o s =>
    let p := (x.mod.extractLsb' 0 2).toNat
    let f := fun l =>
      let c := s.ctlOf o x.c l
      c - c / 256 ^ p % 256 * 256 ^ p + packTrits (s.ctlOf o x.a l) (s.ctlOf o x.b l) * 256 ^ p
    (s.writeDst o x.dst false (o.lanes x.h) f).finish o (.tpack x)

/-- TUNPK's byte of a lane. -/
def State.tritByte (s : State) (o : Who) (x : EngOp) (l : Nat) : Nat := s.ctlOf o x.a l / 256 ^ (s.ctlOf o x.b l % 4) % 256

/-- Whether TUNPK refuses a byte. -/
def unpackBad (x : EngOp) (b : Nat) : Bool := tritBad (if x.mod.getLsbD 0 then 51 else 0) b

/-- The five trits as I8 values in a pair. -/
def unpackBits (b : Nat) : Nat := leNat ((tritsOf b).map fun t => BitVec.ofInt 8 t)

def execTunpk (x : EngOp) (s : State) : Host.Outcome State Fault Refusal :=
  s.issueIf (.tunpk x)
    (fun o s =>
      let bad := (maskBits (o.lanes x.h)).filter fun l => unpackBad x (s.tritByte o x l)
      bad.head?.map fun l =>
        { TrapInfo.plain codeTritCode o.p.pc with
          lane := some l, mask := maskOf 64 fun l => bad.contains l, val := BitVec.ofNat 32 (s.tritByte o x l) })
    fun o s => (s.writeDst o x.dst true (o.lanes x.h) fun l => unpackBits (s.tritByte o x l)).finish o (.tunpk x)

/-- The format of TQNT's TYPE. -/
def qntFmt (x : EngOp) : FloatFmt := match (x.mod.extractLsb' 0 5).toNat with | 6 => .f16 | 7 => .bf16 | _ => .f32

/-- R148. -/
def quantTrit (a b : Num) : Nat :=
  let t := if b.sign then b.negate else b
  if a.isNan || b.isNan then 0 else if t.lt a then 1 else if a.lt t.negate then 2 ^ 32 - 1 else 0

def execTqnt (x : EngOp) (s : State) : Host.Outcome State Fault Refusal :=
  s.issue (.tqnt x) fun o s =>
    let f := fun l => quantTrit (s.fltOperand o (qntFmt x) false x.a l) (s.fltOperand o (qntFmt x) false x.b l)
    (s.writeDst o x.dst false (o.lanes x.h) f).finish o (.tqnt x)

/-- R149: the value of a selector. -/
def State.tstat (s : State) (o : Who) (k : Nat) : Nat :=
  match k with
  | 0 => (s.ops.filter fun y => !y.done && y.group = o.w.group && isTa y.kind).length
  | 1 => o.g.nzSum 0
  | 2 => o.g.nzSum 1
  | 3 => o.g.illeg.toNat
  | _ => o.g.window.toNat

def execTstat (x : EngOp) (s : State) : Host.Outcome State Fault Refusal :=
  s.issueIf (.tstat x) (fun o _ => if o.u.taq then none else some (TrapInfo.plain codeTaGrant o.p.pc))
    fun o s => (s.writeS o x.dst (s.tstat o (x.mod.extractLsb' 0 4).toNat)).finish o (.tstat x)

end Sys2Proof.Machine
end

