-- ==== Sys2Proof/Machine/Tex.lean ====
section
/-! DEFINITION. The sampler (R157 to R164, R167 to R169, R171, R176, R177): latent textures, the rennet decoder and its
cache, filtering, and image stores. -/

namespace Sys2Proof.Machine

open Sys2Proof

/-! ### Reads of the sampler and the ray unit (R169, R211) -/

/-- A core's texel cache, or its ray node cache. -/
def Core.unitCache (c : Core) (ray : Bool) : Tbl (List Byte) := if ray then c.rays else c.tex
def Core.setUnitCache (c : Core) (ray : Bool) (t : Tbl (List Byte)) : Core := if ray then { c with rays := t } else { c with tex := t }

/-- A sector: the cache's copy, or the place itself, which fills it, with the bytes that are in error (R2). -/
def State.unitSector (s : State) (ray : Bool) (core : Nat) (l : Loc) : State × List Byte × List Nat :=
  let bad := (List.range 32).filter fun i => s.badAt (l.add i) 1
  match l with
  | .dev a =>
    match ((s.core core).unitCache ray).get (a / 32) with
    | some d => (s, d, [])
    | none =>
      match s.readAt l 32 with
      | (s, d) =>
        let fill := fun (c : Core) => c.setUnitCache ray ((c.unitCache ray).put (a / 32) d)
        (if bad = [] then s.modCore core fill else s, d, bad)
  | _ => match s.engineRead l 32 with | (s, d, _) => (s, d, bad)

/-- Bytes of one sector for an operation, which reads a sector once for all its lanes (R192, R207). An error is told. -/
def State.unitBytes (s : State) (ray : Bool) (core op : Nat) (l : Loc) (n : Nat) : State × List Byte × Bool :=
  let k := l.off % 32
  let give := fun (s : State) (d : List Byte) (bad : List Nat) =>
    (s, (d.drop k).take n, (List.range n).any fun i => bad.contains (k + i))
  match l with
  | .ctrl _ => match s.engineRead l n with | (s, d, bad) => (s, d, bad)
  | _ =>
    match (s.op op).bind fun x => x.had.find? fun e => e.1 = l.at (l.off - k) with
    | some e => give s e.2.1 e.2.2
    | none =>
      match s.unitSector ray core (l.at (l.off - k)) with
      | (s, d, bad) => give (s.modOp op fun x => { x with had := (l.at (l.off - k), d, bad) :: x.had }) d bad

/-- R343: each page of an instruction is counted once. -/
def State.lookOnce (s : State) (core asid op : Nat) (va : Dword) (log : Nat) : State :=
  let key := 4096 + va.toNat / 2 ^ log * 64 + log
  match s.op op with
  | some x =>
    if (x.acc.get key).isSome then s
    else (s.look core asid va 3 log).modOp op fun y => { y with acc := y.acc.put key [] }
  | none => s

/-- Where a byte lies for a unit, none for a translation that fails (R167). -/
def State.unitLoc (s : State) (core : Nat) (u : WorkUnit) (op : Nat) (va : Dword) : State × Option Loc :=
  match s.translate core u.asid .read va with
  | (s, .ok x) => (s.lookOnce core u.asid op va x.log, s.region u.ctl x.pa)
  | (s, .error _) => (s.lookOnce core u.asid op va 12, none)

/-- R323: a sector that the unit's cache does not hold is a request of the core's cluster. -/
def State.unitAsks (s : State) (ray : Bool) (core : Nat) (u : WorkUnit) (l : Loc) : State :=
  let held := match l with
    | .dev a => (((s.core core).unitCache ray).get (a / 32)).isSome
    | _ => false
  if held then s else s.ask (clusterOf core) u.netClass false (l.at (l.off / 32 * 32)) 32

/-- What a read of a unit met: a cause of R168 and an address. -/
abbrev UnitErr := Nat × Dword

/-- Bytes at a virtual address, sector by sector; `cause` for a translation that fails, 4 for an error. -/
def State.unitRead (s : State) (ray : Bool) (core : Nat) (u : WorkUnit) (op cause : Nat) (va : Dword) :
    Nat → Nat → State × Except UnitErr (List Byte)
  | 0, _ => (s, .ok [])
  | f + 1, n =>
    if n = 0 then (s, .ok [])
    else
      let k := min n (32 - va.toNat % 32)
      match s.unitLoc core u op va with
      | (s, none) => (s, .error (cause, va))
      | (s, some l) =>
        match (s.unitAsks ray core u l).unitBytes ray core op l k with
        | (s, _, true) => (s, .error (4, va))
        | (s, d, false) =>
          match s.unitRead ray core u op cause (va + BitVec.ofNat 64 k) f (n - k) with
          | (s, .ok r) => (s, .ok (d ++ r))
          | (s, .error e) => (s, .error e)

/-- An early read of a virtual sector into a unit's cache. -/
def State.unitEarly (s : State) (ray : Bool) (core : Nat) (u : WorkUnit) (op sector : Nat) : State :=
  (s.unitRead ray core u op 0 (BitVec.ofNat 64 (32 * sector)) 1 32).1

/-! ### Descriptors (R157, R158) -/

/-- The words of a texture descriptor. -/
def texWords (o : Who) (x : Src) : List Word := (List.range 8).map fun i => o.sreg (x.num.toNat + i)

def texFmt (w : List Word) : Nat := field (nth w 3).toNat 7 4
def texLvls (w : List Word) : Nat := field (nth w 3).toNat 3 0
def texW (w : List Word) : Nat := field (nth w 2).toNat 15 0 + 1
def texH (w : List Word) : Nat := field (nth w 2).toNat 31 16 + 1
def texRnt (w : List Word) : Dword := pair (nth w 4) (nth w 5)

/-- R157: an illegal texture descriptor. -/
def texBad (w : List Word) : Bool :=
  nth w 6 != 0 || nth w 7 != 0 || field (nth w 3).toNat 31 8 != 0 || 2 < texFmt w ||
  Nat.log2 (max (texW w) (texH w)) < texLvls w || (pair (nth w 0) (nth w 1)).toNat % 256 != 0 ||
  (if texFmt w = 0 then texRnt w = 0 || (texRnt w).toNat % 64 != 0 else texRnt w != 0)

/-- R157: an illegal sampler descriptor. -/
def smpBad (w : Word) : Bool :=
  field w.toNat 31 16 != 0 || field w.toNat 7 6 = 3 || 1 < field w.toNat 3 2 || 1 < field w.toNat 1 0

/-- R158: width and height of a level. -/
def lvlW (w : List Word) (l : Nat) : Nat := max 1 (texW w / 2 ^ l)
def lvlH (w : List Word) (l : Nat) : Nat := max 1 (texH w / 2 ^ l)

/-- Bytes of a texel; a latent block has 16. -/
def texelBytes (w : List Word) : Nat := match texFmt w with | 1 => 4 | 2 => 8 | _ => 16

/-- Bytes of a level. -/
def lvlBytes (w : List Word) (l : Nat) : Nat :=
  if texFmt w = 0 then (lvlW w l + 7) / 8 * ((lvlH w l + 7) / 8) * 16 else lvlW w l * lvlH w l * texelBytes w

/-- Offset of a level from BASE. -/
def lvlOff (w : List Word) : Nat → Nat
  | 0 => 0
  | l + 1 => (lvlOff w l + lvlBytes w l + 255) / 256 * 256

/-- The address of a texel, or of its block. -/
def texelVa (w : List Word) (l x y : Nat) : Dword :=
  pair (nth w 0) (nth w 1) + BitVec.ofNat 64 (lvlOff w l +
    if texFmt w = 0 then 16 * (y / 8 * ((lvlW w l + 7) / 8) + x / 8) else texelBytes w * (y * lvlW w l + x))

/-! ### The rennet decoder (R159, R160) -/

/-- R159: a table that fails a check. -/
def tableBad (d : List Byte) : Bool :=
  leNat (d.take 2) != 1 || ((d.drop 2).take 3).any (fun b => 31 < b.toNat) || ((d.drop 5).take 11).any fun b => b != 0

def i8At (d : List Byte) (i : Nat) : Int := asInt true 8 (d.getD i 0).toNat
def i16At (d : List Byte) (i : Nat) : Int := asInt true 16 (leNat ((d.drop i).take 2))

/-- R160: rq. -/
def requant (v : Int) (s : Nat) : Int := if s = 0 then v else (v + 2 ^ (s - 1)) / 2 ^ s

/-- Latent i of a block (R158). -/
def latent (b : List Byte) (i : Nat) : Nat := (b.getD (i / 2) 0).toNat / 16 ^ (i % 2) % 16

/-- The 40 inputs of texel (x, y). -/
def decIn (d b : List Byte) (x y : Nat) : List Int :=
  let xi : Int := x
  let yi : Int := y
  (List.range 32).map (fun i => i8At d (16 + latent b i)) ++
    [16 * xi - 56, 16 * yi - 56, 8 * (xi + yi) - 56, 8 * (xi - yi), 64 - 16 * ((2 * xi - 7).natAbs : Int),
     64 - 16 * ((2 * yi - 7).natAbs : Int), if (x + y) % 2 = 0 then 64 else -64, 64]

/-- A layer's sum: bias at `b`, weights at `w`. -/
def layerSum (d : List Byte) (b w : Nat) (inp : List Int) : Int :=
  inp.zipIdx.foldl (fun a e => a + i8At d (w + e.2) * e.1) (i16At d b)

/-- A hidden layer of 16. -/
def hidden (d : List Byte) (b w n s : Nat) (inp : List Int) : List Int :=
  (List.range 16).map fun j => min (requant (max (layerSum d (b + 2 * j) (w + n * j) inp) 0) s) 127

/-- R160: the four channel bytes of texel (x, y). -/
def decodeRennet (d b : List Byte) (x y : Nat) : List Nat :=
  let sh := fun i => (d.getD i 0).toNat
  let h1 := hidden d 672 32 40 (sh 2) (decIn d b x y)
  let h2 := hidden d 960 704 16 (sh 3) h1
  (List.range 4).map fun j => (min (max (requant (layerSum d (1056 + 2 * j) (992 + 16 * j) h2) (sh 4)) 0) 255).toNat

/-! ### The rennet cache (R161, R162) -/

/-- The table at an address for a group's binding; the first use fills an entry. -/
def State.rennetTable (s : State) (g : Group) (u : WorkUnit) (op : Nat) (a : Dword) : State × Except UnitErr (List Byte) :=
  let b := u.binding g.unit
  let mine := (s.core g.core).rennet.filter fun e => e.2.1 = b
  match mine.find? fun e => e.1 = a.toNat with
  | some e => (s, .ok (wordsBytes e.2.2))
  | none =>
    if s.rneOf u ≤ mine.length then (s, .error (3, a))
    else
      match s.unitRead false g.core u op 1 a 35 1088 with
      | (s, .error e) => (s, .error e)
      | (s, .ok d) =>
        if tableBad d then (s, .error (2, a))
        else (s.modCore g.core fun c => { c with rennet := c.rennet ++ [(a.toNat, b, bytesWords d)] }, .ok d)

/-! ### Texels and filters (R163, R164) -/

/-- u8f (R158). -/
def u8f (c : Nat) : Nat := roundIeee .f16 .rn false c 255

/-- The four binary16 channels of a texel. A latent texel whose table fails does not read its block, a DESIGN CHOICE (log entry
75). -/
def State.texel (s : State) (g : Group) (u : WorkUnit) (op : Nat) (w : List Word) (l x y : Nat) :
    State × Except UnitErr (List Nat) :=
  let a := texelVa w l x y
  match texFmt w with
  | 1 =>
    match s.unitRead false g.core u op 0 a 1 4 with
    | (s, .ok d) => (s, .ok (d.map fun b => u8f b.toNat))
    | (s, .error e) => (s, .error e)
  | 2 =>
    match s.unitRead false g.core u op 0 a 1 8 with
    | (s, .ok d) => (s, .ok ((List.range 4).map fun i => leNat ((d.drop (2 * i)).take 2)))
    | (s, .error e) => (s, .error e)
  | _ =>
    match s.rennetTable g u op (texRnt w) with
    | (s, .error e) => (s, .error e)
    | (s, .ok t) =>
      match s.unitRead false g.core u op 0 a 1 16 with
      | (s, .ok d) => (s, .ok ((decodeRennet t d (x % 8) (y % 8)).map u8f))
      | (s, .error e) => (s, .error e)

/-- floor(x * k) of a finite value. -/
def numFloor (x : Num) (k : Nat) : Int :=
  match x with
  | .fin s n e =>
    let m : Int := if s then -(n * k : Nat) else (n * k : Nat)
    if 0 ≤ e then m * 2 ^ e.toNat else m / 2 ^ (-e).toNat
  | _ => 0

/-- R163: xq. -/
def coordQ (c : Num) (n : Nat) : Int :=
  match c with
  | .inf neg => if neg then -(2 ^ 30) else 2 ^ 30
  | .nan => -128
  | _ => max (-(2 ^ 30)) (min (2 ^ 30) (numFloor c (256 * n) - 128))

/-- R163: the address mode: wrap or clamp. -/
def texelIx (clamp : Bool) (x : Int) (n : Nat) : Nat := if clamp then (max 0 (min x ((n : Int) - 1))).toNat else (x % n).toNat

/-- What a level contributes: the texels of its footprint, and the weights of a linear filter. -/
structure Tap where
  lvl    : Nat
  linear : Bool
  fx     : Nat
  fy     : Nat
  at_    : List (Nat × Nat)

/-- The tap of a level. -/
def tapOf (w : List Word) (sd : Word) (lvl : Nat) (linear : Bool) (u v : Num) : Tap :=
  let xq := coordQ u (lvlW w lvl)
  let yq := coordQ v (lvlH w lvl)
  let cu := sd.toNat % 4 = 1
  let cv := field sd.toNat 3 2 = 1
  let ix := fun x => texelIx cu x (lvlW w lvl)
  let iy := fun y => texelIx cv y (lvlH w lvl)
  if linear then
    let x0 := xq / 256
    let y0 := yq / 256
    { lvl := lvl, linear := true, fx := (xq % 256).toNat, fy := (yq % 256).toNat,
      at_ := [(ix x0, iy y0), (ix (x0 + 1), iy y0), (ix x0, iy (y0 + 1)), (ix (x0 + 1), iy (y0 + 1))] }
  else { lvl := lvl, linear := false, fx := 0, fy := 0, at_ := [(ix ((xq + 128) / 256), iy ((yq + 128) / 256))] }

/-- round_binary32. -/
def round32 (x : Num) : Num := unpack .f32 (x.pack .f32 .rn)

def Num.mag (x : Num) : Num := if x.sign then x.negate else x

/-- R163: ρ from the four derivatives. -/
def rhoOf (w : List Word) (d : List Num) : Num :=
  let terms := (d.zip [texW w, texW w, texH w, texH w]).map fun e => round32 (e.1.mag.mul (Num.ofInt e.2))
  if terms.any Num.isNan then .nan else terms.foldl (fun a b => if a.lt b then b else a) (.fin false 0 0)

/-- LODB / 16. -/
def lodBias (sd : Word) : Num :=
  let v := asInt true 8 (field sd.toNat 15 8)
  .fin (decide (v < 0)) v.natAbs (-4)

/-- R163: λ, a NaN read as 0. -/
def lambdaOf (raw : Num) (sd : Word) : Num :=
  let l := round32 (raw.add false (lodBias sd))
  if l.isNan then .fin false 0 0 else l

/-- A sample of a lane: one or two taps, and the weight between levels. -/
structure Sample where
  taps : List Tap
  f    : Nat

/-- R163: the levels that are sampled. -/
def sampleOf (w : List Word) (sd : Word) (u v lam : Num) : Sample :=
  let zero : Num := .fin false 0 0
  let linear := nbit sd.toNat (if zero.lt lam then 5 else 4)
  let lq : Int := match lam with
    | .inf neg => if neg then 0 else 256 * (texLvls w : Int)
    | _ => if zero.lt lam then min (numFloor lam 256) (256 * (texLvls w : Int)) else 0
  let tap := fun l => tapOf w sd l linear u v
  match field sd.toNat 7 6 with
  | 0 => { taps := [tap 0], f := 0 }
  | 1 => { taps := [tap ((lq + 128) / 256).toNat], f := 0 }
  | _ =>
    let l0 := (lq / 256).toNat
    let f := (lq % 256).toNat
    { taps := if f = 0 then [tap l0] else [tap l0, tap (min (l0 + 1) (texLvls w))], f := f }

/-- R164: lerp on binary16 patterns. -/
def lerp16 (a b wt : Nat) : Nat :=
  let x := unpack .f16 a
  let y := unpack .f16 b
  (x.add false ((Num.fin false wt (-8)).mul (y.add false x.negate))).pack .f16 .rn

/-- R164: a level's channels from its texels. -/
def Tap.filter (t : Tap) (c : List (List Nat)) : List Nat :=
  let ch := fun (k i : Nat) => (c.getD k []).getD i 0
  if t.linear then
    (List.range 4).map fun i => lerp16 (lerp16 (ch 0 i) (ch 1 i) t.fx) (lerp16 (ch 2 i) (ch 3 i) t.fx) t.fy
  else c.getD 0 []

/-- The lowest cause, with its lowest address (R168). -/
def worseErr (a : Option UnitErr) (e : UnitErr) : Option UnitErr :=
  match a with
  | none => some e
  | some b => if e.1 < b.1 || (e.1 = b.1 && e.2.toNat < b.2.toNat) then some e else some b

/-- Texels of a list of places. -/
def State.texels (s : State) (g : Group) (u : WorkUnit) (op : Nat) (w : List Word) :
    List (Nat × Nat × Nat) → State × Option UnitErr × List (List Nat)
  | [] => (s, none, [])
  | (l, x, y) :: r =>
    match s.texel g u op w l x y with
    | (s, .error e) =>
      match s.texels g u op w r with
      | (s, b, c) => (s, worseErr b e, [] :: c)
    | (s, .ok t) =>
      match s.texels g u op w r with
      | (s, b, c) => (s, b, t :: c)

/-- The places of a sample's texels. -/
def Sample.places (m : Sample) : List (Nat × Nat × Nat) := m.taps.flatMap fun t => t.at_.map fun p => (t.lvl, p.1, p.2)

/-- The channels of a sample from its texels. -/
def Sample.channels (m : Sample) (c : List (List Nat)) : List Nat :=
  match m.taps with
  | [t] => t.filter c
  | [t, v] =>
    let a := t.filter (c.take t.at_.length)
    let b := v.filter (c.drop t.at_.length)
    (List.range 4).map fun i => lerp16 (a.getD i 0) (b.getD i 0) m.f
  | _ => []

/-! ### Sampler operations: arguments 0 to 7 the texture words, 8 the sampler word, 9 H, 10 the channel of GATH4, and for
LDEC 0 and 1 the table; `code` is the opcode; a lane holds the words of its run -/

def Op.tex (x : Op) : List Word := x.args.take 8
def Op.laneWord (x : Op) (lane i : Nat) : Word := nth ((x.lanes.get lane).getD []) i
def Op.laneNum (x : Op) (lane i : Nat) : Num := unpack .f32 (x.laneWord lane i).toNat
def Op.laneInt (x : Op) (lane i : Nat) : Int := (x.laneWord lane i).toInt

/-- The sample of a lane of SMP, SMPL or SMPG: for SMP words 2 to 7 are u, v of the quad's lanes 0 to 2. -/
def Op.sample (x : Op) (lane : Nat) : Sample :=
  let w := x.tex
  let sd := nth x.args 8
  let n := x.laneNum lane
  let diff := fun i j => round32 ((n i).add false (n j).negate)
  let raw := match x.code with
    | 0xA1 => n 2
    | 0xA2 => round32 (fnLog2 (rhoOf w [n 2, n 4, n 3, n 5]))
    | _ => round32 (fnLog2 (rhoOf w [diff 4 2, diff 6 2, diff 5 3, diff 7 3]))
  sampleOf w sd (n 0) (n 1) (lambdaOf raw sd)

/-- GATH4's footprint, in the order of its registers. -/
def Op.gather (x : Op) (lane : Nat) : List (Nat × Nat × Nat) :=
  let w := x.tex
  let l := min (x.laneWord lane 2).toNat (texLvls w)
  let t := tapOf w (nth x.args 8) l true (x.laneNum lane 0) (x.laneNum lane 1)
  [2, 3, 1, 0].map fun i => (l, (t.at_.getD i (0, 0)).1, (t.at_.getD i (0, 0)).2)

/-- R171, R176: whether a texel of a level lies in the texture. -/
def inTexture (w : List Word) (l : Nat) (x y : Int) : Bool :=
  l ≤ texLvls w && 0 ≤ x && x < lvlW w l && 0 ≤ y && y < lvlH w l

/-- The texels that a lane reads. -/
def Op.lanePlaces (x : Op) (lane : Nat) : List (Nat × Nat × Nat) :=
  match x.code with
  | 0xA3 => x.gather lane
  | 0xA4 =>
    let l := (x.laneWord lane 2).toNat
    if inTexture x.tex l (x.laneInt lane 0) (x.laneInt lane 1) then [(l, (x.laneInt lane 0).toNat, (x.laneInt lane 1).toNat)]
    else []
  | 0xA5 => []
  | _ => (x.sample lane).places

/-- The words of four channels: binary32 each, or packed with H (R170). -/
def channelWords (h : Bool) (c : List Nat) : List Word :=
  let v := fun i => c.getD i 0
  if h then [BitVec.ofNat 32 (v 0 + v 1 * 65536), BitVec.ofNat 32 (v 2 + v 3 * 65536)]
  else (List.range 4).map fun i => BitVec.ofNat 32 ((unpack .f16 (v i)).pack .f32 .rn)

/-- A lane's result from its texels (R171). -/
def Op.laneWords (x : Op) (lane : Nat) (c : List (List Nat)) : List Word :=
  match x.code with
  | 0xA3 =>
    c.map fun t => BitVec.ofNat 32 ((unpack .f16 (t.getD (nth x.args 10).toNat 0)).pack .f32 .rn)
  | 0xA4 => channelWords (nth x.args 9 = 1) (c.headD [])
  | _ => channelWords (nth x.args 9 = 1) ((x.sample lane).channels c)

/-- LDEC's result (R171). -/
def ldecWord (t : List Byte) (x : Op) (lane : Nat) : Word :=
  let b := wordsBytes (((x.lanes.get lane).getD []).take 4)
  let pos := (x.laneWord lane 4).toNat
  BitVec.ofNat 32 (leNat ((decodeRennet t b (pos % 8) (pos / 8 % 8)).map fun c => BitVec.ofNat 8 c))

/-- A lane is sampled. -/
def State.sampleLane (s : State) (g : Group) (u : WorkUnit) (x : Op) (lane : Nat) : State × Except UnitErr (List Word) :=
  if x.code = 0xA5 then
    match s.rennetTable g u x.id (pair (nth x.args 0) (nth x.args 1)) with
    | (s, .ok t) => (s, .ok [ldecWord t x lane])
    | (s, .error e) => (s, .error e)
  else
    match s.texels g u x.id x.tex (x.lanePlaces lane) with
    | (s, some e, _) => (s, .error e)
    | (s, none, c) => (s, .ok (x.laneWords lane c))

/-! ### Issue -/

/-- A run of V registers as it stands (R170). -/
def runWords (o : Who) (x : Src) (n lane : Nat) : List Word := (List.range n).map fun i => o.w.vreg (x.num.toNat + i) lane

/-- A sampler operation issues; with no lane it is complete. -/
def State.issueSample (s : State) (i : Instr) (o : Who) (x : EngOp) (code span : Nat) (args : List Word)
    (words : Nat → List Word) : State :=
  let m := o.lanes x.h
  if m = 0 then s.finish o i
  else
    let (s, id) := s.fresh1
    s.launchEngine o { blankOp o id (lineCounter o.p x.h.csel) .sample with
      code := code, dst := x.dst, span := span, mask := m, args := args, lanes := (maskBits m).map fun l => (l, words l) }

/-- SAMPLE_DESC. -/
def descTrap (o : Who) (bad : Bool) : Option TrapInfo := if bad then some (TrapInfo.plain codeSampleDesc o.p.pc) else none

/-- SMP, SMPL, SMPG, GATH4 and TXLD. -/
def sampleInstr (i : Instr) (x : EngOp) (code : Nat) (words : Who → Nat → List Word) (s : State) :
    Host.Outcome State Fault Refusal :=
  s.issueIf i
    (fun o _ => descTrap o (texBad (texWords o x.b) || (code != 0xA4 && smpBad (o.sreg x.c.num.toNat))))
    fun o s =>
      let h := code != 0xA3 && WF.modH x
      s.issueSample i o x code (if h then 2 else 4)
        (texWords o x.b ++ [if code = 0xA4 then 0 else o.sreg x.c.num.toNat, if h then 1 else 0,
          (x.mod.extractLsb' 1 2).setWidth 32]) (words o)

/-- SMP's words: the lane's coordinates and those of the quad's lanes 0, 1 and 2. -/
def smpWords (x : EngOp) (o : Who) (l : Nat) : List Word :=
  runWords o x.a 2 l ++ (List.range 3).flatMap fun i => runWords o x.a 2 (l / 4 * 4 + i)

def execSmp (x : EngOp) (s : State) : Host.Outcome State Fault Refusal := sampleInstr (.smp x) x 0xA0 (smpWords x) s
def execSmpl (x : EngOp) (s : State) : Host.Outcome State Fault Refusal :=
  sampleInstr (.smpl x) x 0xA1 (fun o => runWords o x.a 3) s
def execSmpg (x : EngOp) (s : State) : Host.Outcome State Fault Refusal :=
  sampleInstr (.smpg x) x 0xA2 (fun o => runWords o x.a 6) s
def execGath4 (x : EngOp) (s : State) : Host.Outcome State Fault Refusal :=
  sampleInstr (.gath4 x) x 0xA3 (fun o => runWords o x.a 3) s
def execTxld (x : EngOp) (s : State) : Host.Outcome State Fault Refusal :=
  sampleInstr (.txld x) x 0xA4 (fun o => runWords o x.a 3) s

/-- LDEC: the table's address must be a multiple of 64 (R170). -/
def execLdec (x : EngOp) (s : State) : Host.Outcome State Fault Refusal :=
  s.issueIf (.ldec x) (fun o _ => descTrap o ((o.spair x.c.num.toNat).toNat % 64 != 0)) fun o s =>
    s.issueSample (.ldec x) o x 0xA5 1 [o.sreg x.c.num.toNat, o.sreg (x.c.num.toNat + 1)]
      fun l => runWords o x.a 4 l ++ [BitVec.ofNat 32 (s.ctlOf o x.b l)]

/-! ### Order among samples and with image stores (R213 item 1) -/

/-- The place of some bytes that a lane reads. -/
def State.readPlace (s : State) (g : Group) (u : WorkUnit) (lane : Nat) (va : Dword) (n : Nat) : List Piece :=
  match (s.unitLoc g.core u 0 va).2 with
  | some l => [{ lane := lane, off := 0, va := va, loc := l, len := n, data := [], hs := false }]
  | none => []

/-- The texels that a lane still reads. -/
def State.laneTexels (s : State) (g : Group) (u : WorkUnit) (x : Op) (lane : Nat) : List Piece :=
  if x.code = 0xA5 then []
  else (x.lanePlaces lane).flatMap fun p => s.readPlace g u lane (texelVa x.tex p.1 p.2.1 p.2.2) (texelBytes x.tex)

/-- The places that a lane still reads: its texels and its rennet table. -/
def State.laneReads (s : State) (g : Group) (u : WorkUnit) (x : Op) (lane : Nat) : List Piece :=
  let table := fun (a : Dword) => (List.range 17).flatMap fun i => s.readPlace g u lane (a + BitVec.ofNat 64 (64 * i)) 64
  if x.code = 0xA5 then table (pair (nth x.args 0) (nth x.args 1))
  else s.laneTexels g u x lane ++ (if texFmt x.tex = 0 then table (texRnt x.tex) else [])

/-- The lanes that an operation still has to do. -/
def Op.lanesLeft (x : Op) : List Nat := (maskBits x.mask).filter fun l => (x.seen.get l).isNone

/-- Image stores of the part's program order that overlap what a lane reads are performed first, and so are earlier
samples of texels that it reads. Two samples of one table read one entry of the rennet cache, which orders them (R161). -/
def State.laneClear (s : State) (g : Group) (u : WorkUnit) (x : Op) (lane : Nat) : Bool :=
  let old := s.ops.filter fun y => x.prior.contains y.id && !y.done && (y.kind = .image || y.kind = .sample)
  old.all fun y =>
    if y.kind = .image then
      let l := s.laneReads g u x lane
      y.opens.all fun q => l.all fun p => !overlap p q
    else
      let l := s.laneTexels g u x lane
      y.lanesLeft.all fun i => (s.laneTexels g u y i).all fun q => l.all fun p => !overlap p q

/-- Earlier samples of the part have read what an image store is about to write. -/
def State.imageClear (s : State) (g : Group) (u : WorkUnit) (x : Op) (l : List Piece) : Bool :=
  s.ops.all fun y => !x.prior.contains y.id || y.done || y.kind != .sample ||
    y.lanesLeft.all fun lane => (s.laneReads g u y lane).all fun q => l.all fun p => !overlap p q

/-! ### SAMPLER_COMPLETE (R167, R168, R171) -/

/-- A lane's result lands; a lane concerned by a fault has +0 (R167). -/
def State.finishLane (s : State) (g : Group) (u : WorkUnit) (id lane : Nat) : State :=
  match s.op id with
  | none => s
  | some x =>
    if (x.seen.get lane).isSome || !x.mask.getLsbD lane || !s.laneClear g u x lane then s
    else
      match s.sampleLane g u x lane with
      | (s, r) =>
        let words := match r with | .ok w => w | .error _ => []
        let s := s.modWave x.wave fun w =>
          (List.range x.span).foldl (fun (w : Wave) i => w.setV (x.dst.num.toNat + i) (bit1 64 lane) fun _ => nth words i) w
        s.modOp id fun y =>
          { y with seen := y.seen.put lane [],
                   acc := match r with
                     | .ok _ => y.acc
                     | .error e => y.acc.put lane [BitVec.ofNat 32 e.1, lo32 e.2, hi32 e.2] }

/-- R168: the one fault of an instruction: lowest cause, every lane concerned, lowest address of that cause. -/
def Op.unitFault (x : Op) (code : Nat) : Option Pending :=
  let l := x.acc.filter fun e => e.1 < 64
  let worst := l.foldl (fun a e => worseErr a ((nth e.2 0).toNat, pair (nth e.2 1) (nth e.2 2))) none
  worst.map fun e => opFault x code e.1 (maskOf 64 fun i => (Tbl.get l i).isSome) e.2 0

/-- The end of a sampler or ray operation whose lanes are done. -/
def State.closeUnit (s : State) (id code : Nat) : State :=
  match s.op id with
  | none => s
  | some x =>
    if !x.lanesLeft.isEmpty then s
    else (match x.unitFault code with | some f => s.pend x.wave f | none => s).opDone id

/-- SAMPLER_COMPLETE: the named lanes' results are written (all, with none named); a number from 64 on is a virtual sector
that the sampler reads early into its texel cache. -/
def stepSamplerComplete (op : Nat) (sel : List Nat) (s : State) : Host.Outcome State Fault Refusal :=
  .next <|
    match s.liveOp op (fun k => k = .sample) with
    | none => s
    | some (x, g, u) =>
      if s.portWaits (clusterOf g.core) u.netClass 2 then s else
      let s := (sel.filter fun i => 64 ≤ i).foldl (fun s i => s.unitEarly false g.core u op (i - 64)) s
      let l := if sel = [] then x.lanesLeft else sel.filter fun i => i < 64
      (l.foldl (fun s lane => s.finishLane g u op lane) s).closeUnit op codeSampler

/-! ### IMGST (R176) -/

/-- R176: the byte of an RGBA8 channel. -/
def unormByte (v : Num) : Nat :=
  match v with
  | .nan => 0
  | .inf neg => if neg then 0 else 255
  | .fin neg n e =>
    if neg then 0
    else
      let (a, b) := ratio n e
      if b ≤ a then 255 else roundRatio .rn false (255 * a) b

/-- A channel's value in a lane. -/
def imgChannel (o : Who) (x : EngOp) (lane c : Nat) : Num :=
  if WF.modH x then unpack .f16 ((o.w.vreg (x.b.num.toNat + c / 2) lane).toNat / 65536 ^ (c % 2) % 65536)
  else unpack .f32 (o.w.vreg (x.b.num.toNat + c) lane).toNat

/-- The texel that a lane stores: its address and bytes; none outside the texture. -/
def imgTexel (o : Who) (x : EngOp) (w : List Word) (lane : Nat) : Option (Dword × List Byte) :=
  let r := runWords o x.a 3 lane
  let (xi, yi, l) := ((nth r 0).toInt, (nth r 1).toInt, (nth r 2).toNat)
  if inTexture w l xi yi then
    some (texelVa w l xi.toNat yi.toNat, (List.range 4).flatMap fun c =>
      if texFmt w = 1 then [BitVec.ofNat 8 (unormByte (imgChannel o x lane c))]
      else leBytes 2 ((imgChannel o x lane c).pack .f16 .rn))
  else none

/-- The texels of the participating lanes. -/
def imgTexels (o : Who) (x : EngOp) : List (Nat × Dword × List Byte) :=
  (maskBits (o.lanes x.h)).filterMap fun l => (imgTexel o x (texWords o x.c) l).map fun t => (l, t.1, t.2)

def execImgst (x : EngOp) (s : State) : Host.Outcome State Fault Refusal :=
  s.issueWith (.imgst x) (fun _ _ => [])
    (fun o s =>
      let w := texWords o x.c
      if texBad w || texFmt w = 0 then (s, .error (.trap (TrapInfo.plain codeSampleDesc o.p.pc)))
      else s.engineMap o [] ((imgTexels o x).map fun t => { lane := some t.1, off := 0, va := t.2.1, len := t.2.2.length }))
    fun m o s =>
      let l := (imgTexels o x).map fun t =>
        ({ lane := t.1, off := 0, va := t.2.1, loc := mapAt m t.2.1, len := t.2.2.length, data := t.2.2, hs := false } : Piece)
      if l.isEmpty then s.finish o (.imgst x)
      else
        let (s, id) := s.fresh1
        s.launchEngine o { blankOp o id (lineCounter o.p x.h.csel) .image with pieces := lastWriters l }

/-- An image store updates the texel that the core's texel cache holds (R169). -/
def State.texUpdate (s : State) (core : Nat) (p : Piece) : State :=
  match p.loc with
  | .dev a =>
    match (s.core core).tex.get (a / 32) with
    | some d => s.modCore core fun c => { c with tex := c.tex.put (a / 32) (patch d (a % 32) p.data) }
    | none => s
  | _ => s

/-- IMGST_COMPLETE: the named texels are written; with none named, all that are left. -/
def stepImgstComplete (op : Nat) (sel : List Nat) (s : State) : Host.Outcome State Fault Refusal :=
  .next <|
    match s.liveOp op (fun k => k = .image) with
    | none => s
    | some (x, g, u) =>
      let l := x.pick sel
      let ps := x.piecesAt l
      if s.clearOf x ps && s.imageClear g u x ps then
        let s := ps.foldl (fun s p => ((s.tellFabric u x false [p]).engineWrite g.core p.loc p.data).texUpdate g.core p) s
        let s := s.modOp op fun y => { y with seen := l.foldl (fun t i => Tbl.put t i []) y.seen }
        match s.op op with
        | some y => if y.opens.isEmpty then s.opDone op else s
        | none => s
      else s

/-! ### RNINV (R162, R177) -/

/-- Entries of the issuing group's binding on its core that satisfy a test go. A sample issued earlier uses the old
entry: those of the binding that are outstanding on the core come first. -/
def State.dropRennet (s : State) (o : Who) (p : Nat → Bool) : State :=
  let b := o.u.binding o.g.unit
  let stays := fun (e : Nat × Nat × List Word) => !(e.2.1 = b && p e.1)
  { s.modCore o.g.core (fun c => { c with rennet := c.rennet.filter stays }) with
    groups := s.groups.map fun (g : Nat × Group) =>
      if g.2.core = o.g.core then (g.1, { g.2 with rennet := g.2.rennet.filter stays }) else g }

/-- Outstanding sampler operations of the binding on the core. -/
def State.samplesOut (s : State) (o : Who) : Bool :=
  s.ops.any fun y => !y.done && y.kind = .sample && (match s.groups.get y.group with
    | some g => g.core = o.g.core && (match s.units.get g.unit with
      | some u => u.binding g.unit = o.u.binding o.g.unit
      | none => false)
    | none => false)

def rninvCheck (o : Who) (s : State) : State × Except Stop Unit := if s.samplesOut o then (s, .error (.stall 20)) else (s, .ok ())

def execRninv (x : CtlOp) (s : State) : Host.Outcome State Fault Refusal :=
  s.issueWith (.rninv x) (fun _ _ => []) rninvCheck fun _ o s =>
    (s.dropRennet o fun a => a = (o.spair x.a.num.toNat).toNat).finish o (.rninv x)

def execRninvAll (x : CtlOp) (s : State) : Host.Outcome State Fault Refusal :=
  s.issueWith (.rninvAll x) (fun _ _ => []) rninvCheck fun _ o s => (s.dropRennet o fun _ => true).finish o (.rninvAll x)

end Sys2Proof.Machine
end

