-- ==== Sys2Proof/Machine/Ray.lean ====
section
/-! DEFINITION. The ray unit (R165 to R168, R175): exact slab and triangle tests, traversal, RTRACE and RHIT. -/

namespace Sys2Proof.Machine

open Sys2Proof

/-! ### Exact arithmetic on the binary32 grid -/

/-- A finite binary32 value as an integer on the grid 2^-149. -/
def gridOf (x : Num) : Option Int := match x with | .fin _ _ _ => some (Num.onGrid (-149) x) | _ => none

/-- A point or direction on the grid. -/
structure Vec where
  x : Int
  y : Int
  z : Int
deriving DecidableEq, Repr

def Vec.sub (a b : Vec) : Vec := { x := a.x - b.x, y := a.y - b.y, z := a.z - b.z }
def Vec.dot (a b : Vec) : Int := a.x * b.x + a.y * b.y + a.z * b.z
def Vec.cross (a b : Vec) : Vec :=
  { x := a.y * b.z - a.z * b.y, y := a.z * b.x - a.x * b.z, z := a.x * b.y - a.y * b.x }

/-- Three values as a vector, if all are finite. -/
def vecOf (a b c : Num) : Option Vec :=
  match gridOf a, gridOf b, gridOf c with
  | some x, some y, some z => some { x := x, y := y, z := z }
  | _, _, _ => none

/-- A real bound: infinite, or a ratio with a positive denominator. -/
inductive Bound where
  | low
  | high
  | ratio (n : Int) (d : Nat)
deriving DecidableEq, Repr

def Bound.le : Bound → Bound → Bool
  | .low, _ => true
  | _, .high => true
  | .high, _ => false
  | _, .low => false
  | .ratio a b, .ratio c d => decide (a * d ≤ c * b)

/-- n / d with a positive denominator, d not 0. -/
def Bound.div (n d : Int) : Bound := if 0 < d then .ratio n d.natAbs else .ratio (-n) d.natAbs

/-- A value as a bound on a ray's parameter; NaN bounds nothing. -/
def boundOf (x : Num) : Option Bound :=
  match x with
  | .nan => none
  | .inf neg => some (if neg then .low else .high)
  | .fin _ _ _ => some (.ratio (Num.onGrid (-149) x) (2 ^ 149))

/-! ### Rays, boxes and triangles (R166) -/

/-- A ray whose values are finite: origin, direction, and the range of t. -/
structure Ray where
  o    : Vec
  d    : Vec
  tmin : Bound
  tmax : Bound

/-- A ray from eight binary32 values; one with a NaN, or an infinite origin or direction, meets nothing. -/
def rayOf (w : List Word) : Option Ray :=
  let n := fun i => unpack .f32 (nth w i).toNat
  match vecOf (n 0) (n 1) (n 2), vecOf (n 4) (n 5) (n 6), boundOf (n 3), boundOf (n 7) with
  | some o, some d, some a, some b => some { o := o, d := d, tmin := a, tmax := b }
  | _, _, _, _ => none

/-- The range of t within one slab; none where it is empty, or where a face is NaN, a DESIGN CHOICE (log entry 75). -/
def slab (o d : Int) (lo hi : Num) : Option (Bound × Bound) :=
  let bound := fun (x : Num) (inf : Bool → Bound) => match x with
    | .nan => none
    | .inf neg => some (inf neg)
    | .fin _ _ _ => some (if d = 0 then .ratio (Num.onGrid (-149) x - o) 1 else Bound.div (Num.onGrid (-149) x - o) d)
  if d = 0 then
    match bound lo (fun neg => if neg then .low else .high), bound hi (fun neg => if neg then .low else .high) with
    | some a, some b => if a.le (.ratio 0 1) && Bound.le (.ratio 0 1) b then some (.low, .high) else none
    | _, _ => none
  else
    let up := decide (0 < d)
    match bound lo (fun neg => if neg = up then .low else .high), bound hi (fun neg => if neg = up then .low else .high) with
    | some a, some b => some (if up then (a, b) else (b, a))
    | _, _ => none

def Bound.max (a b : Bound) : Bound := if a.le b then b else a
def Bound.min (a b : Bound) : Bound := if a.le b then a else b

/-- R166: the exact slab test; `f i` is value i of the box. -/
def Ray.meets (r : Ray) (f : Nat → Num) : Bool :=
  match slab r.o.x r.d.x (f 0) (f 3), slab r.o.y r.d.y (f 1) (f 4), slab r.o.z r.d.z (f 2) (f 5) with
  | some x, some y, some z =>
    let lo := ((r.tmin.max x.1).max y.1).max z.1
    let hi := ((r.tmax.min x.2).min y.2).min z.2
    lo.le hi && lo != .high && hi != .low
  | _, _, _ => false

/-- A hit: t and the barycentrics over one positive denominator, and FRONTHIT. -/
structure Hit where
  t     : Int
  b1    : Int
  b2    : Int
  den   : Nat
  front : Bool

/-- R166: the exact solution of a triangle. -/
def Ray.solve (r : Ray) (v0 v1 v2 : Vec) : Option Hit :=
  let e1 := v1.sub v0
  let e2 := v2.sub v0
  let p := r.d.cross e2
  let det := e1.dot p
  let q := r.o.sub v0
  let s := q.cross e1
  if det = 0 then none
  else
    let sg : Int := if det < 0 then -1 else 1
    let b1 := sg * q.dot p
    let b2 := sg * r.d.dot s
    let t := sg * e2.dot s
    let den := det.natAbs
    if 0 ≤ b1 && 0 ≤ b2 && b1 + b2 ≤ den && r.tmin.le (.ratio t den) && Bound.le (.ratio t den) r.tmax then
      some { t := t, b1 := b1, b2 := b2, den := den, front := decide (r.d.dot (e1.cross e2) < 0) }
    else none

/-- round_binary32 of a ratio. -/
def ratio32 (n : Int) (d : Nat) : Nat := roundIeee .f32 .rn (decide (n < 0)) n.natAbs d

/-! ### Traversal (R165, R166, R168) -/

/-- The best hit so far, its key and its record words. -/
structure Best where
  t    : Num
  ids  : List Nat
  rec' : List Word

/-- Whether a hit comes before another: t_r, then instance, geometry and primitive id. -/
def Best.before (a b : Best) : Bool :=
  if a.t.lt b.t then true else if b.t.lt a.t then false else listLt a.ids b.ids
where
  listLt : List Nat → List Nat → Bool
    | [], _ => false
    | _, [] => false
    | a :: r, b :: t => if a < b then true else if b < a then false else listLt r t

/-- The words of a hit record but the last (R175). -/
def hitRecord (h : Hit) (prim geom inst : Word) : List Word :=
  [BitVec.ofNat 32 (ratio32 h.t h.den), BitVec.ofNat 32 (ratio32 h.b1 h.den), BitVec.ofNat 32 (ratio32 h.b2 h.den), prim,
   geom, inst, if h.front then 3 else 1]

/-- A leaf against a ray. -/
def leafHit (r : Option Ray) (d : List Byte) : Option Best :=
  let w := bytesWords d
  let n := fun i => unpack .f32 (nth w i).toNat
  match r, vecOf (n 0) (n 1) (n 2), vecOf (n 3) (n 4) (n 5), vecOf (n 6) (n 7) (n 8) with
  | some r, some a, some b, some c =>
    (r.solve a b c).map fun h =>
      { t := unpack .f32 (ratio32 h.t h.den), ids := [(nth w 11).toNat, (nth w 10).toNat, (nth w 9).toNat],
        rec' := hitRecord h (nth w 9) (nth w 10) (nth w 11) }
  | _, _, _, _ => none

/-- R165: a node that breaks its format. -/
def nodeBad (w : List Word) : Bool :=
  nth w 15 != 0 || 1 < (nth w 14).toNat || ((nth w 14).toNat = 1 && (nth w 12 != 0 || nth w 13 != 0))

/-- The children that a ray enters, left first. -/
def nodeKids (r : Option Ray) (root : Dword) (w : List Word) : List Dword :=
  let kid := fun (k : Nat) => root + BitVec.ofNat 64 (64 * (nth w (12 + k)).toNat)
  match r with
  | none => []
  | some r =>
    (List.range 2).filterMap fun k =>
      if r.meets fun i => unpack .f32 (nth w (6 * k + i)).toNat then some (kid k) else none

/-- What a lane's traversal comes to: a fault, or its best hit; the number of nodes visited, and which. -/
structure Traced where
  err  : Option UnitErr
  best : Option Best
  n    : Nat
  at_  : List Dword

/-- R166: depth-first from the nodes that are left; `any` stops at the first hit. The node beyond the limit is not counted, a
DESIGN CHOICE (log entry 75). -/
def State.traverse (s : State) (core : Nat) (u : WorkUnit) (op : Nat) (any : Bool) (root : Dword) (r : Option Ray) :
    Nat → List Dword → Traced → State × Traced
  | _, [], t => (s, t)
  | 0, a :: _, t => (s, { t with err := some (6, a) })
  | f + 1, a :: rest, t =>
    let t := { t with n := t.n + 1, at_ := a :: t.at_ }
    match s.unitRead true core u op 7 a 2 64 with
    | (s, .error e) => (s, { t with err := some e })
    | (s, .ok d) =>
      let w := bytesWords d
      if nodeBad w then (s, { t with err := some (5, a) })
      else if nth w 14 = 0 then s.traverse core u op any root r f (nodeKids r root w ++ rest) t
      else
        match leafHit r d with
        | none => s.traverse core u op any root r f rest t
        | some h =>
          if any then (s, { t with best := some h })
          else
            let best := match t.best with | none => h | some b => if h.before b then h else b
            s.traverse core u op any root r f rest { t with best := some best }

/-! ### RTRACE (R175): argument 0 is ANY, 1 and 2 the structure's address; a lane holds its ray -/

def execRtrace (x : EngOp) (s : State) : Host.Outcome State Fault Refusal :=
  s.issueIf (.rtrace x) (fun o _ => descTrap o ((o.spair x.b.num.toNat).toNat % 64 != 0)) fun o s =>
    let m := o.lanes x.h
    if m = 0 then s.finish o (.rtrace x)
    else
      let (s, id) := s.fresh1
      s.launchEngine o { blankOp o id (lineCounter o.p x.h.csel) .trace with
        mask := m, lanes := (maskBits m).map fun l => (l, runWords o x.a 8 l),
        args := [if x.mod.getLsbD 0 then 1 else 0, o.sreg x.b.num.toNat, o.sreg (x.b.num.toNat + 1)] }

/-- The hit record that a trace leaves (R167, R175). -/
def Traced.record (t : Traced) : List Word :=
  let miss : List Word := [0x7F800000, 0, 0, 0xFFFFFFFF, 0xFFFFFFFF, 0xFFFFFFFF, 0]
  (match t.err, t.best with | none, some b => b.rec' | _, _ => miss) ++ [BitVec.ofNat 32 t.n]

/-- The root of a trace. -/
def Op.traceRoot (x : Op) : Dword := pair (nth x.args 1) (nth x.args 2)

/-- The traversal of a lane's ray. -/
def State.traceOf (s : State) (g : Group) (u : WorkUnit) (x : Op) (lane : Nat) : State × Traced :=
  s.traverse g.core u x.id (nth x.args 0 = 1) x.traceRoot (rayOf ((x.lanes.get lane).getD [])) 1048576 [x.traceRoot]
    { err := none, best := none, n := 0, at_ := [] }

/-- Earlier traces of a lane are done, and so are the part's earlier traces that visit a node that it visits (R213 item
1): those of its own structure all visit the root. -/
def State.traceTurn (s : State) (g : Group) (u : WorkUnit) (x : Op) (lane : Nat) : Bool :=
  (s.ops.filter fun y => x.prior.contains y.id && !y.done && y.kind = .trace).all fun y =>
    (!y.mask.getLsbD lane || (y.seen.get lane).isSome) &&
    (((maskBits y.mask).filter fun i => (y.seen.get i).isNone).all fun i =>
      y.traceRoot != x.traceRoot &&
        (let l := (s.traceOf g u y i).2.at_
         (s.traceOf g u x lane).2.at_.all fun a => !l.contains a))

/-- A lane's ray is traced: a visit beyond the 2^20th is cause 6. -/
def State.traceLane (s : State) (g : Group) (u : WorkUnit) (id lane : Nat) : State :=
  match s.op id with
  | none => s
  | some x =>
    if (x.seen.get lane).isSome || !x.mask.getLsbD lane || !s.traceTurn g u x lane then s
    else
      match s.traceOf g u x lane with
      | (s, t) =>
        let s := s.modWave x.wave fun w => { w with hits := w.hits.put lane t.record }
        s.modOp id fun y =>
          { y with seen := y.seen.put lane [],
                   acc := match t.err with
                     | none => y.acc
                     | some e => y.acc.put lane [BitVec.ofNat 32 e.1, lo32 e.2, hi32 e.2] }

/-- RTRACE_COMPLETE: the named lanes' records are replaced (all, with none named); a number from 64 on is a virtual sector
that the ray unit reads early into its node cache. -/
def stepRtraceComplete (op : Nat) (sel : List Nat) (s : State) : Host.Outcome State Fault Refusal :=
  .next <|
    match s.liveOp op (fun k => k = .trace) with
    | none => s
    | some (x, g, u) =>
      if s.portWaits (clusterOf g.core) u.netClass 2 then s else
      let s := (sel.filter fun i => 64 ≤ i).foldl (fun s i => s.unitEarly true g.core u op (i - 64)) s
      let l := if sel = [] then x.lanesLeft else sel.filter fun i => i < 64
      (l.foldl (fun s lane => s.traceLane g u op lane) s).closeUnit op codeRay

/-- RHIT: it waits until every earlier RTRACE of its lanes has completed. -/
def execRhit (x : EngOp) (s : State) : Host.Outcome State Fault Refusal :=
  s.issueWith (α := Unit) (.rhit x) (fun _ _ => [])
    (fun o s =>
      if s.ops.any fun y => y.wave = o.pr.wave && !y.done && y.kind = .trace && (y.mask &&& o.lanes x.h) != 0 then
        (s, .error (.stall 21))
      else (s, .ok ()))
    fun _ o s =>
      let s := s.modWave o.pr.wave fun w =>
        (List.range 8).foldl (fun (w : Wave) i => w.setV (x.dst.num.toNat + i) (o.lanes x.h) fun l => nth (o.w.hit l) i) w
      s.finish o (.rhit x)

end Sys2Proof.Machine
end

