-- ==== Sys2Proof/Machine/Graphics.lean ====
section
/-! DEFINITION. Tiles and the coarse rasteriser (R154 to R156, R172 to R174, R312). -/

namespace Sys2Proof.Machine

open Sys2Proof

/-! ### Edge functions (R156) -/

/-- The three edges of a record: A, B and C. -/
structure Edges where
  a : List Int
  b : List Int
  c : List Int

/-- Edge e at the centre of a pixel. -/
def Edges.at (t : Edges) (e px py : Nat) : Int :=
  t.a.getD e 0 * (256 * px + 128 : Nat) + t.b.getD e 0 * (256 * py + 128 : Nat) + t.c.getD e 0

/-- R156: pass(e). -/
def Edges.pass (t : Edges) (e px py : Nat) : Bool :=
  let v := t.at e px py
  let a := t.a.getD e 0
  0 < v || (v = 0 && (0 < a || (a = 0 && 0 < t.b.getD e 0)))

def Edges.covers (t : Edges) (px py : Nat) : Bool := t.pass 0 px py && t.pass 1 px py && t.pass 2 px py

/-- The edges in a part's S registers from k on. -/
def edgesOf (o : Who) (k : Nat) : Edges :=
  { a := (List.range 3).map fun e => (o.sreg (k + 4 * e)).toInt,
    b := (List.range 3).map fun e => (o.sreg (k + 1 + 4 * e)).toInt,
    c := (List.range 3).map fun e => (o.spair (k + 2 + 4 * e)).toInt }

/-- The pixel of a lane position. -/
def pixelOf (pos : Nat) : Nat × Nat := (2 * (pos / 4 % 4) + pos % 2, 2 * (pos / 16) + pos / 2 % 2)

/-- R172: bits 0 to 2 the edges that pass, bit 3 covered. -/
def Edges.bits (t : Edges) (pos : Nat) : Nat :=
  let (px, py) := pixelOf pos
  let p := fun e => if t.pass e px py then 2 ^ e else 0
  p 0 + p 1 + p 2 + if t.covers px py then 8 else 0

def execEdge (x : EngOp) (s : State) : Host.Outcome State Fault Refusal :=
  s.issue (.edge x) fun o s =>
    let t := edgesOf o x.a.num.toNat
    let f := fun l =>
      let v := t.bits (s.ctlOf o x.b l % 64)
      if x.dst.cls = .p then v / 8 else v
    (s.writeDst o x.dst false (o.lanes x.h) f).finish o (.edge x)

/-! ### EMIT (R155, R174) -/

/-- R312: an EMIT of a cut wave is a decision, kind 8. -/
def emitCheck (o : Who) (s : State) : State × Except Stop Unit :=
  if o.u.kindCode != 1 then (s, .error (.trap (TrapInfo.plain codeTileStream o.p.pc)))
  else if 1 < o.w.parts.length && !s.mayDecide o 8 then (s, .error (.stall 4))
  else (s, .ok ())

/-- Arguments of an EMIT's operation: CULL and the sequence number; a lane holds its vertices and its PRIM. -/
def execEmit (x : EngOp) (s : State) : Host.Outcome State Fault Refusal :=
  s.issueWith (.emit x) (fun _ _ => []) emitCheck fun _ o s =>
    let m := o.lanes x.h
    let n := o.w.seqs.emit
    let s := s.modWave o.pr.wave fun w => { w with seqs := { w.seqs with emit := w.seqs.emit + 1 } }
    let s := if 1 < o.w.parts.length then s.decide o 8 0 o.pr.part o.p.pc.toNat o.p.quads.toNat n.toNat else s
    if m = 0 then s.finish o (.emit x)
    else
      let (s, id) := s.fresh1
      s.launchEngine o { blankOp o id (lineCounter o.p x.h.csel) .emit with
        mask := m, args := [if x.mod.getLsbD 0 then 1 else 0, n], logs := if 1 < o.w.parts.length then [128] else [],
        lanes := (maskBits m).map fun l => (l, runWords o x.a 6 l ++ [BitVec.ofNat 32 (s.ctlOf o x.b l)]) }

/-- A triangle that is set up (R155). -/
structure Setup where
  front : Bool
  e     : Edges
  xs    : List Int
  ys    : List Int

/-- R155: set-up; none for a triangle that is discarded. -/
def setupOf (cull : Bool) (v : List Word) : Option Setup :=
  let c := fun i => (nth v i).toInt
  let x := fun i => c (2 * (i % 3))
  let y := fun i => c (2 * (i % 3) + 1)
  let a := (List.range 3).map fun i => y i - y (i + 1)
  let b := (List.range 3).map fun i => x (i + 1) - x i
  let k := (List.range 3).map fun i => x i * y (i + 1) - x (i + 1) * y i
  let area2 := a.getD 0 0 * x 2 + b.getD 0 0 * y 2 + k.getD 0 0
  let front := decide (0 < area2)
  if ((List.range 6).any fun i => c i < -(2 ^ 23) || 2 ^ 24 - 1 < c i) || area2 = 0 || (!front && cull) then none
  else
    let sg : Int := if front then 1 else -1
    some { front := front, e := { a := a.map (sg * ·), b := b.map (sg * ·), c := k.map (sg * ·) },
           xs := (List.range 3).map x, ys := (List.range 3).map y }

/-- The edges relative to a tile's origin. -/
def Edges.inTile (t : Edges) (tx ty : Nat) : Edges :=
  { t with c := (List.range 3).map fun e => t.c.getD e 0 + 2048 * (t.a.getD e 0 * tx + t.b.getD e 0 * ty) }

/-- Whether some pixel of a tile is covered. -/
def Edges.coversTile (t : Edges) : Bool := (List.range 64).any fun i => t.covers (i % 8) (i / 8)

/-- Tiles 0 to `last` that a range of coordinates touches. -/
def tileRange (l : List Int) (last : Nat) : List Nat :=
  let lo := l.foldl min (l.headD 0)
  let hi := l.foldl max (l.headD 0)
  let a := (max 0 ((lo + 2047) / 2048 - 1)).toNat
  let b := hi / 2048
  if b < 0 then [] else (List.range (min b.toNat last + 1 - a)).map (a + ·)

/-- R154: the words of a record, its ticket still to come. -/
def recordWords (t : Setup) (prim : Word) (tx ty : Nat) : List Word :=
  let e := t.e.inTile tx ty
  [BitVec.ofNat 32 (ty * 65536 + tx), prim, if t.front then 3 else 1, 0] ++ (List.range 3).flatMap fun i =>
    let c : Dword := BitVec.ofInt 64 (e.c.getD i 0)
    [BitVec.ofInt 32 (e.a.getD i 0), BitVec.ofInt 32 (e.b.getD i 0), lo32 c, hi32 c]

/-- R312: the cluster that owns a position. -/
def ownerOf (clusters : Dword) (tx ty : Nat) : Option Nat :=
  let l := maskBits clusters
  l[(tx + 5 * ty) % l.length]?

/-- The records of one triangle on a draw's grid, each with its cluster. -/
def tileRecords (ctr draw tw th : Nat) (clusters : Dword) (key : List Nat) (t : Setup) (prim : Word) : List (Nat × TileRec) :=
  (tileRange t.ys th).flatMap fun ty => (tileRange t.xs tw).filterMap fun tx =>
    if (t.e.inTile tx ty).coversTile || Config.extraTile ctr tx ty then
      (ownerOf clusters tx ty).map fun k =>
        (k, { unit := draw, tx := tx, ty := ty, key := key, ticket := 0, words := recordWords t prim tx ty })
    else none

/-- The pixel launch of a geometry launch, and its draw's grid. -/
def State.drawOf (s : State) (u : WorkUnit) : Option (WorkUnit × Nat × Nat) :=
  match u.peer.bind s.units.get, u.parent.bind s.units.get with
  | some p, some d => some (p, (nth d.words 0).toNat % 65536, (nth d.words 0).toNat / 65536)
  | _, _ => none

/-- The key of a lane's triangle (R312). -/
def emitKey (g : Group) (w : Wave) (x : Op) (lane : Nat) : List Nat := [g.g, w.index, (nth x.args 1).toNat, lane]

/-- One lane's triangle goes to the rasterisers. -/
def State.emitLane (s : State) (g : Group) (w : Wave) (draw : Nat) (p : WorkUnit) (tw th : Nat) (x : Op) (lane : Nat) : State :=
  let v := (x.lanes.get lane).getD []
  match setupOf (nth x.args 0 = 1) v with
  | none => s
  | some t =>
    let s := s.tick
    (tileRecords s.ctr draw tw th p.clusters (emitKey g w x lane) t (nth v 6)).foldl (fun s e =>
      s.modCluster e.1 fun c => { c with rast := { c.rast with recs := c.rast.recs ++ [e.2] } }) s

/-- RASTER_ACCEPT: every triangle of an EMIT is accepted, lane by lane (R155, R174), once the draw's pixel launch record
says which clusters take part. -/
def stepRasterAccept (op : Nat) (s : State) : Host.Outcome State Fault Refusal :=
  .next <|
    match s.liveOp op (fun k => k = .emit) with
    | none => s
    | some (x, g, u) =>
      match s.waves.get x.wave, s.drawOf u with
      | some w, some (p, tw, th) =>
        if p.words = [] && !p.state.isEnd then s
        else
          let s := if p.words = [] then s
            else (maskBits x.mask).foldl (fun s lane => s.emitLane g w u.draw p tw th x lane) s
          s.opDone op
      | _, _ => s.opDone op

/-! ### TILEQ (R173, R312, R313) -/

/-- Whether a key of primitive order comes before another. -/
def keyLt : List Nat → List Nat → Bool
  | a :: r, b :: t => if a < b then true else if b < a then false else keyLt r t
  | _, _ => false

/-- Whether no triangle before a key is still to come: earlier groups and waves of the geometry launch have ended, and
earlier EMITs of its own wave have been accepted. -/
def State.keyReady (s : State) (geom : Nat) (key : List Nat) : Bool :=
  match s.units.get geom with
  | none => true
  | some u =>
    u.state.isEnd ||
    (let g := key.headD 0
     let w := key.getD 1 0
     g < u.next && (s.groupsOf geom).all fun e =>
       g < e.2.g || (e.2.g = g && e.2.waves.all fun id => match s.waves.get id with
         | some v => w < v.index || (v.index = w && s.ops.all fun x =>
             x.wave != id || x.done || x.kind != .emit || key.getD 2 0 ≤ (nth x.args 1).toNat)
         | none => true))

/-- The records that a cluster may hand out for a draw: at each position the first of primitive order. -/
def State.readyRecs (s : State) (cl draw geom : Nat) : List TileRec :=
  let l := (s.cluster cl).rast.recs.filter fun r => r.unit = draw
  l.filter fun r => s.keyReady geom r.key && l.all fun q => q.tx != r.tx || q.ty != r.ty || !keyLt q.key r.key

/-- Whether a cluster's stream of a draw is at its end (R312). -/
def State.streamOver (s : State) (cl draw geom : Nat) : Bool :=
  (match s.units.get geom with | some u => u.state.isEnd | none => true) &&
  !(s.cluster cl).rast.recs.any fun r => r.unit = draw

/-- A record with its ticket. -/
def TileRec.ticketed (r : TileRec) (n : Nat) : TileRec := { r with ticket := n, words := r.words.set 3 (BitVec.ofNat 32 n) }

/-- A record is taken from its rasteriser: its ticket is the number of earlier records of its position. -/
def State.takeRec (s : State) (cl : Nat) (r : TileRec) : State × TileRec :=
  let k := posKey r.unit r.tx r.ty
  let n := ((s.cluster cl).rast.count.get k).getD 0
  (s.modCluster cl fun c => { c with rast := { c.rast with recs := c.rast.recs.filter fun q => q != r, count := c.rast.count.put k (n + 1) } },
   r.ticketed n)

/-- The words of a record land in every quad of the part. -/
def State.landRec (s : State) (o : Who) (x : EngOp) (t : TileState) : State :=
  let s := s.modWave o.pr.wave fun w =>
    (List.range 16).foldl (fun (w : Wave) i => w.setS (x.dst.num.toNat + i) o.p.quads (nth t.words i)) { w with tile := some t }
  s.finish o (.tileq x)

/-- The end record (R154). -/
def endRec : TileState := { words := List.replicate 16 0, ticket := 0, held := false, done := true }

/-- R173: TILE_STREAM. -/
def tileqTrap (o : Who) (_ : State) : Option TrapInfo :=
  if o.u.kindCode != 2 || o.w.nquads < 16 || (List.range 16).any fun q => o.w.exited.extractLsb' (4 * q) 4 = (15 : BitVec 4) then
    some (TrapInfo.plain codeTileStream o.p.pc)
  else none

/-- TILEQ: the wave's current ticket is retired, and the wave waits; past the end record it gets that record again. -/
def execTileq (x : EngOp) (s : State) : Host.Outcome State Fault Refusal :=
  s.issueIf (.tileq x) tileqTrap fun o s =>
    if o.w.tile.map (·.words) = some endRec.words then s.landRec o x endRec
    else (s.retireTile o).holdOn o.pr (.tileq x) 13

/-- TILE_RECORD_HANDOUT: the cluster's rasteriser hands the wave one of its ready records, or the end record. -/
def stepTileRecordHandout (p : PartRef) (pick : Nat) (s : State) : Host.Outcome State Fault Refusal :=
  .next <|
    match s.who p with
    | some o =>
      match o.p.hold, o.p.status with
      | .instr (.tileq x), .resident =>
        let cl := clusterOf o.g.core
        let geom := o.u.peer.getD 0
        match (s.readyRecs cl o.u.draw geom)[pick]? with
        | some r =>
          match s.takeRec cl r with
          | (s, r) => s.landRec o x { words := r.words, ticket := r.ticket, held := false, done := false }
        | none => if s.streamOver cl o.u.draw geom then s.landRec o x endRec else s
      | _, _ => s
    | none => s

end Sys2Proof.Machine
end

