-- ==== Sys2Proof/Machine/Sync.lean ====
section
/-! DEFINITION. Barriers, tile queues, the launch barrier, work made and cancelled by instructions, completion counters
and raster order: opcodes 0xB0 to 0xBF and their events (R301 to R317). -/

namespace Sys2Proof.Machine

open Sys2Proof

/-! ### Accesses of the local store made by these instructions -/

/-- An access of n bytes of the group's local store, as the memory-ordering log sees it (R393). -/
def lsPiece (o : Who) (a n : Nat) : Piece :=
  { lane := 0, off := 0, va := BitVec.ofNat 64 a, loc := .ls o.w.group a, len := n, data := [], hs := false }

/-- R208, R213 item 1: an earlier normal-path access of the part overlaps the place and is still to be performed. -/
def State.placeBusy (s : State) (o : Who) (a n : Nat) : Bool :=
  (s.before o).any fun y => y.kind.path = 0 && y.opens.any fun q => overlap q (lsPiece o a n)

/-- Whether the part may reach a place of the local store now: after its own earlier accesses, and when the replay admits
it (R395). -/
def State.lsAdmits (s : State) (o : Who) (a n : Nat) (write : Bool) : Bool :=
  !s.placeBusy o a n && s.admits o.g o.u (blankOp o 0 none .load) (lsPiece o a n) write

/-- The access is entered in the log. -/
def State.lsNote (s : State) (o : Who) (a n : Nat) (write : Bool) : State :=
  s.noteRun o.g o.u (blankOp o 0 none .load) (lsPiece o a n) write

/-! ### Barriers (R302 to R306) -/

/-- The barrier that an instruction names. -/
def barrOf (o : Who) (x : CtlOp) : Nat := (o.sreg x.a.num.toNat).toNat

/-- A trap that concerns an address. -/
def addrTrap (o : Who) (code a : Nat) : TrapInfo := { TrapInfo.plain code o.p.pc with addr := BitVec.ofNat 64 a }

/-- R2: the MEM_DATA of a barrier whose bytes are in uncorrectable error, which the instruction itself reads (log entry
82). -/
def barrData (o : Who) (a : Nat) : TrapInfo :=
  { addrTrap o codeMemData a with defer := true, cpc := o.p.pc, aux0 := 0x400000 }

/-- R317: MEM_ALIGN, then LS_RANGE; then an error of the object itself. -/
def State.barrPlace (s : State) (o : Who) (a : Nat) : Option TrapInfo :=
  if a % 16 != 0 then some (addrTrap o codeMemAlign a)
  else if o.u.lsz < a + 16 then some (addrTrap o codeLsRange a)
  else if s.barrBad o.w.group a then some (barrData o a)
  else none

/-- The same, then BAR_STATE for what R302 forbids. -/
def State.barrTrap (s : State) (o : Who) (x : CtlOp) : Option TrapInfo :=
  let a := barrOf o x
  match s.barrPlace o a with
  | some t => some t
  | none => if (s.readBarr o.w.group a).legal then none else some (addrTrap o codeBarState a)

/-- An instruction on a barrier: it finds the object as the part's earlier accesses leave it; its traps, then what it waits
for before it issues; `release` for an arrival (R306). -/
def State.barrCheck (s : State) (o : Who) (x : CtlOp) (trap : Option TrapInfo) (release : Bool) : State × Except Stop Unit :=
  if s.placeBusy o (barrOf o x) 16 then (s, .error (.stall 2))
  else
    match trap with
    | some t => (s, .error (.trap t))
    | none =>
      if release && s.accessesOut o then (s, .error (.stall 2))
      else if !s.lsAdmits o (barrOf o x) 16 true then (s, .error (.stall 2))
      else (s, .ok ())

/-- Waves of the part's group. -/
def State.mates (s : State) (o : Who) : Tbl Wave := s.waves.filter fun w => w.2.group = o.w.group

/-- R305: a barrier initialised to expect n quads; no wave is registered any more. -/
def State.initBarr (s : State) (o : Who) (a n : Nat) : State :=
  let b := s.readBarr o.w.group a
  let s := s.writeBarr o.w.group a
    { arrq := 0, expq := n, phase := (b.phase + 1) % 2 ^ 16, dropq := 0, pend := 0, ovf := 0 }
  let clear := fun (w : Wave) => { w with regs := w.regs.filter fun r => r.addr != a }
  { s with waves := s.waves.map fun w => if w.2.group = o.w.group then (w.1, clear w.2) else w }

/-- BARI: A read as N32 gives the quads expected. -/
def execBari (x : CtlOp) (s : State) : Host.Outcome State Fault Refusal :=
  s.issueWith (.bari x) (fun _ _ => [])
    (fun o s =>
      let a := barrOf o x
      let n := (s.scalar o x.b 0).toNat
      s.barrCheck o x (match s.barrPlace o a with
        | some t => some t
        | none => if n = 0 || 256 < n then some (addrTrap o codeBarState a) else none) false)
    fun _ o s =>
      let a := barrOf o x
      ((s.initBarr o a (s.scalar o x.b 0).toNat).lsNote o a 16 true).finish o (.bari x)

/-- BARI.GROUP: every unexited quad of the group is registered. -/
def execBariGroup (x : CtlOp) (s : State) : Host.Outcome State Fault Refusal :=
  s.issueWith (.bariGroup x) (fun _ _ => [])
    (fun o s =>
      let a := barrOf o x
      let full := fun (w : Wave) => w.liveQuads != 0 && 8 ≤ (w.regs.filter fun r => r.addr != a).length
      s.barrCheck o x (match s.barrPlace o a with
        | some t => some t
        | none => if (s.mates o).any (fun w => full w.2) then some (addrTrap o codeBarRegs a) else none) false)
    fun _ o s =>
      let a := barrOf o x
      let n := ((s.mates o).map fun w => maskCount w.2.liveQuads).foldl (· + ·) 0
      let s := s.initBarr o a n
      let ph := BitVec.ofNat 16 (s.readBarr o.w.group a).phase
      let enter := fun (w : Wave) => w.putReg { addr := a, reg := w.liveQuads, arr := 0, last := ph }
      let s := { s with waves := s.waves.map fun (w : Nat × Wave) => if w.2.group = o.w.group then (w.1, enter w.2) else w }
      (s.lsNote o a 16 true).finish o (.bariGroup x)

/-- The wave's entry, with ARRMASK as it stands in the barrier's phase (R305). -/
def entryOf (o : Who) (a : Nat) (b : Barr) : Registration :=
  match o.w.regAt a with
  | some e => if e.last.toNat = b.phase then e else { e with arr := 0, last := BitVec.ofNat 16 b.phase }
  | none => { addr := a, reg := 0, arr := 0, last := BitVec.ofNat 16 b.phase }

/-- ARRIVE's own traps beyond those of every barrier instruction: BAR_REGS, BAR_COUNT. -/
def State.arriveTrap (s : State) (o : Who) (x : CtlOp) : Option TrapInfo :=
  let a := barrOf o x
  let b := s.readBarr o.w.group a
  match s.barrTrap o x with
  | some t => some t
  | none =>
    if (o.w.regAt a).isNone && 8 ≤ o.w.regs.length then some (addrTrap o codeBarRegs a)
    else if (o.p.quads &&& (entryOf o a b).arr) != 0 || b.expq < b.arrq + maskCount o.p.quads then
      some (addrTrap o codeBarCount a)
    else none

/-- ARRIVE: the part's quads arrive, and Sd holds the token. -/
def execArrive (x : CtlOp) (s : State) : Host.Outcome State Fault Refusal :=
  s.issueWith (.arrive x) (fun _ _ => []) (fun o s => s.barrCheck o x (s.arriveTrap o x) true) fun _ o s =>
    let a := barrOf o x
    let b := s.readBarr o.w.group a
    let e := entryOf o a b
    let s := s.writeBarr o.w.group a { b with arrq := b.arrq + maskCount o.p.quads }.settle
    let s := s.modWave o.pr.wave fun w => w.putReg { e with arr := e.arr ||| o.p.quads, reg := e.reg ||| o.p.quads }
    ((s.lsNote o a 16 true).writeS o x.dst b.phase).finish o (.arrive x)

/-- ARRDROP: the registered quads of the part are dropped. -/
def execArrdrop (x : CtlOp) (s : State) : Host.Outcome State Fault Refusal :=
  s.issueWith (.arrdrop x) (fun _ _ => []) (fun o s => s.barrCheck o x (s.barrTrap o x) true) fun _ o s =>
    let a := barrOf o x
    let e := entryOf o a (s.readBarr o.w.group a)
    let (b, e) := dropQuads (s.readBarr o.w.group a) e (o.p.quads &&& e.reg)
    (((s.writeBarr o.w.group a b).modWave o.pr.wave fun w => w.putReg e).lsNote o a 16 true).finish o (.arrdrop x)

/-- BEXPECT: A bytes more are expected. -/
def execBexpect (x : CtlOp) (s : State) : Host.Outcome State Fault Refusal :=
  s.issueWith (.bexpect x) (fun _ _ => [])
    (fun o s =>
      let a := barrOf o x
      s.barrCheck o x (match s.barrTrap o x with
        | some t => some t
        | none =>
          if 2 ^ 32 ≤ (s.readBarr o.w.group a).pend + (s.scalar o x.b 0).toNat then some (addrTrap o codeBarState a)
          else none) false)
    fun _ o s =>
      let a := barrOf o x
      let b := s.readBarr o.w.group a
      ((s.writeBarr o.w.group a { b with pend := b.pend + (s.scalar o x.b 0).toNat }).lsNote o a 16 true).finish o (.bexpect x)

/-- R305: whether BWAIT's phase has moved past its token. -/
def State.barrMoved (s : State) (o : Who) (x : CtlOp) : Bool :=
  (s.readBarr o.w.group (barrOf o x)).phase != (s.scalar o x.b 0).toNat % 2 ^ 16

/-- R243, R242: what a BWAIT whose phase has moved raises: the oldest pending COPY_DATA of a copy into the barrier, then
OVERFILL. -/
def State.barrFault (s : State) (o : Who) (x : CtlOp) : State × Option TrapInfo :=
  let a := barrOf o x
  match leastBy (fun e => e.2.op) ((s.copyDue o.w.group).filter fun e => e.2.barr == some a) with
  | some (w, f) => (s.deliverCopy w f, some (f.trap o.p.pc))
  | none =>
    let b := s.readBarr o.w.group a
    if b.ovf = 0 then (s, none)
    else
      ((s.writeBarr o.w.group a { b with ovf := 0 }).modGroup o.w.group fun g => { g with overs := g.overs.del a },
       some { addrTrap o codeOverfill a with
         defer := true, cpc := (o.g.overs.get a).getD 0, aux1 := BitVec.ofNat 32 b.ovf })

/-- BWAIT (R305, R306). -/
def execBwait (x : CtlOp) (s : State) : Host.Outcome State Fault Refusal :=
  s.issueWith (.bwait x) (fun _ _ => [])
    (fun o s =>
      match s.barrCheck o x (s.barrTrap o x) false with
      | (s, .error e) => (s, .error e)
      | (s, .ok _) =>
        if s.barrMoved o x then
          match s.barrFault o x with
          | (s, some t) => (s, .error (.trap t))
          | (s, none) => (s, .ok true)
        else (s, .ok false))
    fun (moved : Bool) o s =>
      if moved then (s.lsNote o (barrOf o x) 16 false).finish o (.bwait x) else s.holdOn o.pr (.bwait x) 12

/-- A resident part that waits in an instruction of some form. -/
def State.waiter {α : Type} (s : State) (p : PartRef) (f : Instr → Option α) : Option (Who × α) :=
  match s.who p with
  | some o =>
    match o.p.hold, o.p.status with
    | .instr i, .resident => (f i).map fun x => (o, x)
    | _, _ => none
  | none => none

/-- BWAIT_PASS: the phase has moved past the token. -/
def stepBwaitPass (p : PartRef) (s : State) : Host.Outcome State Fault Refusal :=
  .next <|
    match s.waiter p fun i => match i with | .bwait x => some x | _ => none with
    | some (o, x) =>
      if s.barrBad o.w.group (barrOf o x) then s.takeTrap p (barrData o (barrOf o x))
      else if s.barrMoved o x && s.lsAdmits o (barrOf o x) 16 false then
        match s.barrFault o x with
        | (s, some t) => s.takeTrap p t
        | (s, none) => (s.lsNote o (barrOf o x) 16 false).finish o (.bwait x)
      else s
    | none => s

/-! ### Tile queues (R307 to R309) -/

/-- The queue that an instruction names. -/
def queueIx (x : CtlOp) : Nat := (x.imm.extractLsb' 0 4).toNat

/-- A trap of a queue: VAL is its number (R361). -/
def queueTrap (o : Who) (x : CtlOp) (code : Nat) : TrapInfo :=
  { TrapInfo.plain code o.p.pc with val := BitVec.ofNat 32 (queueIx x) }

/-- Handles in a queue, and allowance granted. -/
def Queue.count (q : Queue) : Nat := (q.tail - q.head).toNat
def Queue.granted (q : Queue) : Nat := (q.allow.map fun e => e.2).foldl (· + ·) 0

/-- The place of a slot. -/
def Queue.slot (q : Queue) (i : Word) : Nat := q.base + 4 * (i.toNat % q.cap)

def Who.queue (o : Who) (x : CtlOp) : Option Queue := o.g.queues.get (queueIx x)

def State.setQueue (s : State) (o : Who) (x : CtlOp) (q : Queue) : State :=
  s.modGroup o.w.group fun g => { g with queues := g.queues.put (queueIx x) q }

/-- R308, R395: a queue operation of a cut wave is a decision of kind 7. -/
def State.mayQueue (s : State) (o : Who) : Bool := o.w.parts.length ≤ 1 || s.mayDecide o 7

/-- The checks of QPUSH, QPOP and QTRY; `wait` is the stall reason while the replay withholds QTRY. -/
def queueCheck (x : CtlOp) (release : Bool) (o : Who) (s : State) : State × Except Stop Queue :=
  match o.queue x with
  | none => (s, .error (.trap (queueTrap o x codeQueueState)))
  | some q => if release && s.accessesOut o then (s, .error (.stall 2)) else (s, .ok q)

/-- The operation is complete: logged if the wave is cut, and on to the successor. -/
def State.endQueue (s : State) (o : Who) (x : CtlOp) (i : Instr) : State :=
  (if o.w.parts.length ≤ 1 then s
   else s.decide o 7 i.opc o.pr.part o.p.pc.toNat o.p.quads.toNat (queueIx x)).finish o i

/-- Parts of the issuing wave that wait to push before the part; every wave has its own allowance. -/
def Queue.pushAhead (q : Queue) (o : Who) : List PartRef :=
  (q.push.filter fun p => p.wave = o.pr.wave).takeWhile fun p => p != o.pr

def Queue.popAhead (q : Queue) (o : Who) : List PartRef := q.pop.takeWhile fun p => p != o.pr

/-- Whether a push may be made now: allowance, its turn, and the replay's. -/
def State.canPush (s : State) (o : Who) (q : Queue) : Bool :=
  (q.allow.get o.w.index).getD 0 != 0 && (q.pushAhead o).isEmpty && s.mayQueue o && s.lsAdmits o (q.slot q.tail) 4 true

def State.canPop (s : State) (o : Who) (q : Queue) : Bool :=
  q.count != 0 && (q.popAhead o).isEmpty && s.mayQueue o && s.lsAdmits o (q.slot q.head) 4 false

/-- A push is made. -/
def State.doPush (s : State) (o : Who) (x : CtlOp) (q : Queue) : State :=
  let a := q.slot q.tail
  let s := (s.setBytes (.ls o.w.group a) (leBytes 4 (s.scalar o x.a 0).toNat)).lsNote o a 4 true
  let s := s.setQueue o x { q with tail := q.tail + 1, allow := q.allow.put o.w.index ((q.allow.get o.w.index).getD 0 - 1),
                                   push := q.push.filter fun p => p != o.pr }
  s.endQueue o x (.qpush x)

/-- QPUSH.Qn A: the handle goes in under the wave's allowance; the part waits while there is none. -/
def execQpush (x : CtlOp) (s : State) : Host.Outcome State Fault Refusal :=
  s.issueWith (.qpush x) (fun _ _ => []) (queueCheck x true) fun q o s =>
    if s.canPush o q then s.doPush o x q
    else (s.setQueue o x { q with push := q.push ++ [o.pr] }).holdOn o.pr (.qpush x) 14

/-- QPUSH_RESUME: allowance has come for a push that waits. -/
def stepQpushResume (p : PartRef) (s : State) : Host.Outcome State Fault Refusal :=
  .next <|
    match s.waiter p fun i => match i with | .qpush x => some x | _ => none with
    | some (o, x) =>
      match o.queue x with
      | some q => if s.canPush o q then s.doPush o x q else s
      | none => s
    | none => s

/-- Registers of S that an error of what they were read from concerns hold it, in every quad of the part: no value is
passed on (R2, R194, R355; log entry 71). -/
def State.holdErr (s : State) (o : Who) (num n : Nat) (addr : Dword) (loss : Option (Nat × Bool)) : State :=
  s.modWave o.pr.wave fun w =>
    { w with errs := w.errs ++ (maskBits o.p.quads).flatMap fun q => (List.range n).map fun i =>
        { cls := 1, num := num + i, unit := q, pc := o.p.pc, addr := addr, loss := loss } }

/-- The word of the queue's oldest handle, and whether it is in uncorrectable error, when it reads as 0. -/
def State.popWord (s : State) (o : Who) (q : Queue) : Nat × Bool :=
  let l : Loc := .ls o.w.group (q.slot q.head)
  if s.badAt l 4 then (0, true) else (s.natAt l 4, false)

/-- The error of a handle that a pop has read. -/
def State.popErr (s : State) (o : Who) (x : CtlOp) (q : Queue) (bad : Bool) : State :=
  if bad then s.holdErr o x.dst.num.toNat 1 (BitVec.ofNat 64 (q.slot q.head)) none else s

def State.doPop (s : State) (o : Who) (x : CtlOp) (q : Queue) : State :=
  let (v, bad) := s.popWord o q
  let s := (s.lsNote o (q.slot q.head) 4 false).setQueue o x
    { q with head := q.head + 1, pop := q.pop.filter fun p => p != o.pr }
  ((s.writeS o x.dst v).popErr o x q bad).endQueue o x (.qpop x)

/-- QPOP.Qn Sd: the oldest handle; the part waits while the queue is empty. -/
def execQpop (x : CtlOp) (s : State) : Host.Outcome State Fault Refusal :=
  s.issueWith (.qpop x) (fun _ _ => []) (queueCheck x false) fun q o s =>
    if s.canPop o q then s.doPop o x q
    else (s.setQueue o x { q with pop := q.pop ++ [o.pr] }).holdOn o.pr (.qpop x) 13

/-- QPOP_RESUME: a handle has come for a pop that waits. -/
def stepQpopResume (p : PartRef) (s : State) : Host.Outcome State Fault Refusal :=
  .next <|
    match s.waiter p fun i => match i with | .qpop x => some x | _ => none with
    | some (o, x) =>
      match o.queue x with
      | some q => if s.canPop o q then s.doPop o x q else s
      | none => s
    | none => s

/-- QTRY.Qn Sd: a handle and 1, or zeros; it never waits but for its record in replay. -/
def execQtry (x : CtlOp) (s : State) : Host.Outcome State Fault Refusal :=
  s.issueWith (.qtry x) (fun _ _ => [])
    (fun o s =>
      match queueCheck x false o s with
      | (s, .error e) => (s, .error e)
      | (s, .ok q) =>
        if s.mayQueue o && (q.count = 0 || s.lsAdmits o (q.slot q.head) 4 false) then (s, .ok q) else (s, .error (.stall 13)))
    fun q o s =>
      let s :=
        if q.count = 0 then s.writeSS o x.dst 0
        else (((s.lsNote o (q.slot q.head) 4 false).setQueue o x { q with head := q.head + 1 }).writeSS o x.dst
          (2 ^ 32 + (s.popWord o q).1)).popErr o x q (s.popWord o q).2
      s.endQueue o x (.qtry x)

/-- QALLOW.Qn A, W: allowance for a wave, within the queue's capacity. -/
def execQallow (x : CtlOp) (s : State) : Host.Outcome State Fault Refusal :=
  s.issueWith (.qallow x) (fun _ _ => [])
    (fun o s =>
      match o.queue x with
      | none => (s, .error (.trap (queueTrap o x codeQueueState)))
      | some q =>
        if q.cap < q.count + q.granted + (s.scalar o x.a 0).toNat then (s, .error (.trap (queueTrap o x codeQueueOver)))
        else if s.accessesOut o then (s, .error (.stall 2))
        else (s, .ok q))
    fun q o s =>
      let w := (s.scalar o x.b 0).toNat % 16
      let n := (q.allow.get w).getD 0 + (s.scalar o x.a 0).toNat
      (s.setQueue o x { q with allow := q.allow.put w n }).finish o (.qallow x)

/-- R308: the checks of QALLOW.INIT, in their order. -/
def State.ringTrap (s : State) (o : Who) (x : CtlOp) : Option TrapInfo :=
  let r := (o.sreg x.a.num.toNat).toNat
  let c := (s.scalar o x.b 0).toNat
  if r % 4 != 0 then some (addrTrap o codeMemAlign r)
  else if c = 0 || 4096 < c then some (queueTrap o x codeQueueState)
  else if o.u.lsz < r + 4 * c then some (addrTrap o codeLsRange r)
  else none

/-- QALLOW.INIT.Qn Sr, C: an empty queue of C slots at Sr. Parts that wait go on waiting. -/
def execQallowInit (x : CtlOp) (s : State) : Host.Outcome State Fault Refusal :=
  s.issueIf (.qallowInit x) (fun o s => s.ringTrap o x) fun o s =>
    let old := o.queue x
    let q : Queue :=
      { base := (o.sreg x.a.num.toNat).toNat, cap := (s.scalar o x.b 0).toNat, head := 0, tail := 0, allow := [],
        push := (old.map fun q => q.push).getD [], pop := (old.map fun q => q.pop).getD [] }
    (s.setQueue o x q).finish o (.qallowInit x)

/-! ### The launch barrier (R310, R311) -/

/-- R311: groups of the launch that one empty core could hold, under R289 and the quotas. -/
def WorkUnit.perCore (u : WorkUnit) : Nat :=
  let per := fun (cap need : Nat) => if need = 0 then u.grid else cap / need
  let slots := if u.ctl then 2 else 46
  let waves := 4 * (if u.bankBlocks = 0 then slots else min slots (64 / u.bankBlocks))
  let q12 := (nth u.desc 12).toNat
  let own := [per waves u.nwaves, per 1024 (u.lsz / 256), per 8 u.acct, if u.taq then 1 else u.grid]
  let quota :=
    if u.ctl then []
    else
      [per (field (u.n 0x48) 7 0) u.nwaves, per (field q12 7 0) u.nwaves,
       per (field (u.n 0x4C) 26 16) (u.lsz / 256), per (field q12 26 16) (u.lsz / 256),
       per (field (u.n 0x4C) 11 0) (u.nwaves * u.waveBlocks), per (field (nth u.desc 13).toNat 11 0) (u.nwaves * u.waveBlocks)]
  if 64 < u.rne then 0 else (own ++ quota).foldl min u.grid

/-- Cores on which groups of the launch may run: its clusters, and the dies of its weight stage. -/
def WorkUnit.allowedCores (u : WorkUnit) : Nat :=
  ((List.range 512).filter fun k => u.clusters.getLsbD (clusterOf k) &&
    (u.lists = [] || nbit (field (nth (u.lists.getD 0 []) 0).toNat 3 0) (dieOf k))).length

/-- R311: every group of the launch could be resident at once. -/
def WorkUnit.allFit (u : WorkUnit) : Bool := u.grid ≤ u.perCore * u.allowedCores

/-- GBAR.QALL: the wave arrives, with what its core releases, and waits. -/
def execGbar (x : CtlOp) (s : State) : Host.Outcome State Fault Refusal :=
  s.issueWith (.gbar x) (fun _ _ => [])
    (fun o s =>
      if !o.u.allFit then (s, .error (.trap (TrapInfo.plain codeGbarFit o.p.pc)))
      else if s.accessesOut o then (s, .error (.stall 2))
      else (s, .ok ()))
    fun _ o s =>
      let c := s.core o.g.core
      let s := s.modUnit o.g.unit fun u => { u with gsig := sigJoin u.gsig (c.sig, c.z) }
      ((s.afterRelease o.g.core).modWave o.pr.wave fun w => { w with gbar := true }).holdOn o.pr (.gbar x) 12

/-- R310: whether every group of a launch has arrived in the generation or ended. A group whose waves have all ended is
about to end. -/
def State.gbarDue (s : State) (launch : Nat) (u : WorkUnit) : Bool :=
  let gs := s.groupsOf launch
  u.kind = .launch && u.next = u.grid && !gs.isEmpty &&
    gs.all fun g => g.2.waves != [] && g.2.waves.all fun w => match s.waves.get w with
      | some v => v.gbar
      | none => false

/-- A resident part of the launch whose generation is complete goes on, and its core applies what the launch barrier
has merged (R310). A part that is saved goes on after its restore. -/
def State.gbarPass (s : State) (launch : Nat) (sig : Sig × Time) : List PartRef → State
  | [] => s
  | p :: r =>
    match s.waiter p fun i => match i with | .gbar x => some x | _ => none with
    | some (o, x) =>
      if o.g.unit = launch && !o.w.gbar then ((s.applySig o.g.core sig false).finish o (.gbar x)).gbarPass launch sig r
      else s.gbarPass launch sig r
    | none => s.gbarPass launch sig r

/-- GBAR_COMPLETE: the generation completes if it is due, and every part whose generation is complete goes on. -/
def stepGbarComplete (launch : Nat) (s : State) : Host.Outcome State Fault Refusal :=
  .next <|
    match s.units.get launch with
    | none => s
    | some u =>
      let open_ := fun (w : Wave) => match s.groups.get w.group with | some g => g.unit == launch | none => false
      let s :=
        if s.gbarDue launch u then
          let clear := fun (w : Nat × Wave) => if open_ w.2 then (w.1, { w.2 with gbar := false }) else w
          let s := { s with waves := s.waves.map clear }
          s.modUnit launch fun x => { x with gen := x.gen + 1 }
        else s
      s.gbarPass launch u.gsig s.parts

/-! ### Creating work (R314) -/

/-- The bytes of mapped ranges, and whether an error was met. -/
def State.readMapped (s : State) : List Mapped → State × List Byte × Bool
  | [] => (s, [], false)
  | m :: r =>
    match s.engineRead m.loc m.len with
    | (s, d, e) =>
      match s.readMapped r with
      | (s, d', e') => (s, d ++ d', e || e')

/-- R314: a part of a record, read on the copy path for the part: a translation fault is precise and saves the whole
part. -/
def State.readFor (s : State) (o : Who) (va : Dword) (n : Nat) : State × Except Stop (List Byte × Bool) :=
  match s.engineMap o (pageRuns va n) [] with
  | (s, .error e) => (s, .error e)
  | (s, .ok l) => match s.readMapped l with | (s, d, e) => (s, .ok (d, e))

/-- The launch records of a graph's nodes, for the part. -/
def State.nodesFor (s : State) (o : Who) : List Dword → State × Except Stop (List (List Word) × Bool)
  | [] => (s, .ok ([], false))
  | a :: r =>
    let rec' := if a.toNat % 256 != 0 then (s, (.ok ([], false) : Except Stop (List Byte × Bool))) else s.readFor o a 256
    match rec' with
    | (s, .error e) => (s, .error e)
    | (s, .ok (d, e)) =>
      match s.nodesFor o r with
      | (s, .ok (l, e')) => (s, .ok (bytesWords d :: l, e || e'))
      | (s, .error e) => (s, .error e)

/-- The snapshot of a graph (R283), for the part. -/
def State.graphFor (s : State) (o : Who) (va : Dword) : State × Except Stop (Snapshot × Bool) :=
  match s.readFor o va 32 with
  | (s, .error e) => (s, .error e)
  | (s, .ok (d, e)) =>
    let ws := bytesWords d
    let u := { blankUnit .graph 0 false none va with words := ws }
    if e || u.n 4 < 1 || 256 < u.n 4 || (u.d 8).toNat % 16 != 0 then
      (s, .ok ({ words := if e then [] else ws, table := [], nodes := [] }, e))
    else
      match s.readFor o (u.d 8) (16 * u.n 4) with
      | (s, .error e) => (s, .error e)
      | (s, .ok (t, e')) =>
        let rows := wordRows (u.n 4) t
        match s.nodesFor o (rows.map fun r => pair (nth r 0) (nth r 1)) with
        | (s, .error e) => (s, .error e)
        | (s, .ok (l, e'')) => (s, .ok ({ words := ws, table := rows, nodes := l }, e' || e''))

/-- R314: an access of the part, on any path, that is not performed at its point. -/
def State.anyOut (s : State) (o : Who) : Bool := (s.before o).any fun y => y.kind != .done && !y.performed

/-- The checks of LAUNCH and GRUN before the record is read: WORK_DESC, WORK_LIMIT, the wait. -/
def workCheck (x : CtlOp) (unit : Nat) (full : Who → State → Bool) (o : Who) (s : State) : Option Stop :=
  let a := o.spair x.a.num.toNat
  if a.toNat % unit != 0 then some (.trap (addrTrap o codeWorkDesc a.toNat))
  else if full o s then some (.trap (TrapInfo.plain codeWorkLimit o.p.pc))
  else if s.anyOut o then some (.stall 2)
  else none

/-- R314: launches of the context that LAUNCH created and that have not ended. -/
def State.launchesLive (s : State) (o : Who) : Nat :=
  (s.units.filter fun x => x.2.kind = .launch && x.2.ctl = o.u.ctl && x.2.ctx = o.u.ctx && !x.2.state.isEnd &&
    x.2.handle != 0).length

/-- The next handle of a context: 0 is skipped. -/
def State.nextHandle (s : State) (n : Nat) : State × Word :=
  let h := (s.ctx n).handle
  (s.modCtx n fun c => { c with handle := if h + 1 = 0 then 1 else h + 1 }, h)

/-- The unit is created in the phase of the issuing launch and its handle goes to Sd; one whose record met an
uncorrectable error is to end faulted when Checking comes to it (R285). -/
def State.createUnit (s : State) (o : Who) (x : CtlOp) (i : Instr) (u : WorkUnit) (bad : Bool) : State :=
  let (s, h) := s.nextHandle o.u.ctx
  let s := (s.addUnit { u with handle := h, fate := if bad then some (3, 0) else u.fate }).1
  (s.writeS o x.dst h.toNat).finish o i

/-- LAUNCH Sd, Sa. -/
def execLaunch (x : CtlOp) (s : State) : Host.Outcome State Fault Refusal :=
  s.issueWith (.launch x) (fun _ _ => [])
    (fun o s =>
      match workCheck x 256 (fun o s => 4096 ≤ s.launchesLive o) o s with
      | some e => (s, .error e)
      | none => s.readFor o (o.spair x.a.num.toNat) 256)
    fun r o s =>
      let u := { o.u.child .launch (s.unitAbove o.g.unit .phase) (o.spair x.a.num.toNat) with
                 words := if r.2 then [] else bytesWords r.1 }
      s.createUnit o x (.launch x) u r.2

/-- GRUN Sd, Sa. -/
def execGrun (x : CtlOp) (s : State) : Host.Outcome State Fault Refusal :=
  s.issueWith (.grun x) (fun _ _ => [])
    (fun o s =>
      match workCheck x 64 (fun o s => 1024 ≤ s.runsLive o.u.ctl o.u.ctx) o s with
      | some e => (s, .error e)
      | none => s.graphFor o (o.spair x.a.num.toNat))
    fun r o s =>
      let u := o.u.child .graph (s.unitAbove o.g.unit .phase) (o.spair x.a.num.toNat)
      s.createUnit o x (.grun x) { (if r.2 then { u with words := r.1.words } else u.withGraph r.1) with stage := 1 } r.2

/-! ### Cancelling (R315, R279) -/

/-- The unit of the issuing context that a handle names and that has not ended. -/
def State.byHandle (s : State) (o : Who) (h : Word) : Option Nat :=
  (s.units.find? fun x => h != 0 && x.2.handle = h && x.2.ctl = o.u.ctl && x.2.ctx = o.u.ctx && !x.2.state.isEnd).map
    fun x => x.1

/-- THE ISSUE OF A CANCEL: the unit and all below it are cancelled; none, no effect. -/
def State.cancelInstr (s : State) (i : Instr) (unit : Who → State → Option Nat) : Host.Outcome State Fault Refusal :=
  s.issue i fun o s =>
    (match unit o s with
     | some u => s.cancelUnit u
     | none => s).finish o i

def execCancelHandle (x : CtlOp) (s : State) : Host.Outcome State Fault Refusal :=
  s.cancelInstr (.cancelHandle x) fun o s => s.byHandle o (s.scalar o x.a 0)

def execCancelLaunch (x : CtlOp) (s : State) : Host.Outcome State Fault Refusal :=
  s.cancelInstr (.cancelLaunch x) fun o _ => some o.g.unit

def execCancelPhase (x : CtlOp) (s : State) : Host.Outcome State Fault Refusal :=
  s.cancelInstr (.cancelPhase x) fun o s => s.unitAbove o.g.unit .phase

def execCancelJob (x : CtlOp) (s : State) : Host.Outcome State Fault Refusal :=
  s.cancelInstr (.cancelJob x) fun o s => s.unitAbove o.g.unit .job

/-! ### Completion counters (R316) -/

/-- The read of a completion counter as the access that it is: 8 bytes at device scope, acquiring. -/
def ccOp (o : Who) (ps : List Piece) : Op := { blankOp o 0 none .load with scope := 3, ord := 1, pieces := ps, mask := 1 }

/-- WORK_DESC, then the checks of the read, which comes after the part's earlier stores to the block. -/
def State.ccCheck (s : State) (o : Who) (x : CtlOp) : State × Except Stop (List Piece) :=
  let a := o.spair x.a.num.toNat
  if a.toNat % 16 != 0 then (s, .error (.trap (addrTrap o codeWorkDesc a.toNat)))
  else
    match s.checkAccess o { space := 0, kind := .read, write := false, n := 8, lanes := [(none, a)] } fun _ => [] with
    | (s, _, .ok ps) => if s.clearOf { ccOp o ps with prior := o.p.prior } ps then (s, .ok ps) else (s, .error (.stall 2))
    | (s, _, .error e) => (s, .error e)

/-- One look at the count, at its home: the wait ends, or goes on for another 4,096 clocks. -/
def State.ccLook (s : State) (o : Who) (x : CtlOp) (ps : List Piece) : State :=
  let op := ccOp o ps
  let p := ps.head?.getD { lane := 0, off := 0, va := 0, loc := .dev 0, len := 0, data := [], hs := false }
  let again := fun (s : State) => (s.modPart o.pr fun p => { p with timer := 4096, since := s.time }).holdOn o.pr (.ccwait x) 15
  if !s.admits o.g o.u op p false || s.lookWaits o then again s
  else
    let (s, d) := (s.lookOut o op p).readPiece o.g.core o.u.mode 0 3 0 p
    let s := s.noteRun o.g o.u op p false
    if d.errs.any fun e => e != 0 then
      ((s.writeSS o x.dst 0).holdErr o x.dst.num.toNat 2 (o.spair x.a.num.toNat) none).finish o (.ccwait x)
    else if (o.sval2 x.b).toNat ≤ leNat d.data then
      ((s.receive o.g.core op true d.sig).writeSS o x.dst (leNat d.data)).finish o (.ccwait x)
    else again s

/-- CCWAIT Sd, Sa, Sv: until the count reaches the comparand. -/
def execCcwait (x : CtlOp) (s : State) : Host.Outcome State Fault Refusal :=
  s.issueWith (.ccwait x)
    (fun o s => match s.ccCheck o x with | (_, .ok ps) => pieceSlices ps | _ => [])
    (fun o s => s.ccCheck o x) fun ps o s => s.ccLook o x ps

/-- A CCWAIT that waits looks again. -/
def State.ccAgain (s : State) (p : PartRef) (may : Who → List Piece → Bool) : State :=
  match s.waiter p fun i => match i with | .ccwait x => some x | _ => none with
  | some (o, x) =>
    match s.ccCheck o x with
    | (t, .ok ps) => if may o ps then t.ccLook o x ps else s
    | (t, .error e) => if may o [] then t.stopAt p e else s
  | none => s

/-- CCWAIT_WAKE: a write to the sector of the count has been performed. -/
def stepCcwaitWake (p : PartRef) (s : State) : Host.Outcome State Fault Refusal :=
  .next (s.ccAgain p fun _ ps => !watchesHost ps)

/-- CCWAIT_POLL_EXPIRY: 4,096 clocks have passed. -/
def stepCcwaitPollExpiry (p : PartRef) (s : State) : Host.Outcome State Fault Refusal :=
  .next (s.ccAgain p fun o _ => o.p.timer = 0)

/-! ### Raster-ordered sections (R312, R313) -/

/-- R317: outside a draw's pixel launch. -/
def streamTrap (o : Who) : Option TrapInfo :=
  if o.u.kindCode = 2 then none else some (TrapInfo.plain codeTileStream o.p.pc)

/-- R313: the wave's current record, if a run of S registers names it by position and ticket. The end record has no
ticket. -/
def namedTile (o : Who) (x : CtlOp) : Option TileState :=
  o.w.tile.bind fun t =>
    let r := x.a.num.toNat
    if t != endRec && o.sreg r = nth t.words 0 && o.sreg (r + 3) = nth t.words 3 then some t else none

/-- ROS_STATE for a ROSB: it holds the section, or does not name the current record. -/
def rosbTrap (o : Who) (x : CtlOp) : Option TrapInfo :=
  match streamTrap o with
  | some t => some t
  | none =>
    match namedTile o x with
    | some t => if t.held then some (TrapInfo.plain codeRosState o.p.pc) else none
    | none => some (TrapInfo.plain codeRosState o.p.pc)

/-- Whether NEXT of the record's position equals its ticket. -/
def State.rosDue (s : State) (o : Who) (t : TileState) : Bool :=
  let xy := (nth t.words 0).toNat
  (((s.cluster (clusterOf o.g.core)).rast.next.get (posKey o.u.draw (xy % 2 ^ 16) (xy / 2 ^ 16))).getD 0) = t.ticket

/-- The wave holds the section: an acquire at cluster scope of what the retirements have released. -/
def State.enterSection (s : State) (o : Who) (x : CtlOp) (t : TileState) : State :=
  let s := s.modWave o.pr.wave fun w => { w with tile := some { t with held := true } }
  (s.applySig o.g.core (s.cluster (clusterOf o.g.core)).rast.sig false).finish o (.rosb x)

/-- ROSB.QALL Sk. -/
def execRosb (x : CtlOp) (s : State) : Host.Outcome State Fault Refusal :=
  s.issueIf (.rosb x) (fun o _ => rosbTrap o x) fun o s =>
    match o.w.tile with
    | some t => if s.rosDue o t then s.enterSection o x t else s.holdOn o.pr (.rosb x) 29
    | none => s

/-- ROSB_ADMIT: the retirement count has reached the ticket. -/
def stepRosbAdmit (p : PartRef) (s : State) : Host.Outcome State Fault Refusal :=
  .next <|
    match s.waiter p fun i => match i with | .rosb x => some x | _ => none with
    | some (o, x) =>
      match o.w.tile with
      | some t => if s.rosDue o t then s.enterSection o x t else s
      | none => s
    | none => s

/-- ROSE.QALL: the ticket is retired, a release at cluster scope. -/
def execRose (x : CtlOp) (s : State) : Host.Outcome State Fault Refusal :=
  s.issueWith (α := Unit) (.rose x) (fun _ _ => [])
    (fun o s =>
      match streamTrap o with
      | some t => (s, .error (.trap t))
      | none =>
        if !(o.w.tile.any fun t => t.held) then (s, .error (.trap (TrapInfo.plain codeRosState o.p.pc)))
        else if s.accessesOut o then (s, .error (.stall 2))
        else (s, .ok ()))
    fun _ o s => (s.retireTile o).finish o (.rose x)

end Sys2Proof.Machine
end

