-- ==== Sys2Proof/Machine/System.lean ====
section
/-! DEFINITION. System instructions, opcodes 0xC0 to 0xCB: traps and their return (R375 to R377, R385), system registers
(R378, R379, R386, R401, R414), TLBINV (R345), records (R399), operating points (R405, R406) and HALT (R380). -/

namespace Sys2Proof.Machine

open Sys2Proof

/-- An instruction that has issued and is not done is taken up where it waits; else it is tried from its first check. -/
def State.resume (s : State) (i : Instr) (more : Who → State → State) (first : Host.Outcome State Fault Refusal) :
    Host.Outcome State Fault Refusal :=
  match s.who s.cur with
  | some o => if o.p.hold = .instr i then .next (more o s) else first
  | none => first

/-! ### TRAP and BRK (R376, R385) -/

/-- R376: the record of a TRAP whose predicate is true in the lanes `m`; A may be left out, and is then 0. -/
def trapInstr (s : State) (o : Who) (x : CtlOp) : Option TrapInfo :=
  let m := o.lanes x.h
  if m = 0 then none
  else
    some { TrapInfo.plain codeTrapInstr o.p.pc with
      lane := maskLow m, mask := m, val := if x.a.cls = .v then 0 else s.scalar o x.a 0, aux0 := x.imm }

def execTrap (x : CtlOp) (s : State) : Host.Outcome State Fault Refusal :=
  s.issueIf (.trap x) (fun o s => trapInstr s o x) fun o s => s.finish o (.trap x)

def execBrk (x : CtlOp) (s : State) : Host.Outcome State Fault Refusal :=
  s.issueIf (.brk x) (fun o _ => some { TrapInfo.plain codeBrkInstr o.p.pc with val := x.imm }) fun o s => s.finish o (.brk x)

/-! ### RETT (R377) -/

/-- The trapped part of an id, with its record's PC and code; a cancel or a reset of its unit comes first (R372). -/
def State.trappedBy (s : State) (id : Word) : Option (Who × Dword × Nat) :=
  s.parts.findSome? fun p =>
    match s.who p with
    | some o =>
      match o.p.status with
      | .trapped i pc code =>
        if i = id && !o.u.cancel && !(!o.u.ctl && (s.ctx o.u.ctx).resets) then some (o, pc, code) else none
      | _ => none
    | none => none

/-- The header of a part's frame takes STATE 0 and a PC; false where its frame cannot be reached. -/
def State.clearHeader (s : State) (t : Who) (pc : Dword) : State × Bool :=
  let at_ := t.frame + BitVec.ofNat 64 (128 * t.pr.part)
  match s.devRead t.asid at_ 1 with
  | (s, .ok h) => s.devWrite t.asid at_ ((h.getD 0 0 &&& 0xF0) :: (h.drop 1).take 7 ++ leBytes 8 pc.toNat) 1
  | (s, _) => (s, false)

/-- The part goes to its pending set, where it waits for a slot with stall reason 25 (R295): its header takes STATE 0 and
the resume PC, which its restore reads (R371). -/
def State.resumePart (s : State) (t : Who) (pc : Dword) (check nobrk : Bool) : State :=
  match s.clearHeader t pc with
  | (s, true) =>
    s.modPart t.pr fun p =>
      { p with status := .ready, hold := .no, stall := 25, pc := pc, line := none, kept := none, check := check, nobrk := nobrk }
  | (s, false) => s.beginReset t.u.ctl t.u.ctx

/-- R377: END. Every lane of the part exits, and its header takes STATE 0; the last live part of its wave ends the wave,
or takes its first undelivered fault at the record's PC, with the rest of its frame as it stands. -/
def State.endPart (s : State) (t : Who) (pc : Dword) : State :=
  match s.clearHeader t pc with
  | (s, false) => s.beginReset t.u.ctl t.u.ctx
  | (s, true) =>
    let s := s.modPart t.pr fun p => { p with pc := pc }
    match s.who t.pr with
    | none => s
    | some t =>
      let m := quadLanes t.p.quads
      if lastExit t m then
        match firstFault t with
        | none => s.endOrFault t m
        | some _ =>
          match s.loadPart t with
          | (s, false) => s.beginReset t.u.ctl t.u.ctx
          | (s, true) => match s.who t.pr with | some t => s.endOrFault t m | none => s
      else (s.exitLanes t m).settle

/-- What RETT waits for before it issues: the part's own accesses; with END the accesses of the part that ends, and room
for the trap that its end may be. -/
def State.rettWaits (s : State) (o : Who) (id : Word) (ends : Bool) : Bool :=
  s.anyOut o ||
    (ends && match s.trappedBy id with
      | some (t, _, _) => (s.exitWait t).isSome || !s.trapRoom t.g.core (if t.u.ctl then 0 else t.u.ctx)
      | none => false)

/-- THE RETURN FROM A TRAP (R377): `act` has the part go on and answers Sd. -/
def State.rett (s : State) (i : Instr) (x : CtlOp) (ends : Bool) (act : Who → State → Who → Dword → Nat → State × Nat) :
    Host.Outcome State Fault Refusal :=
  s.issueWith (α := Unit) i (fun _ _ => [])
    (fun o s => if s.rettWaits o (o.sval x.a) ends then (s, .error (.stall 2)) else (s, .ok ()))
    fun _ o s =>
      match s.trappedBy (o.sval x.a) with
      | none => (s.writeS o x.dst 1).finish o i
      | some (t, pc, code) =>
        match act o s t pc code with
        | (s, v) => (s.writeS o x.dst v).finish o i

/-- RETT.REISSUE: on at the record's PC, where a BRK_MATCH is not met again at once (R387). -/
def execRettReissue (x : CtlOp) (s : State) : Host.Outcome State Fault Refusal :=
  s.rett (.rettReissue x) x false fun _ s t pc code => (s.resumePart t pc false (code = codeBrkMatch), 0)

/-- RETT.SKIP: on at the sequential successor; refused for the traps that stand before an instruction is known. -/
def execRettSkip (x : CtlOp) (s : State) : Host.Outcome State Fault Refusal :=
  s.rett (.rettSkip x) x false fun _ s t pc code =>
    if 1 ≤ code && code ≤ 4 then (s, 2) else (s.resumePart t (successor pc) false false, 0)

/-- RETT.PC: on at Sp, checked by R28 unless it is the record's PC. -/
def execRettPc (x : CtlOp) (s : State) : Host.Outcome State Fault Refusal :=
  s.rett (.rettPc x) x false fun o s t pc code =>
    let target := o.spair x.b.num.toNat
    (s.resumePart t target (target != pc) (code = codeBrkMatch && target = pc), 0)

/-- RETT.END: every lane of the part exits. -/
def execRettEnd (x : CtlOp) (s : State) : Host.Outcome State Fault Refusal :=
  s.rett (.rettEnd x) x true fun _ s t pc _ => (s.endPart t pc, 0)

/-! ### System registers (R378, R379, R386, R401, R414) -/

/-- BOOTST (R414). -/
def Boot.status (b : Boot) : Nat :=
  b.rkind.toNat * 2 ^ 28 + b.err.toNat * 65536 + (if b.slot then 16 else 0) + b.phase.toNat

/-- TRIP (R401). -/
def Thermal.trip (t : Thermal) : Nat :=
  (t.trips.zipIdx.map fun e => if e.1.active then 2 ^ e.2 else 0).foldl (· + ·) 0

/-- Trip 2 holds (R405). -/
def State.trip2 (s : State) : Bool := (s.heat.trips.getD 1 { active := false, dwell := 0 }).active

/-- R386: breakpoint words. -/
def breakWord (c : Core) (n : Nat) : Nat :=
  let b := c.bp.getD (n / 4) Breakpoint.reset
  (match n % 4 with | 0 => b.pclo | 1 => b.pchi | 2 => b.ctl | _ => b.hits).toNat

/-- R401: the registers of chapter 19, for the issuing core, its cluster and the issuing scheduler's island. -/
def State.heatReg (s : State) (o : Who) (n : Nat) : Option Nat :=
  let c := s.core o.g.core
  let k := s.cluster (clusterOf o.g.core)
  let h := s.heat
  match n with
  | 0x300 => some k.tsens.toNat
  | 0x301 => some (c.isl.vmon.getD o.w.sched 0).toNat
  | 0x302 => some k.pmon.toNat
  | 0x303 => some ((if h.tripev then 2 ^ 19 else 0) + h.trip * 65536 + h.pktemp.toNat)
  | 0x304 => some (h.modpwr.toNat * 65536 + h.pkpwr.toNat)
  | 0x310 => some c.cur.next.toNat
  | 0x311 => some c.cur.win.toNat
  | 0x312 => some c.cur.bubbles.toNat
  | 0x320 => some (c.isl.low.toNat * 256 + c.isl.lren.toNat)
  | 0x330 =>
    some ((if s.trip2 then 2 ^ 25 else 0) + (if k.dvfs.ramp then 2 ^ 24 else 0) + k.dvfs.qpt * 65536 + k.dvfs.tpt * 256 +
      k.dvfs.cpt)
  | _ => none

/-- The value of a system register; none where its owner assigns none. -/
def State.sysReg (s : State) (o : Who) (n : Nat) : Option Nat :=
  let c := s.core o.g.core
  if n = 0 then some (s.time.toNat % 2 ^ 32)
  else if n = 1 then some (s.time.toNat / 2 ^ 32)
  else if n = 2 then some (if o.u.ctl then 1 else o.u.ctx * 65536)
  else if n = 0x100 then some c.trapcnt.toNat
  else if n = 0x101 then some (s.cluster (clusterOf o.g.core)).tbuf.length
  else if 0x200 ≤ n && n < 0x220 then some (breakWord c (n - 0x200))
  else if 0x300 ≤ n && n < 0x400 then s.heatReg o n
  else if n = 0x400 then some s.boot.status
  else if n = 0x401 then some ((if s.boot.ready then 2 else 0) + if s.boot.xlate then 1 else 0)
  else if n = 0x402 then some Config.secver.toNat
  else if n = 0x403 then some s.boot.portdown.toNat
  else none

/-- R378: SR_NUM with the number that is not assigned. -/
def srTrap (o : Who) (n : Nat) : TrapInfo := { TrapInfo.plain codeSrNum o.p.pc with val := BitVec.ofNat 32 n }

/-- The number of RDSR and WRSR; whether RDSR reads two. -/
def srNum (x : CtlOp) : Nat := (x.imm.extractLsb' 0 16).toNat
def srWide (x : CtlOp) : Bool := x.imm.getLsbD 16

/-- RDSR: the value, or the pair of values. -/
def execRdsr (x : CtlOp) (s : State) : Host.Outcome State Fault Refusal :=
  s.issueIf (.rdsr x)
    (fun o s =>
      if (s.sysReg o (srNum x)).isNone then some (srTrap o (srNum x))
      else if srWide x && (s.sysReg o (srNum x + 1)).isNone then some (srTrap o (srNum x + 1))
      else none)
    fun o s =>
      let lo := (s.sysReg o (srNum x)).getD 0
      (if srWide x then s.writeSS o x.dst (lo + 2 ^ 32 * (s.sysReg o (srNum x + 1)).getD 0) else s.writeS o x.dst lo).finish
        o (.rdsr x)

/-- BOOTCTL.READY set to 1 (R414): PHASE 7, and job intake opens. -/
def State.setReady (s : State) : State := { s with boot := { s.boot with ready := true, phase := 7 } }

/-- Islands of a mask begin to wake (R402). -/
def Islands.startWake (i : Islands) (m : BitVec 4) : Islands :=
  let w := m &&& i.low &&& ~~~ i.wake
  { i with wake := i.wake ||| w, timer := i.timer.zipIdx.map fun e => if w.getLsbD e.2 then 200 else e.1 }

/-- A system register takes a value, as its access allows (R7). -/
def State.putSysReg (s : State) (o : Who) (n : Nat) (v : Word) : State :=
  let core := fun (f : Core → Core) => s.modCore o.g.core f
  if n = 0x100 then core fun c => { c with trapcnt := v }
  else if 0x200 ≤ n && n < 0x220 then s.setBreak o.g.core ((n - 0x200) / 4) (n % 4) v
  else if n = 0x303 then (if v.getLsbD 19 then { s with heat := { s.heat with tripev := false } } else s)
  else if n = 0x310 then core fun c => { c with cur := { c.cur with next := v.extractLsb' 0 16 } }
  else if n = 0x312 then core fun c => { c with cur := { c.cur with bubbles := v } }
  else if n = 0x320 then
    core fun c => { c with isl := { c.isl with lren := v.extractLsb' 0 4 }.startWake (~~~ (v.extractLsb' 0 4 : BitVec 4)) }
  else if n = 0x401 then
    let s := { s with boot := { s.boot with xlate := v.getLsbD 0 } }
    if v.getLsbD 1 then s.setReady else s
  else s

/-- WRSR. -/
def execWrsr (x : CtlOp) (s : State) : Host.Outcome State Fault Refusal :=
  s.issueIf (.wrsr x) (fun o s => if (s.sysReg o (srNum x)).isNone then some (srTrap o (srNum x)) else none)
    fun o s => (s.putSysReg o (srNum x) (s.scalar o x.a 0)).finish o (.wrsr x)

/-- BOOTCTL_READY_WRITE: firmware, done with its steps, sets READY (R414). -/
def stepBootctlReadyWrite (s : State) : Host.Outcome State Fault Refusal :=
  .next (if s.boot.phase = 6 then s.setReady else s)

/-! ### TLBINV (R345) -/

/-- Entries that a form of TLBINV matches leave every TLB of the device. -/
def State.dropEntries (s : State) (hit : TlbEntry → Bool) : State :=
  let keep := fun (l : List TlbEntry) => l.filter fun e => !hit e
  { s with cores := s.cores.map fun (c : Nat × Core) => (c.1, { c.2 with tlb := keep c.2.tlb }),
           clusters := s.clusters.map fun (c : Nat × Cluster) => (c.1, { c.2 with tlb := keep c.2.tlb }) }

/-- Operations, older than `bound`, that were translated for an ASID; for every ASID with none. -/
def State.translatedOut (s : State) (asid : Option Nat) (bound : Nat) : Bool :=
  s.ops.any fun x => !x.done && x.id.blt bound && (match s.opHome x with
    | some h => (match asid with | some a => h.2.asid = a | none => true)
    | none => false)

/-- R345: TLB_ARG. -/
def tlbTrap (o : Who) (asid : Option Nat) (va : Dword) : Option TrapInfo :=
  if (match asid with | some a => 1024 ≤ a | none => false) || field va.toNat 63 57 != 0 then
    some (addrTrap o codeTlbArg va.toNat)
  else none

/-- R335: a TLBINV that names an ASID lets its entry be read anew; ALL names every one. -/
def State.forgetAsid (s : State) (asid : Option Nat) : State :=
  { s with trans := { s.trans with asids := match asid with | none => [] | some a => s.trans.asids.del a } }

/-- THE ISSUE OF A TLBINV: the part's accesses come first; the entries leave; then it waits, with reason 24, for what was
translated through them. `timer` keeps the number of the first operation that came later. -/
def State.tlbinv (s : State) (i : Instr) (asid : Who → State → Option Nat) (va : Who → Dword) (page : Bool) :
    Host.Outcome State Fault Refusal :=
  s.resume i
    (fun o s => if s.translatedOut (asid o s) o.p.timer then s else s.finish o i)
    (s.issueWith (α := Unit) i (fun _ _ => [])
      (fun o s =>
        if s.anyOut o then (s, .error (.stall 2))
        else match tlbTrap o (asid o s) (va o) with
          | some t => (s, .error (.trap t))
          | none => (s, .ok ()))
      fun _ o s =>
        let hit := fun (e : TlbEntry) => match asid o s with
          | none => true
          | some a => if page then e.covers a (va o).toNat else e.asid == a
        let s := (s.dropEntries hit).forgetAsid (asid o s)
        if s.translatedOut (asid o s) s.fresh then
          (s.modPart o.pr fun p => { p with timer := s.fresh }).holdOn o.pr i 24
        else s.finish o i)

def execTlbinvAll (x : CtlOp) (s : State) : Host.Outcome State Fault Refusal :=
  s.tlbinv (.tlbinvAll x) (fun _ _ => none) (fun _ => 0) false

def execTlbinvAsid (x : CtlOp) (s : State) : Host.Outcome State Fault Refusal :=
  s.tlbinv (.tlbinvAsid x) (fun o s => some (s.scalar o x.a 0).toNat) (fun _ => 0) false

def execTlbinvPage (x : CtlOp) (s : State) : Host.Outcome State Fault Refusal :=
  s.tlbinv (.tlbinvPage x) (fun o s => some (s.scalar o x.a 0).toNat) (fun o => o.spair x.b.num.toNat) true

/-! ### ASSAY, MARK, LOGCTL, SEQRD (R399) -/

def execAssayPut (x : CtlOp) (s : State) : Host.Outcome State Fault Refusal :=
  s.issue (.assayPut x) fun o s =>
    (s.platform (dieOf o.g.core) 5 (if o.u.ctl then 0 else o.u.ctx) (s.scalar o x.a 0).toNat
      (x.imm.extractLsb' 8 8).toNat).finish o (.assayPut x)

/-- FRZ and RUN act on every die. -/
def State.freezeAssay (s : State) (b : Bool) : State := (List.range 4).foldl (fun s d => s.modDie d fun a => { a with frozen := b }) s

def execAssayFrz (x : CtlOp) (s : State) : Host.Outcome State Fault Refusal :=
  s.issue (.assayFrz x) fun o s => (s.freezeAssay true).finish o (.assayFrz x)

def execAssayRun (x : CtlOp) (s : State) : Host.Outcome State Fault Refusal :=
  s.issue (.assayRun x) fun o s => (s.freezeAssay false).finish o (.assayRun x)

/-- MARK: a record of kind 10 under trace, record and replay; in replay in its turn (R395, R399). -/
def execMark (x : CtlOp) (s : State) : Host.Outcome State Fault Refusal :=
  s.issueWith (α := Unit) (.mark x) (fun _ _ => [])
    (fun o s =>
      if (s.replayNext o.u o.g.core o.wid).isSome && !s.mayDecide o 10 then (s, .error (.stall 2)) else (s, .ok ()))
    fun _ o s =>
      let d := ((s.waves.get o.pr.wave).map fun w => w.seqs.dseq.toNat).getD 0
      (s.event o.g.core o.u { kind := 10, code := (x.imm.extractLsb' 0 8).toNat, wid := o.wid, part := o.pr.part,
                              pc := o.p.pc.toNat, dseq := d, qmask := o.p.quads.toNat,
                              data := (s.scalar o x.a 0).toNat }).finish o (.mark x)

/-- LOGCTL: the old control word of a context into Sd, then its masked bits set. -/
def execLogctl (x : CtlOp) (s : State) : Host.Outcome State Fault Refusal :=
  s.issue (.logctl x) fun o s =>
    let n := (s.scalar o x.a 0).toNat
    if n < 1 || 1023 < n then (s.writeS o x.dst (2 ^ 32 - 1)).finish o (.logctl x)
    else
      let old := (s.ctx n).logctl
      let v : BitVec 5 := x.imm.extractLsb' 0 5
      let m : BitVec 5 := x.imm.extractLsb' 8 5
      ((s.writeS o x.dst old.toNat).modCtx n fun c => { c with logctl := (old &&& ~~~ m) ||| (v &&& m) }).finish o (.logctl x)

def execSeqrdTime (x : CtlOp) (s : State) : Host.Outcome State Fault Refusal :=
  s.issue (.seqrdTime x) fun o s => (s.writeSS o x.dst s.time.toNat).finish o (.seqrdTime x)

def execSeqrdDseq (x : CtlOp) (s : State) : Host.Outcome State Fault Refusal :=
  s.issue (.seqrdDseq x) fun o s =>
    (s.writeSS o x.dst (o.w.seqs.dseq.toNat + o.pr.part * 65536 + 2 ^ 32 * o.p.born.toNat)).finish o (.seqrdDseq x)

def execSeqrdOrd (x : CtlOp) (s : State) : Host.Outcome State Fault Refusal :=
  s.issue (.seqrdOrd x) fun o s => (s.writeSS o x.dst o.p.ord.toNat).finish o (.seqrdOrd x)

/-! ### Operating points (R405, R406) -/

/-- The point of a cluster, with a record of its change. -/
def State.setPoint (s : State) (c k : Nat) : State :=
  if (s.cluster c).dvfs.cpt = k then s
  else (s.modCluster c fun x => { x with dvfs := { x.dvfs with cpt := k } }).platform (c / 16) 1 0 (k + 256 * c) 0

/-- R405: a ramp begins; when it lowers, the clock changes now. -/
def State.startRamp (s : State) (c k : Nat) : State :=
  let a := (s.cluster c).dvfs.cpt
  let s := s.modCluster c fun x => { x with dvfs := { x.dvfs with tpt := k, ramp := true, left := 4000 * ((a - k) + (k - a)) } }
  if k < a then s.setPoint c k else s

/-- DVREQ Sd, A, B. -/
def execDvreq (x : CtlOp) (s : State) : Host.Outcome State Fault Refusal :=
  s.issue (.dvreq x) fun o s =>
    let c := (s.scalar o x.a 0).toNat
    let k := (s.scalar o x.b 0).toNat
    let d := (s.cluster c).dvfs
    let r :=
      if 63 < c || k < 9 || 21 < k then (s, 2)
      else if d.ramp || s.trip2 then (s.modCluster c fun x => { x with dvfs := { x.dvfs with qpt := k } }, 1)
      else if k = d.cpt then (s, 3)
      else (s.startRamp c k, 0)
    (r.1.writeS o x.dst r.2).finish o (.dvreq x)

/-! ### HALT (R380) -/

/-- Groups of a context. -/
def State.ctxGroups (s : State) (n : Nat) : Tbl Group := s.groups.filter fun g => !(s.unitOf g.2).ctl && (s.unitOf g.2).ctx = n

/-- SAVE: dispatch stops and resident groups are pre-empted. -/
def State.haltCtx (s : State) (n : Nat) : State :=
  let s := s.modCtx n fun c => { c with halted := true }
  (s.ctxGroups n).foldl (fun s g => if s.savable g.2 then s.preemptGroup g.1 else s) s

/-- SAVE is done: no draw of the context has begun and not ended (R297), and what is left of the context is saved. -/
def State.haltDone (s : State) (n : Nat) : Bool :=
  (s.ctxGroups n).all (fun g => g.2.state = .saved) &&
  !s.units.any fun x => x.2.kind = .launch && !x.2.ctl && x.2.ctx = n && !x.2.state.isEnd && s.drawBegun x.2

/-- RESET is done: the record that closes it is written (R373 step 5). -/
def State.resetDone (s : State) (n : Nat) : Bool :=
  !(s.ctx n).resets && !s.clusters.any fun c => c.2.tbuf.any fun e => e.1 = n && leNat (e.2.take 4) = 0

/-- GO: dispatch and restore resume, of groups that an attach saved too (R389). -/
def State.goCtx (s : State) (n : Nat) : State :=
  let s := s.modCtx n fun c => { c with halted := false }
  { s with groups := s.groups.map fun (g : Nat × Group) =>
      if !(s.unitOf g.2).ctl && (s.unitOf g.2).ctx == n then (g.1, { g.2 with heldGo := false }) else g }

/-- THE ISSUE OF A HALT: `start` begins, `finished` says when it is done; a context number that names none gives 1. -/
def State.halt (s : State) (i : Instr) (x : CtlOp) (named : Bool) (start : Nat → State → State) (finished : Nat → State → Bool) :
    Host.Outcome State Fault Refusal :=
  let end_ := fun (o : Who) (s : State) (v : Nat) => (s.writeS o x.dst v).finish o i
  let ctx := fun (o : Who) (s : State) => if named then (s.scalar o x.a 0).toNat else 0
  s.resume i
    (fun o s => if finished (ctx o s) s then end_ o s 0 else s)
    (s.issue i fun o s =>
      let n := ctx o s
      if named && !s.ctxValid n then end_ o s 1
      else
        let s := start n s
        if finished n s then end_ o s 0 else s.holdOn o.pr i 2)

def execHaltSave (x : CtlOp) (s : State) : Host.Outcome State Fault Refusal :=
  s.halt (.haltSave x) x true (fun n s => s.haltCtx n) fun n s => s.haltDone n

def execHaltGo (x : CtlOp) (s : State) : Host.Outcome State Fault Refusal :=
  s.halt (.haltGo x) x true (fun n s => s.goCtx n) fun _ _ => true

def execHaltReset (x : CtlOp) (s : State) : Host.Outcome State Fault Refusal :=
  s.halt (.haltReset x) x true (fun n s => s.beginReset false n) fun n s => s.resetDone n

/-- Contexts with a valid descriptor. -/
def State.validCtxs (s : State) : List Nat := (List.range 1024).filter s.ctxValid

/-- SAVE on every valid context (R380, R407). -/
def State.haltAll (s : State) : State := s.validCtxs.foldl State.haltCtx s

def execHaltDevice (x : CtlOp) (s : State) : Host.Outcome State Fault Refusal :=
  s.halt (.haltDevice x) x false (fun _ s => s.haltAll) fun _ s => s.validCtxs.all s.haltDone

end Sys2Proof.Machine
end

