-- ==== Sys2Proof/Machine/Links.lean ====
section
/-! DEFINITION. The network's buckets (R325 to R327), the host link (R349 to R352), the load-store domain and its losses
(R353 to R355), and inbound collective deliveries (R357). -/

namespace Sys2Proof.Machine

open Sys2Proof

/-! ### Token buckets (R325 to R327) -/

/-- BUCKET_WINDOW: 1,024 network clocks have passed (R325); a trap that waited for credit is taken. -/
def stepBucketWindow (s : State) : Host.Outcome State Fault Refusal := .next (if s.net.clks < 1024 then s else s.window.finishStops)

/-- REQUEST_INJECT: the first request of a class's queue passes its bucket (R322, R325). -/
def stepRequestInject (port cls : Nat) (s : State) : Host.Outcome State Fault Refusal :=
  .next (if 82 < port || 3 < cls then s else s.injectHeld (bucketKey port cls) 1)

/-! ### Requests from outside (R319, R323) -/

/-- The packet of an inbound request for `len` bytes of device memory. -/
def inboundPacket (r : Inbound) (port cls a len : Nat) (write : Bool) : Packet :=
  let k := homeSlice a
  let dst := sliceStop (k / 2)
  { op := 0, inb := some r, loc := .dev (a / 32), sects := (len + 31) / 32, flits := if write && 32 < len then 3 else 1,
    back := if !write && 32 < len then 3 else 1, resp := false, port := port, cls := cls, src := portStop port dst, dst := dst,
    sink := k }

/-- Whether an inbound request waits at its port or is under way. -/
def State.underWay (s : State) (r : Inbound) : Bool :=
  (s.buckets.any fun b => b.2.held.any fun p => p.inb == some r) ||
  s.net.bufs.any fun b => b.2.any fun p => !p.resp && p.inb == some r

/-- A delivered request is answered, and its entry is free. -/
def State.answerInbound (s : State) (r : Inbound) : State :=
  match s.net.arrived.find? fun p => p.inb == some r with
  | none => s
  | some p =>
    let n : Net := { s.net with arrived := s.net.arrived.eraseP fun p => p.inb == some r }
    { s with net := n.push (bufKey p.dst 4 true) p.answer }

/-- An inbound request asks its port the first time, and is performed once it has been delivered; `act` says whether it
could be. -/
def State.takeIn (s : State) (p : Packet) (r : Inbound) (act : State → State × Bool) : State :=
  if s.net.arrived.any fun q => q.inb == some r then
    match act s with
    | (s, true) => s.answerInbound r
    | (s, false) => s
  else if s.underWay r then s
  else s.askBucket p

/-! ### The host (R349 to R352) -/

/-- The device answers the host: CXL port trained (R411). -/
def State.linkUp (s : State) : Bool := s.heat.powered && 4 ≤ s.boot.phase.toNat && !s.boot.fatal

/-- A count of 16 bits, saturating. -/
def satUp (x : BitVec 16) : BitVec 16 := if x = BitVec.allOnes 16 then x else x + 1

/-- JOBADDR_WRITE: the entry is accepted into the intake queue of 64, or dropped (R349, R350). Intake opens with READY
(R414). -/
def stepJobaddrWrite (ctx : Nat) (addr : BitVec 64) (size : Nat) (s : State) : Host.Outcome State Fault Refusal :=
  .next <|
    if ctx = 0 || 1023 < ctx || !s.linkUp || s.ioWaits then s
    else
    let s := s.ioAsk
    if size = 8 && s.boot.ready && s.ctxValid ctx && addr.toNat % 64 = 0 && (s.ctx ctx).intake.length < 64 then
      s.modCtx ctx fun c => { c with intake := c.intake ++ [addr], accepted := c.accepted + 1 }
    else s.modCtx ctx fun c => { c with dropped := satUp c.dropped }

/-- JOB_INTAKE: the oldest entry's record is read, past what the host holds of it, and the job enters Waiting; a far fault holds the read, a near one drops
the entry (R350). -/
def stepJobIntake (ctx : Nat) (s : State) : Host.Outcome State Fault Refusal :=
  .next <|
    match (s.ctx ctx).intake with
    | [] => s
    | a :: r =>
      if (s.ctx ctx).resets || (s.ctx ctx).heldOn.isSome then s
      else
        match s.hostLine ctx .read a with
        | some line => s.snoopLine1 line
        | none =>
        match s.getRecord 3 ctx a 0 4 with
        | (s, .held h) => s.modCtx ctx fun c => { c with heldOn := h }
        | (s, .bad) => s.modCtx ctx fun c => { c with intake := r, dropped := satUp c.dropped }
        | (s, .data d) =>
          let w := bytesWords d
          let s := s.modCtx ctx fun c => { c with intake := r }
          (s.addUnit { blankUnit .job ctx false none a with words := w, prio := field (nth w 0).toNat 17 16 }).1

/-- Whether bytes lie within one line of local device memory. -/
def inOneLine (a len : Nat) : Bool := 0 < len && a + len ≤ 2 ^ 39 && a / 128 = (a + len - 1) / 128

/-- The host may come to hold a line: the snoop filter keeps it, and when it is full its oldest line is recalled first
(R352). -/
def State.filterLine (s : State) (line : Nat) : Except State State :=
  if s.link.filter.contains line then .ok s
  else
    match s.link.filter with
    | old :: _ =>
      if 2 ^ 20 ≤ s.link.filter.length then .error (s.snoopLine1 old)
      else .ok { s with link := { s.link with filter := s.link.filter ++ [line] } }
    | [] => .ok { s with link := { s.link with filter := [line] } }

/-- R351: the device offset of bytes that one of the two HDM decoders holds: each maps the offsets after those of the one
before it (log entry 72). -/
def State.hdmOffset (s : State) (a len : Nat) : Option Nat :=
  let d := fun (k : Nat) => (s.link.hdm.get k).getD (0, 0)
  let has := fun (k : Nat) => (d k).1 ≤ a && a + len ≤ (d k).1 + (d k).2
  if has 0 then some (a - (d 0).1) else if has 1 then some (a - (d 1).1 + (d 0).2) else none

/-- R351: the host programs a decoder, in units of 256 MiB within the device's memory. -/
def State.setDecoder (s : State) (k base size : Nat) : State :=
  let other := ((s.link.hdm.get (1 - k)).getD (0, 0)).2
  if k < 2 && s.linkUp && base % 2 ^ 28 = 0 && size % 2 ^ 28 = 0 && size + other ≤ 2 ^ 39 then
    { s with link := { s.link with hdm := s.link.hdm.put k (base, size) } }
  else s

/-- A delivered host request is performed at the home slice, at system scope and without a signature (R352, R221). -/
def State.performHost (s : State) (a len : Nat) (data : Option (List Byte)) : State × Bool :=
  match data with
  | some d => ((s.writeAt (.dev a) d).send .hostDone, true)
  | none =>
    match s.filterLine (a / 128) with
    | .error t => (t, false)
    | .ok t =>
      if t.badAt (.dev a) len then (t.send .hostError, true)
      else
        match t.readAt (.dev a) len with
        | (t, d) => (t.send (.hostData d), true)

/-- HOST_MEM_REQUEST: a request through an HDM decoder; the next time it is named after its delivery, it is performed. -/
def stepHostMemRequest (addr : BitVec 64) (len : Nat) (data : Option (List (BitVec 8))) (s : State) :
    Host.Outcome State Fault Refusal :=
  .next <|
    match s.hdmOffset addr.toNat len with
    | none => s
    | some a =>
      if !s.linkUp || !inOneLine a len || s.link.snoop.contains (a / 128) || (data.map List.length).getD len != len then s
      else
        let r : Inbound := .host a len data
        s.takeIn (inboundPacket r 64 s.link.hostcls.toNat a len data.isSome) r fun s => s.performHost a len data

/-- R349, R351: the host reads BAR0, the control space. -/
def State.readBar0 (s : State) (off len : Nat) : State :=
  if !s.linkUp || s.ioWaits then s
  else
    match s.ioAsk.ctrlRead off len with
    | (s, d) => s.send (.hostData d)

/-- R349: the host reads a page of BAR2: its counts; JOBADDR and what is reserved read as zero. Page 0 tells BOOTST, after a
stop of the boot ROM as well (R408; log entry 73). -/
def State.readBar2 (s : State) (off len : Nat) : State :=
  let page := off / 4096
  let c := s.ctx page
  let bytes := if page = 0 then leBytes 16 s.boot.status
    else leBytes 8 0 ++ leBytes 2 c.accepted.toNat ++ leBytes 2 c.dropped.toNat ++ leBytes 4 0
  let at_ := fun (i : Nat) => bytes.getD i 0
  if 1024 ≤ page || !(s.linkUp || (page = 0 && s.heat.powered && (s.boot.fatal || s.boot.err != 0))) || s.ioWaits then s
  else s.ioAsk.send (.hostData ((List.range len).map fun i => at_ (off % 4096 + i)))

/-- R351: an entry of the CDAT table. -/
def State.readCdat (s : State) (entry : Word) : State := if s.linkUp then s.send (.cdat (Config.cdat entry)) else s

/-- BACK_INVALIDATE: the host answers a snoop, with the line where it held it modified (R352). -/
def stepBackInvalidate (line : Nat) (data : Option (List (BitVec 8))) (s : State) : Host.Outcome State Fault Refusal :=
  .next <|
    if !s.link.snoop.contains line then s
    else
      let s := match data with
        | some d => if d.length = 128 then s.writeAt (.dev (128 * line)) d else s
        | none => s
      { s with link := { s.link with snoop := s.link.snoop.filter fun l => l != line,
                                     filter := s.link.filter.filter fun l => l != line } }

/-! ### Inbound domain requests (R353, R354) -/

/-- R354: a header error is counted at its port, and told to the assay record of the die whose stop the port uses. -/
def State.headerError (s : State) (port : Nat) : State :=
  let s := { s with link := { s.link with porterr := s.link.porterr.put port (((s.link.porterr.get port).getD 0) + 1) } }
  s.platform (port % 9 % 4) 2 0 port 0

/-- R353: an enabled window of the requester's tenant that holds the bytes. -/
def State.exports (s : State) (tenant a len : Nat) : Bool :=
  (List.range 64).any fun k =>
    let w := (s.link.windows.get k).getD (0, 0)
    let base := field w.1.toNat 22 0 * 65536
    w.1.getLsbD 63 && field w.1.toNat 47 32 = tenant && base ≤ a && a + len ≤ base + field w.2.toNat 22 0 * 65536

/-- R221: a release from another device carries its Σ, with the device time of this home slice. -/
def State.carryFrom (s : State) (a n : Nat) (r : DomainReq) : State :=
  if r.release then
    (List.range ((a % 32 + n + 31) / 32)).foldl (fun s i => s.carry (a / 32 * 32 + 32 * i) (r.sig, s.time)) s
  else s

/-- An atomic or a reduction of another device at its place here (R227, R228, R235): the old value is the answer. -/
def State.remoteStep (s : State) (r : DomainReq) (ctx a code : Nat) (d : List Byte) : State :=
  let w := atomBytes code
  let b := leNat (d.take w)
  let s := s.noteRemote r ctx a
  if s.badAt (.dev a) w then s.send (.fabricLoss r.port r.tag)
  else if r.fixed && (code = 13 || code = 14) then
    ((s.carryFrom a w r).contribute ctx code (.dev a) (d.take w)).send (.fabricData r.port r.tag [] 0)
  else
    let s := (if 3 ≤ r.rank then s.dropSliceLine a else s).carryFrom a w r
    let g := (s.sigAt a).1
    match s.readAt (.dev a) w with
    | (s, old) =>
      let s := match atomWrites code (leNat old) b (leNat ((d.drop w).take w)) with
        | some v => s.writeAt (.dev a) (leBytes w v)
        | none => s
      (if 3 ≤ r.rank then s.writeBack (a / 128 * 128) 128 else s).send (.fabricData r.port r.tag old g)

/-- A request of another device is performed at the home slice and answered. -/
def State.performRemote (s : State) (r : DomainReq) (ctx a : Nat) : State :=
  match r.op, r.data with
  | some c, some d => s.remoteStep r ctx a c.toNat d
  | none, some d =>
    ((s.carryFrom a d.length r).writeAt (.dev a) d).send (.fabricData r.port r.tag [] 0)
  | _, none =>
    if s.badAt (.dev a) r.len then s.send (.fabricLoss r.port r.tag)
    else
      let g := (s.sigAt a).1
      match s.readAt (.dev a) r.len with
      | (s, d) => s.send (.fabricData r.port r.tag d g)

/-- A request whose bytes are as its operation needs, in one line. -/
def remoteOk (r : DomainReq) (a : Nat) : Bool :=
  inOneLine a r.len &&
  (match r.op, r.data with
   | some c, some d => r.len = atomBytes c.toNat && c.toNat ≤ 17 && a % r.len = 0 &&
       d.length = (if 16 ≤ c.toNat then 2 else 1) * r.len
   | none, some d => d.length = r.len
   | some _, none => false
   | none, none => true)

/-- A packet at a fabric port: `allowed` says whether it may be performed, at the offset and for the context given; it is,
once it has been delivered. -/
def State.inbound (s : State) (r : DomainReq) (i : Inbound) (allowed : Bool) (ctx a : Nat) : State :=
  if 18 ≤ r.port || s.boot.portdown.getLsbD r.port || s.boot.phase.toNat < 5 || !s.heat.powered then s
  else if !r.headerOk then s.headerError r.port
  else if !allowed then s.send (.fabricLoss r.port r.tag)
  else if !remoteOk r a then s
  else if r.hs && s.hostHas (a / 128) then s.snoopLine1 (a / 128)
  else
    s.takeIn (inboundPacket i (65 + r.port) r.cls.toNat a r.len (r.data.isSome && r.op.isNone)) i fun s =>
      if s.remoteTurn r ctx a then (s.performRemote r ctx a, true) else (s, false)

/-- DOMAIN_REQUEST_IN (R353, R354). -/
def stepDomainRequestIn (r : DomainReq) (s : State) : Host.Outcome State Fault Refusal :=
  .next (s.inbound r (.domain r) (s.exports r.tenant.toNat r.offset r.len) r.ctx.toNat r.offset)

/-- COLL_DELIVERY_IN: accepted in the group's window, or answered with loss (R357). -/
def stepCollDeliveryIn (g : Nat) (r : DomainReq) (s : State) : Host.Outcome State Fault Refusal :=
  .next <|
    let c := s.collAt g
    s.inbound r (.coll g r) (g < 4096 && c.isOpen && c.tenant = r.tenant && r.offset + r.len ≤ c.wsize.toNat && r.data.isSome)
      c.ctx.toNat (c.wbase.toNat + r.offset)

/-! ### Losses of this device's own requests (R355) -/

/-- Whether a piece lies on another device of the domain, and on which. -/
def Piece.peer? (p : Piece) : Option Nat := match p.loc with | .peer d _ => some d | _ => none

/-- The pieces lost are closed with their flag; a read of them gives zeros. -/
def Op.lose (x : Op) (flag : Word) (l : List (Nat × Piece)) : Op :=
  { x with seen := l.foldl (fun t e => Tbl.put t e.1 (leBytes e.2.len 0)) x.seen,
           acc := l.foldl (fun t e => Tbl.put t e.1 (List.replicate ((e.2.len + 3) / 4) flag)) x.acc }

/-- Whatever completes an operation of the normal path whose last piece was lost. -/
def State.closeLost (s : State) (g : Group) (id : Nat) : State :=
  match s.op id with
  | none => s
  | some y =>
    if !y.opens.isEmpty then s
    else
      match y.kind with
      | .load => s.landLoad g y
      | .store => s.storeDone g y
      | .atom => s.atomDone g y
      | .red => s.atomDone g y
      | .ldw => s.ldwDone g y (nth y.args 0).toNat
      | _ => s

/-- A loss on a load, store or atomic. A write may have been performed all the same, at its turn. -/
def State.loseNormal (s : State) (g : Group) (u : WorkUnit) (x : Op) (flag : Word) (performed : Bool)
    (l : List (Nat × Piece)) : State :=
  let may :=
    if x.kind = .store then s.mayPerform g u x true (l.map fun e => e.2)
    else s.atomMay g u x (l.map fun e => e.1)
  let acts := performed && (x.kind = .store || x.kind = .atom || x.kind = .red)
  if acts && !may then s
  else
    let s :=
      if !acts then s
      else if x.kind = .store then s.writeFrom g u x l
      else l.foldl (fun s e => s.atomStep g u x.id e.1) s
    (s.modOp x.id fun y => y.lose flag l).closeLost g x.id

/-- A loss on a copy: a source sector gives zeros; a destination sector or the stamp is written or not. -/
def State.loseCopy (s : State) (g : Group) (u : WorkUnit) (x : Op) (flag : Word) (performed : Bool)
    (l : List (Nat × Piece)) : State :=
  let n := x.arg 0
  let ready := fun (i : Nat) => i < 2 * n || (List.range n).all fun k => (x.seen.get (n + k)).isSome
  let l := x.indexed (dedup (x.sources ((l.map fun e => e.1).filter fun i => i < n) ++
    (x.targets (((l.map fun e => e.1).filter fun i => n ≤ i && i < 2 * n).map fun i => i - n)).map (fun i => n + i) ++
    (l.map fun e => e.1).filter fun i => 2 * n ≤ i))
  if !s.copyTurn g x || !s.clearOf x x.countPiece || !(l.all fun e => ready e.1) then s
  else
    let s := s.startCopy g x
    l.foldl (fun s e =>
      let s :=
        if e.1 < n || !performed then s
        else if e.1 < 2 * n then s.copyWrite g u x.id (e.1 - n)
        else s.writeStamp g x
      s.modOp x.id fun y => y.lose flag [e]) s

/-- A loss on a multicast: whole deliveries, each performed or not; DRAIN falls (R246). -/
def State.loseCast (s : State) (g : Group) (u : WorkUnit) (x : Op) (flag : Word) (performed : Bool)
    (l : List (Nat × Piece)) : State :=
  let whole := (x.indexed (x.pick [])).filter fun e => l.any fun f => f.2.lane = e.2.lane && f.2.peer? = e.2.peer?
  let heads := whole.filter fun e => e.2.off = 0
  if performed && !(s.clearOf x (whole.map fun e => e.2) && (!x.releases || s.releaseReady x) &&
      whole.all fun e => s.admits g u x e.2 true && s.ticketTurn g u x e.2) then s
  else
    let s := if !performed then s
      else whole.foldl (fun s e => if x.kind = .mcst then s.castWrite g u x e.2 else (s.castReduce g u x e.2).1) s
    let s := heads.foldl (fun s e =>
      (s.castFault x codeLoss (if flag = 3 then 1 else 0) e.2.lane e.2.va
        (BitVec.ofNat 32 (Config.fabricPort (e.2.peer?.getD 0)))).modColl (collAddr e.2.va).1
          fun c => { c with drain := c.drain - 1 }) s
    let s := s.modOp x.id fun y => { y with seen := whole.foldl (fun t e => Tbl.put t e.1 []) y.seen }
    match s.op x.id with
    | some y => if y.opens.isEmpty then (if x.carries then s.afterRelease g.core else s).opDone x.id else s
    | none => s

/-- R355: the read of a CCWAIT gives 0, held as an error; that of a MONW, which writes no register, is held for the
wave, and the wait goes on. -/
def State.loseWait (s : State) (p : PartRef) (flag : Word) : State :=
  let late := flag = 3
  match s.who p with
  | none => s
  | some o =>
    match o.p.hold, o.p.status with
    | .instr (.ccwait x), .resident =>
      match s.ccCheck o x with
      | (_, .ok ps) =>
        match ps.head?.bind Piece.peer? with
        | none => s
        | some d =>
          ((s.writeSS o x.dst 0).holdErr o x.dst.num.toNat 2 (o.spair x.a.num.toNat)
            (some (Config.fabricPort d, late))).finish o (.ccwait x)
      | _ => s
    | .instr (.monw x), .resident =>
      match s.monCheck o x with
      | (_, .ok ps) =>
        match ps.head?.bind Piece.peer? with
        | none => s
        | some d =>
          s.pend p.wave
            { quads := o.p.quads, ctr := none, code := codeLoss, cause := if late then 1 else 0, mask := 0, pc := o.p.pc,
              addr := (ps.head?.map fun q => q.va).getD 0, aux0 := 0, aux1 := BitVec.ofNat 32 (Config.fabricPort d),
              merged := 0, barr := none, hand := none, op := 0 }
      | _ => s
    | _, _ => s

/-- THE END OF A DOMAIN REQUEST AS FABRIC_LOSS (R355). -/
def State.lose (s : State) (t : LossTarget) (late : Bool) : State :=
  let flag : Word := if late then 3 else 2
  match t with
  | .part p =>
    match s.who p with
    | some o => if late && (s.time - o.p.since).toNat < s.link.flto * 1000 then s else s.loseWait p flag
    | none => s
  | .op id sel performed =>
    match s.liveOp id (fun k => k = .load || k = .store || k = .ldw || k = .atom || k = .red || k = .copy ||
        k = .mcst || k = .mred) with
    | none => s
    | some (x, g, u) =>
      let l := (x.indexed (x.pick sel)).filter fun e => e.2.peer?.isSome
      if l.isEmpty || (late && (s.time - x.start).toNat < s.link.flto * 1000) then s
      else
        match x.kind with
        | .copy => s.loseCopy g u x flag performed l
        | .mcst => s.loseCast g u x flag performed l
        | .mred => s.loseCast g u x flag performed l
        | _ => s.loseNormal g u x flag performed l

/-- FABRIC_LOSS_RESPONSE (R355). -/
def stepFabricLossResponse (t : LossTarget) (s : State) : Host.Outcome State Fault Refusal := .next (s.lose t false)

/-- FABRIC_TIMEOUT: no response for FLTO µs (R355). -/
def stepFabricTimeout (t : LossTarget) (s : State) : Host.Outcome State Fault Refusal := .next (s.lose t true)

end Sys2Proof.Machine
end

