-- ==== Sys2Proof/Machine/Power.lean ====
section
/-! DEFINITION. Power and heat as events: the planisher's windows (R403, R404), low-rail islands (R402), ramps (R405),
sensors (R401), the thermal ladder (R407). -/

namespace Sys2Proof.Machine

open Sys2Proof

/-! ### The planisher and low-rail mode (R402 to R404) -/

/-- The parts of a core that a bubble holds (R404). -/
def State.bubbled (s : State) (core : Nat) : List PartRef :=
  s.waves.flatMap fun w =>
    if (match s.groups.get w.2.group with | some g => g.core == core | none => false) then
      (w.2.parts.filter fun p => p.2.status == .resident && p.2.stall == 27).map fun p => { wave := w.1, part := p.1 }
    else []

/-- PLANISHER_WINDOW: 64 clocks have passed: what exceeded the budget is carried; CURLIM takes what was last written; the
bubbles end. -/
def stepPlanisherWindow (core : Nat) (s : State) : Host.Outcome State Fault Refusal :=
  .next <|
    if (s.core core).cur.clks < 64 then s
    else (s.bubbled core).foldl (fun t p => t.modPart p fun q => { q with hold := .no, stall := 0 }) <| s.modCore core fun c =>
      { c with cur := { c.cur with held := s.bubbled core, win := BitVec.ofNat 32 c.cur.used, excess := c.cur.used + c.cur.excess - c.cur.lim.toNat,
                                   lim := c.cur.next, used := 0, clks := c.cur.clks - 64 } }

/-- LOW_RAIL_WINDOW: 4,096 clocks have passed, and the event tells the counts that the scheduler shows for them; the island
enters low-rail mode where at least 90 in a hundred clocks of its occupancy were memory waits, and a new window begins with
what later clocks have counted. -/
def stepLowRailWindow (core sched memWaits occupancy : Nat) (s : State) : Host.Outcome State Fault Refusal :=
  .next <|
    let i := (s.core core).isl
    let m := i.memw.getD sched 0
    let n := i.occ.getD sched 0
    if 4 ≤ sched || i.clks.getD sched 0 < 4096 || memWaits != m || occupancy != n then s
    else
      s.modCore core fun c =>
        { c with isl := { c.isl with
            low := if i.lren.getLsbD sched && 0 < n && 9 * n ≤ 10 * m then c.isl.low ||| bit1 4 sched else c.isl.low,
            clks := c.isl.clks.set sched (i.clks.getD sched 0 - 4096),
            memw := c.isl.memw.set sched (i.memn.getD sched 0), occ := c.isl.occ.set sched (i.occn.getD sched 0),
            memn := c.isl.memn.set sched 0, occn := c.isl.occn.set sched 0 } }

/-- LOW_RAIL_WAKE: a part of the scheduler is ready. -/
def stepLowRailWake (core sched : Nat) (s : State) : Host.Outcome State Fault Refusal :=
  .next <|
    if sched < 4 && (s.core core).isl.low.getLsbD sched && (s.slotted core sched).any fun p => p.2.isReady then
      s.modCore core fun c => { c with isl := c.isl.startWake (bit1 4 sched) }
    else s

/-- LOW_RAIL_WAKE_DONE: 200 ns have passed; the scheduler issues at its cluster's point. -/
def stepLowRailWakeDone (core sched : Nat) (s : State) : Host.Outcome State Fault Refusal :=
  .next <|
    let i := (s.core core).isl
    if sched < 4 && i.wake.getLsbD sched && i.timer.getD sched 0 = 0 then
      let s := s.modCore core fun c =>
        { c with isl := { c.isl with low := c.isl.low &&& ~~~ bit1 4 sched, wake := c.isl.wake &&& ~~~ bit1 4 sched } }
      (s.slotted core sched).foldl (fun s p =>
        s.modPart p.1 fun q => if q.stall = 28 then { q with hold := .no, stall := 0 } else q) s
    else s

/-! ### Ramps (R405) -/

/-- The clusters. -/
def allClusters : List Nat := List.range 64

/-- A cluster that is not ramping starts towards a point that is not its own. -/
def State.rampTo (s : State) (c k : Nat) : State :=
  let d := (s.cluster c).dvfs
  if d.ramp || d.cpt = k then s else s.startRamp c k

/-- DVFS_RAMP_END: the point is reached; trip 2, or the queued request, starts the next ramp. -/
def stepDvfsRampEnd (cluster : Nat) (s : State) : Host.Outcome State Fault Refusal :=
  .next <|
    let d := (s.cluster cluster).dvfs
    if !d.ramp || d.left != 0 then s
    else
      let s := (s.modCluster cluster fun x => { x with dvfs := { x.dvfs with ramp := false } }).setPoint cluster d.tpt
      if s.trip2 then s.rampTo cluster 9
      else if d.qpt = 0 then s
      else (s.modCluster cluster fun x => { x with dvfs := { x.dvfs with qpt := 0 } }).rampTo cluster d.qpt

/-! ### Sensors and the thermal ladder (R401, R407) -/

/-- The hottest of a list of signed samples. -/
def hottest : List (BitVec 16) → BitVec 16
  | [] => 0
  | [t] => t
  | t :: r => if (hottest r).toInt < t.toInt then t else hottest r

/-- Threshold of a level in 1/16 °C. -/
def tripLimit (level : Nat) : Int := match level with | 1 => 95 * 16 | 2 => 100 * 16 | _ => 108 * 16

/-- Whether the sample just read changes a level: its threshold, less 3 °C for clearing, and 20 ms in its state. -/
def State.tripDue (s : State) (level : Nat) : Bool :=
  let t := s.heat.trips.getD (level - 1) { active := false, dwell := 0 }
  1 ≤ level && level ≤ 3 && 20000000 ≤ t.dwell &&
    (if t.active then s.heat.pktemp.toInt ≤ tripLimit level - 48 else tripLimit level ≤ s.heat.pktemp.toInt)

/-- Entry into trip 2 sends every cluster to point 9; its end lets the queued points, or 21, take effect. -/
def State.trip2Change (s : State) (on : Bool) : State :=
  allClusters.foldl (fun s c =>
    if on then s.rampTo c 9
    else
      let d := (s.cluster c).dvfs
      let k := if d.qpt = 0 then 21 else d.qpt
      if d.ramp then s.modCluster c fun x => { x with dvfs := { x.dvfs with qpt := k } }
      else (s.modCluster c fun x => { x with dvfs := { x.dvfs with qpt := 0 } }).rampTo c k) s

/-- A level changes; every die records it, vector 0 is signalled, and the level's action follows. -/
def State.changeTrip (s : State) (level : Nat) : State :=
  let on := !(s.heat.trips.getD (level - 1) { active := false, dwell := 0 }).active
  let s := { s with heat := { s.heat with tripev := true, trips := s.heat.trips.set (level - 1) { active := on, dwell := 0 } } }
  let s := (s.platformAll 0 0 s.heat.trip).send (.msix 0)
  match level with
  | 2 => s.trip2Change on
  | 3 => if on then s.haltAll else s
  | _ => s

/-- The lowest level that the last sample changes, and has not changed yet. -/
def State.nextTrip (s : State) : State :=
  match s.heat.due with
  | [] => s
  | level :: r => { s with heat := { s.heat with due := r } }.changeTrip level

/-- TRIP_CHANGE: the change that is next of those due at the last sample is made. -/
def stepTripChange (level : Nat) (s : State) : Host.Outcome State Fault Refusal :=
  .next (if s.heat.due.head? = some level then s.nextTrip else s)

/-- THERMAL_SAMPLE: the changes of the sample before are made, in ascending level, where they have not been; then the 66
sensors, the rails and process monitors, and the power means are read, and the levels that this sample changes are due. -/
def stepThermalSample (r : ThermalIn) (s : State) : Host.Outcome State Fault Refusal :=
  .next <|
    if r.temps.length != 66 then s
    else
      let s := s.heat.due.foldl (fun s _ => s.nextTrip) s
      let s := allClusters.foldl (fun s c => s.modCluster c fun x =>
        { x with tsens := r.temps.getD c 0, pmon := r.process.getD c x.pmon }) s
      let s := r.rails.foldl (fun s e => if e.1 < 2048 then s.modCore (e.1 / 4) fun c =>
        { c with isl := { c.isl with vmon := c.isl.vmon.set (e.1 % 4) e.2 } } else s) s
      let s := { s with heat := { s.heat with pktemp := hottest r.temps, pkpwr := r.pkpwr, modpwr := r.modpwr } }
      { s with heat := { s.heat with due := [1, 2, 3].filter s.tripDue } }

/-- TRIP4_POWER_OFF: the module's comparator removes power. -/
def stepTrip4PowerOff (s : State) : Host.Outcome State Fault Refusal :=
  .next { s with heat := { s.heat with powered := false } }

end Sys2Proof.Machine
end

