-- ==== Sys2Proof/Machine/Boot.lean ====
section
/-! DEFINITION. Resets and the boot sequence (R408 to R414), identity and configuration requests (R351, R358, R411). -/

namespace Sys2Proof.Machine

open Sys2Proof

/-! ### What a reset keeps (R410) -/

/-- A cold reset keeps the flash and the fuses. What lies outside the device, and what is the model's own, stays. Device
memory and the weight store hold what they held until the ROM's step 2 writes zeros (log entry 4). -/
def State.coldStart (s : State) : State :=
  { State.reset with
    mem := { Store.reset with gddr := s.mem.gddr, ws := s.mem.ws, host := s.mem.host, peer := s.mem.peer, flash := s.mem.flash,
                              bad := s.mem.bad.filter fun l => match l with | .host _ => true | .peer _ _ => true | _ => false },
    fresh := s.fresh, out := s.out, turns := s.turns, cur := s.cur, ctr := s.ctr }

/-- A warm reset keeps device memory as GDDR7 holds it, the weight store, the assay rings and device time. The L2 lines in
`written` had reached GDDR7; what else L2 held is lost. -/
def State.warmStart (s : State) (kind : BitVec 4) (written : List Nat) : State :=
  let t := written.foldl (fun s l => s.writeBack (128 * l) 128) s
  { State.reset with
    mem := { t.mem with l2 := [], bad := t.mem.bad.filter fun l => match l with | .ls _ _ => false | _ => true },
    dies := t.dies.map fun (d : Nat × Assay) => (d.1, { d.2 with frozen := false, seq := 0 }),
    time := t.time, wrapped := t.wrapped, boot := Boot.reset kind,
    fresh := t.fresh, out := t.out, turns := t.turns, cur := t.cur, ctr := t.ctr }

/-! ### The image (R413) -/

/-- An image that every check accepts: its length and its entry offset. -/
def imageAt (flash : Memory) (base : Nat) : Option (Nat × Nat) :=
  let part := fun (a n : Nat) => flash.bytes (base + a) n
  let len := leNat (part 8 4)
  let entry := leNat (part 12 4)
  if leNat (part 0 4) = 0x4C4D4556 && Config.secver.toNat ≤ leNat (part 4 4) && 4096 ≤ len && len ≤ 0x00F00000 &&
      entry < len && (slotOf (BitVec.ofNat 64 entry)).isSome && (part 144 112).all (fun b => b = 0) &&
      Config.sm3 (part 16 64) = Config.keyDigest &&
      Config.sm2Verify (part 16 64) (Config.sm3 (part 0 80 ++ part 256 (len - 256))) (part 80 64) then
    some (len, entry)
  else none

/-- Slot A, or else slot B. -/
def pickImage (flash : Memory) : Option (Bool × Nat × Nat) :=
  match imageAt flash 0 with
  | some e => some (false, e.1, e.2)
  | none => (imageAt flash 0x01000000).map fun e => (true, e.1, e.2)

/-! ### Boot sequence (R411, R412) -/

def State.setPhase (s : State) (n : Nat) : State := { s with boot := { s.boot with phase := BitVec.ofNat 4 n } }

/-- The ROM stops with an error code, and its wave ends. -/
def State.bootStop (s : State) (err : Nat) : State :=
  { s with boot := { s.boot with err := BitVec.ofNat 12 err, rom := none } }

/-- The launch record of the firmware entry: what is not listed is zero. -/
def firmwareWords (entry len status : Nat) : List Word :=
  (List.range 64).map fun i =>
    match 4 * i with
    | 0x00 => 0x01000000
    | 0x08 => BitVec.ofNat 32 (0x00100000 + entry)
    | 0x10 => 1 | 0x14 => 1 | 0x18 => 1
    | 0x1C => 3
    | 0x20 => 0x00802001
    | 0x24 => 65536
    | 0x2C => fmtReset
    | 0x38 => 0x01000000
    | 0x40 => cutpReset
    | 0x58 => 1
    | 0xC0 => 0x00100000
    | 0xC8 => BitVec.ofNat 32 len
    | 0xCC => BitVec.ofNat 32 status
    | _ => 0

/-- Step 6: the firmware entry as a control-mode launch, which waits for its dispatch. -/
def State.launchFirmware (s : State) (entry len : Nat) : State :=
  (s.addUnit { blankUnit .launch 0 true none 0 with
    state := .running, stage := 2, words := firmwareWords entry len s.boot.status }).1

/-- Step 2: the memories are trained; a cold reset writes every byte of both to zero. -/
def State.bootMemory (s : State) : State :=
  (if s.boot.rkind = 1 then { s with mem := { s.mem with gddr := [], ws := [] } } else s).setPhase 2

/-- Step 3: the image of a slot that verifies is in memory, and measured (R413). -/
def State.bootImage (s : State) (e : Bool × Nat × Nat) : State :=
  let image := s.mem.flash.bytes (if e.1 then 0x01000000 else 0) e.2.1
  let s := s.setBytes (.dev 0x00100000) image
  { s with boot := { s.boot with slot := e.1, digest := Config.sm3 image, image := e.2 } }.setPhase 3

/-- Step 6: every bucket has EN = 0, the firmware is launched, and the ROM's wave ends. -/
def State.bootLaunch (s : State) : State :=
  let s := ({ s with buckets := [] }.launchFirmware s.boot.image.2 s.boot.image.1).setPhase 6
  { s with boot := { s.boot with rom := none } }

/-- THE BOOT SEQUENCE: the ROM's next step, by the last one done (R411); a step that fails stops the ROM. -/
def State.bootStep (s : State) (b : BootIn) : State :=
  match s.boot.phase.toNat with
  | 0 => if b.selfOk then s.setPhase 1 else s.bootStop 1
  | 1 =>
    match b.badDie with
    | some d => s.bootStop (0x10 + d.toNat)
    | none => s.bootMemory
  | 2 =>
    match pickImage s.mem.flash with
    | none => s.bootStop 0x20
    | some e => s.bootImage e
  | 3 => if b.linkOk then s.setPhase 4 else s.bootStop 0x30
  | 4 => { s with boot := { s.boot with portdown := b.portsDown } }.setPhase 5
  | _ => s.bootLaunch

/-- The boot ROM's wave begins (R411): it takes one step in each later turn (log entry 1). -/
def State.bootBegin (s : State) (b : BootIn) : State := { s with boot := { s.boot with rom := some b } }

/-- What the boot ROM does in a turn, where it runs. -/
def State.romTurn (s : State) : State :=
  match s.boot.rom with
  | some b => if s.heat.powered then s.bootStep b else s
  | none => s

/-- COLD_RESET: power comes on (R409). -/
def stepColdReset (boot : BootIn) (s : State) : Host.Outcome State Fault Refusal := .next (s.coldStart.bootBegin boot)

/-- WARM_RESET_HOST: a CXL hot or link-down reset (R409). One that comes while the boot ROM runs restarts it (R410). -/
def stepWarmResetHost (boot : BootIn) (s : State) : Host.Outcome State Fault Refusal :=
  .next (if s.heat.powered then (s.warmStart 3 boot.written).bootBegin boot else s)

/-- WARM_RESET_FATAL: a device fatal error is answered (R363, R409). -/
def stepWarmResetFatal (boot : BootIn) (s : State) : Host.Outcome State Fault Refusal :=
  .next (if s.heat.powered && s.boot.fatal then (s.warmStart 2 boot.written).bootBegin boot else s)

/-- RSTREQ_WRITE: the value 5 on the firmware mailbox (R414). -/
def stepRstreqWrite (value : BitVec 32) (boot : BootIn) (s : State) : Host.Outcome State Fault Refusal :=
  .next (if s.linkUp && value = 5 then (s.warmStart 3 boot.written).bootBegin boot else s)

/-! ### Identity and configuration (R351, R358, R411) -/

/-- What a signed measurement covers: ROM version, image digest, security version, fuses, nonce. -/
def State.measurement (s : State) (nonce : BitVec 256) : List Byte :=
  leBytes 8 Config.romVersion ++ leBytes 32 s.boot.digest.toNat ++ leBytes 1 Config.secver.toNat ++
  leBytes 8 Config.fuses ++ leBytes 32 nonce.toNat

/-- SPDM_REQUEST: an answer over the DOE mailbox, signed by the identity key. -/
def stepSpdmRequest (nonce : BitVec 256) (s : State) : Host.Outcome State Fault Refusal :=
  .next <|
    if s.linkUp then
      let m := s.measurement nonce
      s.send (.spdm (leNat m) (Config.sm2Sign (Config.sm3 m)))
    else s

/-- CONFIG_REQUEST: Retry Status until PHASE reaches 4, then an answer (R411). -/
def stepConfigRequest (addr : BitVec 32) (write : Option (BitVec 32)) (s : State) : Host.Outcome State Fault Refusal :=
  .next <|
    if !s.heat.powered || s.ioWaits then s
    else
    let s := s.ioAsk
    if s.boot.phase.toNat < 4 then s.send .configRetry
    else s.send (.configData (if write.isSome then 0 else Config.configSpace addr))

end Sys2Proof.Machine
end

