-- ==== Sys2Proof/Machine/Events.lean ====
section
/-! DEFINITION. Events of single units: the buffers of fault and trap records (R341, R367), profile samples (R383), and
the wrap of device time (R222). -/

namespace Sys2Proof.Machine

open Sys2Proof

/-! ### Buffered records (R341, R367) -/

/-- A trap record into its context's queue, with its interrupt. -/
def State.queueTrap (cluster : Nat) (s : State) (n : Nat) (rec : List Byte) : State × Put :=
  match s.trapQueue n with
  | none => (s, .full)
  | some (base, lg, irq) =>
    match s.queuePut cluster base lg 128 rec with
    | (s, .done) => (if irq then s.send (.msix n) else s, .done)
    | r => r

/-- The same for a fault record. -/
def State.queueFault (cluster : Nat) (s : State) (n : Nat) (rec : List Byte) : State × Put :=
  let s := (s.asidEntry n).1
  match s.faultQueue n with
  | none => (s, .full)
  | some (base, lg) =>
    match s.queuePut cluster base lg 64 rec with
    | (s, .done) => (s.interrupt n, .done)
    | r => r

/-- The oldest buffered record that finds room goes, and the others stay; one that meets an error is given up, and its
context is reset (R363). -/
def drainFirst (put : State → Nat → List Byte → State × Put) (s : State) :
    List (Nat × List Byte) → Option (State × List (Nat × List Byte))
  | [] => none
  | e :: r =>
    match put s e.1 e.2 with
    | (t, .done) => some (t, r)
    | (_, .bad) => some (s.beginReset (e.1 = 0) e.1, r)
    | (_, .full) => (drainFirst put s r).map fun x => (x.1, e :: x.2)

/-- FAULT_BUFFER_DRAIN (R341). The write is a request of class 0 (R324). -/
def stepFaultBufferDrain (cluster : Nat) (s : State) : Host.Outcome State Fault Refusal :=
  .next <|
    match if s.portWaits cluster 0 6 then none else drainFirst (State.queueFault cluster) s (s.cluster cluster).fbuf with
    | some (s, l) => s.modCluster cluster fun c => { c with fbuf := l }
    | none => s

/-- TRAP_BUFFER_DRAIN: a part that waited for the buffer then takes its trap (R367). -/
def stepTrapBufferDrain (cluster : Nat) (s : State) : Host.Outcome State Fault Refusal :=
  .next <|
    match if s.portWaits cluster 0 10 then none else drainFirst (State.queueTrap cluster) s (s.cluster cluster).tbuf with
    | some (s, l) => (s.modCluster cluster fun c => { c with tbuf := l }).finishStops
    | none => s

/-! ### Profiling (R382, R383) -/

/-- What a part reports: that it has issued in this clock, its stall reason, or that it is ready and not selected. -/
def sampleCode (p : Part) (issued : Bool) : Nat := if issued then 128 else if p.stall != 0 then p.stall else 31

/-- PROFILE_SAMPLE: the scheduler's next slot is sampled, into the profile ring of its context if it has one. -/
def stepProfileSample (core sched : Nat) (s : State) : Host.Outcome State Fault Refusal :=
  .next <|
    if 512 ≤ core || 4 ≤ sched then s
    else
      let k := (s.core core).slotRot.getD sched 0
      let s := s.modCore core fun c => { c with slotRot := c.slotRot.set sched ((k + 1) % 48) }
      match (s.slotted core sched).find? fun p => p.2.slot = k with
      | none => s
      | some (pr, p) =>
        match s.who pr with
        | none => s
        | some o =>
          if o.u.ctl || !o.u.prof || !(s.ctx o.u.ctx).logctl.getLsbD 4 then s
          else
            let (s, q) := s.nextSeq core
            let r : EvRec :=
              { kind := 16, code := sampleCode p ((((s.core core).issued.get sched).getD []).any fun a => a.part = pr), wid := o.wid, part := pr.part,
                pc := p.pc.toNat, dseq := o.w.seqs.dseq.toNat, qmask := p.quads.toNat, data := sched }
            s.ringPut (some (clusterOf core)) (o.u.pring core) o.u.psize (evBytes s.time.toNat q core r)

/-! ### Device time (R222) -/

/-- The signature times move onto the new count. -/
def State.wrapTimes (s : State) : State :=
  { s with
    wrapped := true,
    cores := s.cores.map fun (c : Nat × Core) =>
      (c.1, { c.2 with l1 := c.2.l1.filter fun e => (l1Global e.1).isNone, f := 0, z := 0 }),
    waves := s.waves.map fun (w : Nat × Wave) =>
      (w.1, { w.2 with parts := w.2.parts.map fun (p : Nat × Part) =>
        (p.1, { p.2 with sigs := p.2.sigs.map fun g => (g.1, (0 : Time)) }) }),
    ops := s.ops.map fun (x : Op) => { x with sigs := x.sigs.map fun g => (g.1, (0 : Time)) },
    groups := s.groups.map fun (g : Nat × Group) => (g.1, { g.2 with sigz := (g.2.sigz.1, 0) }),
    units := s.units.map fun (u : Nat × WorkUnit) => (u.1, { u.2 with gsig := (u.2.gsig.1, 0) }),
    clusters := s.clusters.map fun (c : Nat × Cluster) =>
      (c.1, { c.2 with rast := { c.2.rast with sig := (c.2.rast.sig.1, 0) } }),
    slices := s.slices.map fun (c : Nat × Slice) =>
      (c.1, { c.2 with zs := 0, sigs := c.2.sigs.map fun e => (e.1, e.2.1, (0 : Time)) }) }

/-- DEVICE_TIME_WRAP: the ns after the last of the 48-bit count. -/
def stepDeviceTimeWrap (s : State) : Host.Outcome State Fault Refusal :=
  .next (if s.time = BitVec.allOnes 48 then { s with time := 0 }.wrapTimes else s)

end Sys2Proof.Machine
end

