-- ==== Sys2Proof/Machine/Turns.lean ====
section
/-! DEFINITION. Turns: the time that passes and what it counts, what comes from outside the device, who may issue, the
entry into a line and the reading of a slot, and the turn that is taken when none is listed (log entry 1). -/

namespace Sys2Proof.Machine

open Sys2Proof

/-! ### Time -/

/-- Further clocks of a core in a turn. -/
def Turn.clkOn (t : Turn) (core : Nat) : Nat := t.clk + ((Tbl.get t.more core).getD 0)

/-- R389: a group whose core is frozen for its context. -/
def State.frozen (s : State) (g : Group) : Bool :=
  let f := (s.core g.core).freeze
  f.frozen && !(s.unitOf g).ctl && (s.unitOf g).ctx = f.ctx

/-- R255: a WAITN whose condition holds in some quads of the part and not in others. -/
def State.mixed (s : State) (o : Who) (x : CtlOp) : Bool :=
  let q := s.satisfied o (waitnArgs o x).1 (waitnArgs o x).2
  q != 0 && q != o.p.quads

/-- Whether the clocks of a part's wait count. -/
def State.counts (s : State) (o : Who) : Bool :=
  match o.p.hold with
  | .instr (.waitn x) => s.mixed o x
  | .instr (.tlbinvAll _) => false
  | .instr (.tlbinvAsid _) => false
  | .instr (.tlbinvPage _) => false
  | .instr (.mwait _) => false
  | .instr _ => true
  | .nap => true
  | _ => false

/-- A part after n clocks (R274, R293, R294, R389). -/
def Part.after (p : Part) (n : Nat) (counts : Bool) : Part :=
  let woken := p.hold == .nap && counts && p.timer ≤ n
  { p with hold := if woken then .no else p.hold, stall := if woken then 0 else p.stall,
           idle := p.idle + n, timer := if counts then p.timer - n else p.timer, waited := if p.waits then p.waited + n else 0,
           inSet := if p.front then p.inSet + n else 0,
           queued := if !p.front && p.isReady then p.queued + n else 0 }

/-- The parts and the knit episodes of a wave after a turn. -/
def State.waveAfter (s : State) (t : Turn) (id : Nat) (w : Wave) : Wave :=
  match s.groups.get w.group with
  | none => w
  | some g =>
    let n := t.clkOn g.core
    let frozen := s.frozen g
    let parts := w.parts.map fun (p : Nat × Part) =>
      if p.2.status != .resident then p
      else
        let c := !frozen && (match s.who { wave := id, part := p.1 } with | some o => s.counts o | none => false)
        (p.1, p.2.after n c)
    let eps := w.eps.map fun (e : Episode) =>
      if !frozen && w.parts.any (fun p => e.parts.contains p.1 && p.2.status == .resident) then
        { e with timer := e.timer - n } else e
    { w with parts := parts, eps := eps }

/-- Whether some part of a core reports stall reason 27 (R404). -/
def State.bubbling (s : State) (core : Nat) : Bool := !(s.bubbled core).isEmpty

/-- R402: the stall reasons that count as memory waits. -/
def memoryWait (r : Nat) : Bool := r = 2 || r = 15 || r = 19 || r = 23 || r = 24 || r = 25

/-- R402: the islands of a core after n clocks: memory waits and occupancy, those of the clocks up to the window's 4,096th
apart from the later ones. -/
def State.islandsAfter (s : State) (core n ns : Nat) (i : Islands) : Islands :=
  let front := fun (j : Nat) => (s.slotted core j).filter fun x => x.2.front
  let waits := fun (j : Nat) => (front j).any fun x => memoryWait x.2.stall
  let holds := fun (j : Nat) => !(front j).isEmpty
  let now := fun (j : Nat) => min n (4096 - i.clks.getD j 0)
  let add := fun (l : List Nat) (p : Nat → Bool) (k : Nat → Nat) => l.zipIdx.map fun e => if p e.2 then e.1 + k e.2 else e.1
  { i with timer := i.timer.map fun x => x - ns, clks := i.clks.map fun x => x + n,
           memw := add i.memw waits now, occ := add i.occ holds now,
           memn := add i.memn waits fun j => n - now j, occn := add i.occn holds fun j => n - now j }

/-- R389: a draw's group that an attach has taken, until RELEASE. -/
def State.attachedAt (s : State) (g : Group) : Bool :=
  (s.core g.core).freeze.attached && s.frozen g && (s.unitOf g).kindCode != 0

/-- A core after a turn: SEQCLK, BUBBLES, windows, wakes, the freeze (R46, R389, R402 to R404); in a new clock the schedulers
have issued nothing. -/
def State.coreAfter (s : State) (t : Turn) (k : Nat) (c : Core) : Core :=
  let n := t.clkOn k
  let attached := s.groups.any fun g => g.2.core = k && s.attachedAt g.2
  { c with clk := c.clk + BitVec.ofNat 64 (n - t.clk), swapAt := c.swapAt.map fun x => x + n,
           issued := if n = 0 then c.issued else [],
           cur := { c.cur with
             clks := c.cur.clks + n,
             bubbles := if s.bubbling k then BitVec.ofNat 32 (min (c.cur.bubbles.toNat + n) (2 ^ 32 - 1)) else c.cur.bubbles },
           isl := s.islandsAfter k n t.ns c.isl,
           freeze := if c.freeze.frozen && !attached then { c.freeze with since := c.freeze.since + t.ns } else c.freeze }

/-- R300, R389: a draw runs while a group of it is resident and none is attached. -/
def State.drawRuns (s : State) (id : Nat) : Bool :=
  let l := s.groups.filter fun g => (s.unitOf g.2).parent = some id
  l.any (fun g => g.2.state == .running || g.2.state == .tiles || g.2.state == .stopping) &&
    !l.any fun g => s.attachedAt g.2

/-- R131: a group's TWLD that waits for a bank in its window. -/
def State.holdsWindow (s : State) (gid : Nat) : Bool :=
  s.ops.any fun x => x.group = gid && x.kind == .twld && !x.done && x.opens.any fun p => s.turning p.loc

/-- The torus after a turn's network clocks: what has been performed is answered, what waits at the ports passes where it
may, and packets move on (R320 to R322, R325). -/
def State.netAfter (s : State) (n : Nat) : State :=
  if n = 0 then s
  else
    let s := s.answers
    let s := s.buckets.foldl (fun s b => s.injectHeld b.1 b.2.held.length) s
    { s with net := { s.net.run n with clks := s.net.clks + n } }

/-- What the passing of a turn's time counts, beside device time. -/
def State.elapse (s : State) (t : Turn) : State :=
  let s := s.netAfter t.net
  let more := dedup (t.more.map fun e => e.1)
  let s := more.foldl (fun s k => if k < 512 then s.modCore k id else s) s
  { s with
    clk := s.clk + BitVec.ofNat 64 t.clk,
    waves := s.waves.map fun (w : Nat × Wave) => (w.1, s.waveAfter t w.1 w.2),
    cores := s.cores.map fun (c : Nat × Core) => (c.1, s.coreAfter t c.1 c.2),
    groups := s.groups.map fun (g : Nat × Group) =>
      if s.holdsWindow g.1 then (g.1, { g.2 with window := BitVec.ofNat 32 (min (g.2.window.toNat + t.clkOn g.2.core) (2 ^ 32 - 1)) }) else g,
    units := s.units.map fun (u : Nat × WorkUnit) =>
      if u.2.kind == .draw && s.drawRuns u.1 then (u.1, { u.2 with time := u.2.time + t.ns }) else u,
    clusters := s.clusters.map fun (c : Nat × Cluster) =>
      (c.1, { c.2 with dvfs := { c.2.dvfs with left := c.2.dvfs.left - t.ns } }),
    heat := { s.heat with trips := s.heat.trips.map fun (x : Trip) => { x with dwell := x.dwell + t.ns } } }

/-- Device time moves on by some ns, and wraps (R222). -/
def State.passTime (s : State) (ns : Nat) : State :=
  let n := s.time.toNat + ns
  let s := { s with time := BitVec.ofNat 48 n }
  if n < 2 ^ 48 then s else s.wrapTimes

/-! ### From outside the device -/

/-- A change of memory outside the device, an error of a location (R2), a line that leaves L2, or what the host reads and
programs over CXL.io (R349, R351). -/
def State.outside (s : State) : Ext → State
  | .host a d => { s with mem := { s.mem with host := s.mem.host.store a d } }
  | .peer k a d =>
    let s := s.settleFixed (.peer k a) d.length
    { s with mem := { s.mem with peer := s.mem.peer.put k (((s.mem.peer.get k).getD []).store a d) } }
  | .flash a d => { s with mem := { s.mem with flash := s.mem.flash.store a d } }
  | .badAcc g k => s.modGroup g fun h => { h with accErr := if h.accErr.contains k then h.accErr else h.accErr ++ [k] }
  | .badTacc g k => s.modGroup g fun h => { h with taccErr := if h.taccErr.contains k then h.taccErr else h.taccErr ++ [k] }
  | .l2 line => if !s.heat.powered || s.lineStays line then s else s.dropSliceLine (128 * line)
  | .hdm k base size => s.setDecoder k base size
  | .bar0 off len => s.readBar0 off len
  | .bar2 off len => s.readBar2 off len
  | .cdat e => s.readCdat e
  | .bad l => { s with mem := { s.mem with bad := if s.mem.bad.contains l then s.mem.bad else s.mem.bad ++ [l] } }

/-- A core's L1 gives up what it holds beyond its capacity; the private sectors that go are written back, as requests of the
class of the core's first group (log entry 69). -/
def State.trimCore (s : State) (k : Nat) : State :=
  let t := s.trimL1 k
  let cls := ((s.groups.find? fun g => g.2.core = k).map fun g => (s.unitOf g.2).netClass).getD 0
  t.backAsks k cls ((s.core k).l1.filter fun e => ((t.core k).l1.get e.1).isNone)

/-- R16: caches give up what they hold beyond their capacity. -/
def State.trim (s : State) : State :=
  if s.heat.powered then (s.cores.map fun c => c.1).foldl State.trimCore s.trimL2 else s

/-- What a turn brings before anyone moves. -/
def State.begins (s : State) (t : Turn) : State :=
  (t.ext.foldl State.outside ((s.elapse t).passTime t.ns).trim).romTurn

/-! ### Who may issue (R249, R279, R292, R373, R389, R402) -/

/-- An instruction that its part takes up again at a turn of its own. -/
def Hold.again : Hold → Bool
  | .instr (.tlbinvAll _) => true
  | .instr (.tlbinvAsid _) => true
  | .instr (.tlbinvPage _) => true
  | .instr (.haltSave _) => true
  | .instr (.haltReset _) => true
  | .instr (.haltDevice _) => true
  | _ => false

/-- Whether the device runs at all. -/
def State.alive (s : State) : Bool := s.heat.powered && !s.boot.fatal

/-- R258, R262: a knit of the part's wave is to fuse, or has timed out, and does so before anything of the wave issues. In
replay the log says when it fuses (R395). -/
def State.knitDue (s : State) (o : Who) : Bool :=
  o.u.mode != 3 && o.w.eps.any fun e => e.here o.w && (e.meets o.w || e.timer = 0 && !s.reserveOut o.pr.wave)

/-- A part of the active set that nothing keeps from issuing, but for its island. A window of the planisher that has ended
comes first (R404). -/
def State.competes (s : State) (o : Who) : Bool :=
  s.alive && o.p.status == .resident && o.p.front && o.g.state == .running && !o.u.cancel &&
  (s.core o.g.core).cur.clks < 64 && !(!o.u.ctl && (s.ctx o.u.ctx).resets) && !s.frozen o.g && !s.knitDue o &&
  (o.p.hold == .no || o.p.hold == .retry || o.p.hold.again)

/-- R402: the part's island is asleep or wakes. -/
def State.asleep (s : State) (o : Who) : Bool := (s.core o.g.core).isl.low.getLsbD o.w.sched

/-! ### Reading the instruction (R24 to R28, R33, R52) -/

/-- R290: the fault of an input tile waits for wave 0's first instruction. -/
def State.tileFault (s : State) (o : Who) : Option (State × TrapInfo) :=
  if o.w.index != 0 then none
  else
    match o.g.tileF with
    | [] => none
    | t :: r => some (s.modGroup o.w.group fun g => { g with tileF := r }, { t with pc := o.p.pc })

/-- The slot of the part's PC in the copy of the line that it holds. -/
def Part.slotBits (p : Part) : Option Slot :=
  match p.line, slotOf p.pc with
  | some l, some i => if l.base = lineBase p.pc then some (lineSlot l.bits i) else none
  | _, _ => none

/-- What a part that may issue comes to: an instruction, or a state in which it does not issue. -/
inductive Ready where
  | run (s : State) (i : Instr)
  | stop (s : State)

/-- The instruction in the line that the part has entered. -/
def State.readSlot (s : State) (o : Who) : Ready :=
  match o.p.slotBits with
  | none => .stop s
  | some w =>
    match decode w with
    | .ok i => .run s i
    | .error _ => .stop (s.takeTrap o.pr (TrapInfo.ofSlot codeIllegal o.p.pc w))

/-- The part enters the line of its PC where it has not, and its instruction is read. -/
def State.readInstr (s : State) (o : Who) : Ready :=
  if o.p.slotBits.isSome then s.readSlot o
  else
    match s.enterLine o with
    | s =>
      match s.who o.pr with
      | some o => if o.p.status == .resident && o.p.hold == .no then s.readSlot o else .stop s
      | none => .stop s

/-- THE ISSUE TURN OF A PART. The turn of one that waits for a line of odd parity is that line's arrival. -/
def State.readyFor (s : State) (pr : PartRef) : Ready :=
  let s := { s with cur := pr }
  match s.who pr with
  | none => .stop s
  | some o =>
    if s.alive && o.p.hold == .refetch then .stop (s.refetch o)
    else if !s.competes o then .stop s
    else if s.asleep o then .stop (s.stallFor pr 28)
    else
      match o.p.hold with
      | .instr i => .run s i
      | _ =>
        match s.tileFault o with
        | some (s, t) => .stop (s.takeTrap pr t)
        | none => s.readInstr o

/-! ### The turn that is taken when none is listed (log entry 1) -/

/-- The events that carry an operation on. -/
def State.opActs (s : State) (x : Op) : List Instr :=
  match x.kind with
  | .done => []
  | .load => [.loadComplete x.id []]
  | .store => [.storePerformed x.id []]
  | .ldw => [.ldwComplete x.id []]
  | .prefetch => [.prefetchPlaced x.id false]
  | .maintain => []
  | .atom => [.atomicStep x.id []]
  | .red => [.atomicStep x.id []]
  | .copy => [.copyWritePerformed x.id [], .copyComplete x.id]
  | .wsWrite => [.wswriteComplete x.id]
  | .mcst => State.opActs.deliver s x
  | .mred => State.opActs.deliver s x
  | .mma => [.fmuOperandsConsumed x.id [], .fmuOpComplete x.id []]
  | .mmas => [.fmuOperandsConsumed x.id [], .fmuOpComplete x.id []]
  | .mdrain => [.fmuOpComplete x.id []]
  | .twld => [.taOperandsConsumed x.id [], .taOpStart x.id, .twldComplete x.id]
  | .tmac => [.taOperandsConsumed x.id [], .taOpStart x.id, .tmacComplete x.id]
  | .tdrain => [.taOperandsConsumed x.id [], .taOpStart x.id, .tdrainComplete x.id []]
  | .tzero => [.taOpStart x.id, .tzeroComplete x.id]
  | .sample => [.samplerComplete x.id []]
  | .emit => [.rasterAccept x.id]
  | .trace => [.rtraceComplete x.id []]
  | .image => [.imgstComplete x.id []]
where
  /-- The delivery of the first open piece, by lane and member. -/
  deliver (s : State) (x : Op) : List Instr :=
    match x.opens.head? with
    | some p => [.mcstDeliveryPerformed x.id (256 * p.lane + p.peer?.getD s.link.devid.toNat) false]
    | none => []

/-- What carries a part on. -/
def partActs (pr : PartRef) (p : Part) : List Act :=
  match p.hold with
  | .no => [.issue pr]
  | .retry => [.issue pr]
  | .lineMask => [.event (.lineWaitRelease pr)]
  | .refetch => [.issue pr]
  | .spill _ => [.event (.stackSpillDone pr)]
  | .nap => []
  | .joined => [.event (.knitFuse pr.wave p.pc), .event (.knitTimeout pr.wave p.pc), .event (.implicitKnitFuse pr.wave p.pc),
      .event (.implicitKnitTimeout pr.wave p.pc)]
  | .width _ => [.event (.implicitKnitFuse pr.wave p.pc), .event (.implicitKnitTimeout pr.wave p.pc)]
  | .instr i =>
    match i with
    | .waitn _ => [.event (.waitnRelease pr)]
    | .knit _ => [.event (.knitFuse pr.wave p.pc), .event (.knitTimeout pr.wave p.pc)]
    | .exit _ => [.event (.lastExitResume pr)]
    | .sleep _ => [.event (.sleepExpiry pr)]
    | .fence _ => [.event (.fenceWaitDone pr)]
    | .fencex _ => [.event (.fencexWaitDone pr)]
    | .monw _ => [.event (.monwWake pr)]
    | .macq _ => [.event (.macqGrant pr)]
    | .mwait _ => [.event (.mwaitRelease pr)]
    | .xshuf _ => []
    | .tileq _ => [.event (.tileRecordHandout pr 0)]
    | .bwait _ => [.event (.bwaitPass pr)]
    | .qpush _ => [.event (.qpushResume pr)]
    | .qpop _ => [.event (.qpopResume pr)]
    | .ccwait _ => [.event (.ccwaitWake pr)]
    | .rosb _ => [.event (.rosbAdmit pr)]
    | _ => [.issue pr]

/-- What carries the parts on. -/
def State.allPartActs (s : State) : List Act :=
  s.waves.flatMap fun w => w.2.parts.flatMap fun p =>
    let pr : PartRef := { wave := w.1, part := p.1 }
    if p.2.status == .resident then partActs pr p.2 else if p.2.status == .ready then [.event (.partRestore pr)] else []

/-- What carries a group on. -/
def groupActs (id : Nat) (g : Group) : List Act :=
  if g.heldGo && g.state == .running then [.event (.preempt id), .event (.groupEnd id)] else
  match g.state with
  | .tiles => [.event (.waveDispatch id)]
  | .stopping => [.event (.preempt id)]
  | .saved => [.event (.groupRestore id g.core), .event (.groupEnd id)]
  | _ => [.event (.groupEnd id)]

/-- What carries a unit on. -/
def State.unitActs (s : State) (id : Nat) (u : WorkUnit) : List Act :=
  let e := fun (i : Instr) => [Act.event i]
  (match u.state with
   | .waiting => e (.unitLeaveWaiting id) ++ e (.phaseStart id)
   | .checking => e (.unitChecking id)
   | .running =>
     match u.kind with
     | .graph => (List.range u.lists.length).map fun k => Act.event (.graphNodeStart id k)
     | .launch =>
       if u.stage = 0 then e (.weightStage id)
       else if u.next < u.grid then
         match (List.range 512).find? fun k => (s.qualifies id u k u.nwaves).isSome with
         | some k => e (.groupDispatch id k)
         | none => []
       else if u.stage = 2 then e (.gbarComplete id) else []
     | _ => []
   | .ended _ => []) ++ e (.unitEnd id)

/-- What carries a scheduler, a context or the network on. -/
def State.otherActs (s : State) : List Act :=
  let sets := dedup ((s.waves.flatMap fun w => match s.groups.get w.2.group with
    | some g => [(g.core, w.2.sched)]
    | none => []))
  let shufs := (s.waves.filter fun w => w.2.parts.any fun p => match p.2.hold with | .instr (.xshuf _) => true | _ => false).map
    fun w => w.1
  sets.map (fun e => Act.event (.partSwap e.1 e.2)) ++
  shufs.flatMap (fun a => (shufs.filter fun b => a < b).map fun b => Act.event (.xshufMatch a b)) ++
  s.cores.flatMap (fun c => if c.2.cur.clks < 64 then [] else [Act.event (.planisherWindow c.1)]) ++
  s.ctxs.flatMap (fun c =>
    (if c.2.intake.isEmpty then [] else [Act.event (.jobIntake c.1)]) ++
    (if c.2.resets then [Act.event (.contextReset c.1)] else [])) ++
  if s.net.clks < 1024 then [] else [Act.event .bucketWindow]

/-- Everything that the device may do next by itself, but for what only turns bring (log entry 1). -/
def State.ownActs (s : State) : List Act :=
  (s.ops.filter fun x => !x.done).flatMap (fun x => (s.opActs x).map Act.event) ++ s.allPartActs ++
    s.groups.flatMap (fun g => groupActs g.1 g.2) ++ s.units.flatMap (fun u => s.unitActs u.1 u.2) ++ s.otherActs

/-- The device goes round what it may do next, one ns and one clock at a time. -/
def State.ownTurn (s : State) : Turn :=
  let l := s.ownActs
  { ns := 1, net := 1, clk := 1, more := [], ext := [], act := l.getD (s.time.toNat % max 1 l.length) (.issue s.cur) }

/-- The next turn, and the state without it. -/
def State.nextTurn (s : State) : Turn × State :=
  match s.turns with
  | t :: r => (t, { s with turns := r })
  | [] => (s.ownTurn, s)

/-! ### Events -/

/-- An event of the table, no instruction of a program. -/
def isEvent (i : Instr) : Bool := i.opc = 0xFF

/-- Resets go on without power or after a fatal error (R407, R409); nothing else does. -/
def isReset : Instr → Bool
  | .coldReset _ => true
  | .warmResetHost _ => true
  | .warmResetFatal _ => true
  | .trip4PowerOff => true
  | _ => false

/-- Whether an event may happen. -/
def State.mayHappen (s : State) (i : Instr) : Bool := isEvent i && (s.alive || isReset i)

/-- R262: the part that an implicit knit is to let issue, named before the event. -/
def State.knitLeader (s : State) : Instr → Option PartRef
  | .implicitKnitFuse wave pc => (s.episodeAt wave pc true).map fun e => { wave := wave, part := e.2.parts.foldl min 16 }
  | _ => none

/-- After the event: whether that part has fused and may issue now. -/
def State.knitted (s : State) (i : Instr) (pr : PartRef) : Bool :=
  match i with
  | .implicitKnitFuse wave pc => (s.episodeAt wave pc true).isNone &&
      (match s.who pr with | some o => o.p.pc = pc && o.p.hold == .no && o.p.status == .resident | none => false)
  | _ => false

end Sys2Proof.Machine
end

