-- ==== Sys2Proof/Machine/Dispatch.lean ====
section
/-! DEFINITION. One arm for each constructor: an instruction executes for the part that `State.cur` names, an event
happens. -/

namespace Sys2Proof.Machine

open Sys2Proof

def exec (i : Instr) (s : State) : Host.Outcome State Fault Refusal :=
  match i with
  | .nop x => Sys2Proof.Machine.execNop x s
  | .mov x => Sys2Proof.Machine.execMov x s
  | .movi x => Sys2Proof.Machine.execMovi x s
  | .sel x => Sys2Proof.Machine.execSel x s
  | .iadd x => Sys2Proof.Machine.execIadd x s
  | .isub x => Sys2Proof.Machine.execIsub x s
  | .imul x => Sys2Proof.Machine.execImul x s
  | .imulh x => Sys2Proof.Machine.execImulh x s
  | .imad x => Sys2Proof.Machine.execImad x s
  | .imin x => Sys2Proof.Machine.execImin x s
  | .imax x => Sys2Proof.Machine.execImax x s
  | .iabs x => Sys2Proof.Machine.execIabs x s
  | .and x => Sys2Proof.Machine.execAnd x s
  | .or x => Sys2Proof.Machine.execOr x s
  | .xor x => Sys2Proof.Machine.execXor x s
  | .not x => Sys2Proof.Machine.execNot x s
  | .shl x => Sys2Proof.Machine.execShl x s
  | .shr x => Sys2Proof.Machine.execShr x s
  | .rot x => Sys2Proof.Machine.execRot x s
  | .bfx x => Sys2Proof.Machine.execBfx x s
  | .bfi x => Sys2Proof.Machine.execBfi x s
  | .popc x => Sys2Proof.Machine.execPopc x s
  | .clz x => Sys2Proof.Machine.execClz x s
  | .brev x => Sys2Proof.Machine.execBrev x s
  | .icmp x => Sys2Proof.Machine.execIcmp x s
  | .addc x => Sys2Proof.Machine.execAddc x s
  | .lea x => Sys2Proof.Machine.execLea x s
  | .iadd3 x => Sys2Proof.Machine.execIadd3 x s
  | .sati x => Sys2Proof.Machine.execSati x s
  | .fadd x => Sys2Proof.Machine.execFadd x s
  | .fsub x => Sys2Proof.Machine.execFsub x s
  | .fmul x => Sys2Proof.Machine.execFmul x s
  | .ffma x => Sys2Proof.Machine.execFfma x s
  | .fmin x => Sys2Proof.Machine.execFmin x s
  | .fmax x => Sys2Proof.Machine.execFmax x s
  | .fcmp x => Sys2Proof.Machine.execFcmp x s
  | .fclass x => Sys2Proof.Machine.execFclass x s
  | .frnd x => Sys2Proof.Machine.execFrnd x s
  | .fcvt x => Sys2Proof.Machine.execFcvt x s
  | .ftoi x => Sys2Proof.Machine.execFtoi x s
  | .itof x => Sys2Proof.Machine.execItof x s
  | .exp2 x => Sys2Proof.Machine.execExp2 x s
  | .log2 x => Sys2Proof.Machine.execLog2 x s
  | .rcp x => Sys2Proof.Machine.execRcp x s
  | .rsq x => Sys2Proof.Machine.execRsq x s
  | .sqrt x => Sys2Proof.Machine.execSqrt x s
  | .sin x => Sys2Proof.Machine.execSin x s
  | .cos x => Sys2Proof.Machine.execCos x s
  | .fdot2 x => Sys2Proof.Machine.execFdot2 x s
  | .fpk2 x => Sys2Proof.Machine.execFpk2 x s
  | .fscale x => Sys2Proof.Machine.execFscale x s
  | .fmed3 x => Sys2Proof.Machine.execFmed3 x s
  | .ffrac x => Sys2Proof.Machine.execFfrac x s
  | .hfma2 x => Sys2Proof.Machine.execHfma2 x s
  | .hadd2 x => Sys2Proof.Machine.execHadd2 x s
  | .hmul2 x => Sys2Proof.Machine.execHmul2 x s
  | .qdot4 x => Sys2Proof.Machine.execQdot4 x s
  | .qswz x => Sys2Proof.Machine.execQswz x s
  | .ballot x => Sys2Proof.Machine.execBallot x s
  | .vote x => Sys2Proof.Machine.execVote x s
  | .shfl x => Sys2Proof.Machine.execShfl x s
  | .bcast x => Sys2Proof.Machine.execBcast x s
  | .redux x => Sys2Proof.Machine.execRedux x s
  | .scanx x => Sys2Proof.Machine.execScanx x s
  | .match x => Sys2Proof.Machine.execMatch x s
  | .readlane x => Sys2Proof.Machine.execReadlane x s
  | .writelane x => Sys2Proof.Machine.execWritelane x s
  | .xshuf x => Sys2Proof.Machine.execXshuf x s
  | .xshufMatch a b => Sys2Proof.Machine.stepXshufMatch a b s
  | .xshufTimeout p => Sys2Proof.Machine.stepXshufTimeout p s
  | .br x => Sys2Proof.Machine.execBr x s
  | .brc x => Sys2Proof.Machine.execBrc x s
  | .stackSpillDone p => Sys2Proof.Machine.stepStackSpillDone p s
  | .brx x => Sys2Proof.Machine.execBrx x s
  | .call x => Sys2Proof.Machine.execCall x s
  | .ret x => Sys2Proof.Machine.execRet x s
  | .knit x => Sys2Proof.Machine.execKnit x s
  | .knitFuse wave pc => Sys2Proof.Machine.stepKnitFuse wave pc s
  | .knitTimeout wave pc => Sys2Proof.Machine.stepKnitTimeout wave pc s
  | .implicitKnitFuse wave pc => Sys2Proof.Machine.stepImplicitKnitFuse wave pc s
  | .implicitKnitTimeout wave pc => Sys2Proof.Machine.stepImplicitKnitTimeout wave pc s
  | .cutctl x => Sys2Proof.Machine.execCutctl x s
  | .rep x => Sys2Proof.Machine.execRep x s
  | .lpin x => Sys2Proof.Machine.execLpin x s
  | .exit x => Sys2Proof.Machine.execExit x s
  | .lastExitResume p => Sys2Proof.Machine.stepLastExitResume p s
  | .waitn x => Sys2Proof.Machine.execWaitn x s
  | .waitnRelease p => Sys2Proof.Machine.stepWaitnRelease p s
  | .missCut p => Sys2Proof.Machine.stepMissCut p s
  | .lineWaitRelease p => Sys2Proof.Machine.stepLineWaitRelease p s
  | .lineRefetch p => Sys2Proof.Machine.stepLineRefetch p s
  | .yield x => Sys2Proof.Machine.execYield x s
  | .setfmt x => Sys2Proof.Machine.execSetfmt x s
  | .getst x => Sys2Proof.Machine.execGetst x s
  | .sleep x => Sys2Proof.Machine.execSleep x s
  | .sleepExpiry p => Sys2Proof.Machine.stepSleepExpiry p s
  | .ld x => Sys2Proof.Machine.execLd x s
  | .st x => Sys2Proof.Machine.execSt x s
  | .lds x => Sys2Proof.Machine.execLds x s
  | .ldx x => Sys2Proof.Machine.execLdx x s
  | .stx x => Sys2Proof.Machine.execStx x s
  | .ldw x => Sys2Proof.Machine.execLdw x s
  | .prf x => Sys2Proof.Machine.execPrf x s
  | .invl x => Sys2Proof.Machine.execInvl x s
  | .invlAll x => Sys2Proof.Machine.execInvlAll x s
  | .wbl x => Sys2Proof.Machine.execWbl x s
  | .wblAll x => Sys2Proof.Machine.execWblAll x s
  | .fence x => Sys2Proof.Machine.execFence x s
  | .fenceWaitDone p => Sys2Proof.Machine.stepFenceWaitDone p s
  | .fencex x => Sys2Proof.Machine.execFencex x s
  | .fencexWaitDone p => Sys2Proof.Machine.stepFencexWaitDone p s
  | .monw x => Sys2Proof.Machine.execMonw x s
  | .monwWake p => Sys2Proof.Machine.stepMonwWake p s
  | .monwPollExpiry p => Sys2Proof.Machine.stepMonwPollExpiry p s
  | .atom x => Sys2Proof.Machine.execAtom x s
  | .atomc x => Sys2Proof.Machine.execAtomc x s
  | .red x => Sys2Proof.Machine.execRed x s
  | .atomicStep op sel => Sys2Proof.Machine.stepAtomicStep op sel s
  | .fixedOrderResolve sector => Sys2Proof.Machine.stepFixedOrderResolve sector s
  | .bcopy x => Sys2Proof.Machine.execBcopy x s
  | .gcopy x => Sys2Proof.Machine.execGcopy x s
  | .scopy x => Sys2Proof.Machine.execScopy x s
  | .copyWritePerformed op sel => Sys2Proof.Machine.stepCopyWritePerformed op sel s
  | .copyComplete op => Sys2Proof.Machine.stepCopyComplete op s
  | .wswrite x => Sys2Proof.Machine.execWswrite x s
  | .wswriteComplete op => Sys2Proof.Machine.stepWswriteComplete op s
  | .wswin x => Sys2Proof.Machine.execWswin x s
  | .wsWindowEnd die bank => Sys2Proof.Machine.stepWsWindowEnd die bank s
  | .cpoll x => Sys2Proof.Machine.execCpoll x s
  | .mcst x => Sys2Proof.Machine.execMcst x s
  | .mred x => Sys2Proof.Machine.execMred x s
  | .mcstDeliveryPerformed op member lost => Sys2Proof.Machine.stepMcstDeliveryPerformed op member lost s
  | .macq x => Sys2Proof.Machine.execMacq x s
  | .macqGrant p => Sys2Proof.Machine.stepMacqGrant p s
  | .macqTimeout p => Sys2Proof.Machine.stepMacqTimeout p s
  | .mrel x => Sys2Proof.Machine.execMrel x s
  | .mma x => Sys2Proof.Machine.execMma x s
  | .mmas x => Sys2Proof.Machine.execMmas x s
  | .fmuOperandsConsumed op sel => Sys2Proof.Machine.stepFmuOperandsConsumed op sel s
  | .fmuOpComplete op sel => Sys2Proof.Machine.stepFmuOpComplete op sel s
  | .mfence x => Sys2Proof.Machine.execMfence x s
  | .mwait x => Sys2Proof.Machine.execMwait x s
  | .mwaitRelease p => Sys2Proof.Machine.stepMwaitRelease p s
  | .mrd x => Sys2Proof.Machine.execMrd x s
  | .mwr x => Sys2Proof.Machine.execMwr x s
  | .mdrain x => Sys2Proof.Machine.execMdrain x s
  | .twld x => Sys2Proof.Machine.execTwld x s
  | .tmac x => Sys2Proof.Machine.execTmac x s
  | .tdrain x => Sys2Proof.Machine.execTdrain x s
  | .tzero x => Sys2Proof.Machine.execTzero x s
  | .tzeroPlane x => Sys2Proof.Machine.execTzeroPlane x s
  | .taOperandsConsumed op sel => Sys2Proof.Machine.stepTaOperandsConsumed op sel s
  | .taOpStart op => Sys2Proof.Machine.stepTaOpStart op s
  | .twldComplete op => Sys2Proof.Machine.stepTwldComplete op s
  | .tmacComplete op => Sys2Proof.Machine.stepTmacComplete op s
  | .tdrainComplete op sel => Sys2Proof.Machine.stepTdrainComplete op sel s
  | .tzeroComplete op => Sys2Proof.Machine.stepTzeroComplete op s
  | .tpack x => Sys2Proof.Machine.execTpack x s
  | .tunpk x => Sys2Proof.Machine.execTunpk x s
  | .tqnt x => Sys2Proof.Machine.execTqnt x s
  | .tstat x => Sys2Proof.Machine.execTstat x s
  | .smp x => Sys2Proof.Machine.execSmp x s
  | .smpl x => Sys2Proof.Machine.execSmpl x s
  | .smpg x => Sys2Proof.Machine.execSmpg x s
  | .gath4 x => Sys2Proof.Machine.execGath4 x s
  | .txld x => Sys2Proof.Machine.execTxld x s
  | .ldec x => Sys2Proof.Machine.execLdec x s
  | .samplerComplete op sel => Sys2Proof.Machine.stepSamplerComplete op sel s
  | .edge x => Sys2Proof.Machine.execEdge x s
  | .tileq x => Sys2Proof.Machine.execTileq x s
  | .tileRecordHandout p pick => Sys2Proof.Machine.stepTileRecordHandout p pick s
  | .emit x => Sys2Proof.Machine.execEmit x s
  | .rasterAccept op => Sys2Proof.Machine.stepRasterAccept op s
  | .rtrace x => Sys2Proof.Machine.execRtrace x s
  | .rtraceComplete op sel => Sys2Proof.Machine.stepRtraceComplete op sel s
  | .rhit x => Sys2Proof.Machine.execRhit x s
  | .imgst x => Sys2Proof.Machine.execImgst x s
  | .imgstComplete op sel => Sys2Proof.Machine.stepImgstComplete op sel s
  | .rninv x => Sys2Proof.Machine.execRninv x s
  | .rninvAll x => Sys2Proof.Machine.execRninvAll x s
  | .bari x => Sys2Proof.Machine.execBari x s
  | .bariGroup x => Sys2Proof.Machine.execBariGroup x s
  | .arrive x => Sys2Proof.Machine.execArrive x s
  | .arrdrop x => Sys2Proof.Machine.execArrdrop x s
  | .bwait x => Sys2Proof.Machine.execBwait x s
  | .bwaitPass p => Sys2Proof.Machine.stepBwaitPass p s
  | .bexpect x => Sys2Proof.Machine.execBexpect x s
  | .qpush x => Sys2Proof.Machine.execQpush x s
  | .qpushResume p => Sys2Proof.Machine.stepQpushResume p s
  | .qpop x => Sys2Proof.Machine.execQpop x s
  | .qpopResume p => Sys2Proof.Machine.stepQpopResume p s
  | .qtry x => Sys2Proof.Machine.execQtry x s
  | .qallow x => Sys2Proof.Machine.execQallow x s
  | .qallowInit x => Sys2Proof.Machine.execQallowInit x s
  | .gbar x => Sys2Proof.Machine.execGbar x s
  | .gbarComplete launch => Sys2Proof.Machine.stepGbarComplete launch s
  | .launch x => Sys2Proof.Machine.execLaunch x s
  | .grun x => Sys2Proof.Machine.execGrun x s
  | .cancelHandle x => Sys2Proof.Machine.execCancelHandle x s
  | .cancelLaunch x => Sys2Proof.Machine.execCancelLaunch x s
  | .cancelPhase x => Sys2Proof.Machine.execCancelPhase x s
  | .cancelJob x => Sys2Proof.Machine.execCancelJob x s
  | .ccwait x => Sys2Proof.Machine.execCcwait x s
  | .ccwaitWake p => Sys2Proof.Machine.stepCcwaitWake p s
  | .ccwaitPollExpiry p => Sys2Proof.Machine.stepCcwaitPollExpiry p s
  | .rosb x => Sys2Proof.Machine.execRosb x s
  | .rosbAdmit p => Sys2Proof.Machine.stepRosbAdmit p s
  | .rose x => Sys2Proof.Machine.execRose x s
  | .trap x => Sys2Proof.Machine.execTrap x s
  | .brk x => Sys2Proof.Machine.execBrk x s
  | .rettReissue x => Sys2Proof.Machine.execRettReissue x s
  | .rettSkip x => Sys2Proof.Machine.execRettSkip x s
  | .rettPc x => Sys2Proof.Machine.execRettPc x s
  | .rettEnd x => Sys2Proof.Machine.execRettEnd x s
  | .rdsr x => Sys2Proof.Machine.execRdsr x s
  | .wrsr x => Sys2Proof.Machine.execWrsr x s
  | .bootctlReadyWrite => Sys2Proof.Machine.stepBootctlReadyWrite s
  | .tlbinvAll x => Sys2Proof.Machine.execTlbinvAll x s
  | .tlbinvAsid x => Sys2Proof.Machine.execTlbinvAsid x s
  | .tlbinvPage x => Sys2Proof.Machine.execTlbinvPage x s
  | .assayPut x => Sys2Proof.Machine.execAssayPut x s
  | .assayFrz x => Sys2Proof.Machine.execAssayFrz x s
  | .assayRun x => Sys2Proof.Machine.execAssayRun x s
  | .mark x => Sys2Proof.Machine.execMark x s
  | .logctl x => Sys2Proof.Machine.execLogctl x s
  | .seqrdTime x => Sys2Proof.Machine.execSeqrdTime x s
  | .seqrdDseq x => Sys2Proof.Machine.execSeqrdDseq x s
  | .seqrdOrd x => Sys2Proof.Machine.execSeqrdOrd x s
  | .dvreq x => Sys2Proof.Machine.execDvreq x s
  | .haltSave x => Sys2Proof.Machine.execHaltSave x s
  | .haltGo x => Sys2Proof.Machine.execHaltGo x s
  | .haltReset x => Sys2Proof.Machine.execHaltReset x s
  | .haltDevice x => Sys2Proof.Machine.execHaltDevice x s
  | .contextReset ctx => Sys2Proof.Machine.stepContextReset ctx s
  | .loadComplete op sel => Sys2Proof.Machine.stepLoadComplete op sel s
  | .storePerformed op sel => Sys2Proof.Machine.stepStorePerformed op sel s
  | .ldwComplete op sel => Sys2Proof.Machine.stepLdwComplete op sel s
  | .prefetchPlaced op drop => Sys2Proof.Machine.stepPrefetchPlaced op drop s
  | .l1Evict core sector => Sys2Proof.Machine.stepL1Evict core sector s
  | .pageWalk core asid va => Sys2Proof.Machine.stepPageWalk core asid va s
  | .fltdoneWrite id => Sys2Proof.Machine.stepFltdoneWrite id s
  | .partRestore p => Sys2Proof.Machine.stepPartRestore p s
  | .faultBufferDrain cluster => Sys2Proof.Machine.stepFaultBufferDrain cluster s
  | .trapBufferDrain cluster => Sys2Proof.Machine.stepTrapBufferDrain cluster s
  | .jobaddrWrite ctx addr size => Sys2Proof.Machine.stepJobaddrWrite ctx addr size s
  | .jobIntake ctx => Sys2Proof.Machine.stepJobIntake ctx s
  | .unitLeaveWaiting unit => Sys2Proof.Machine.stepUnitLeaveWaiting unit s
  | .unitChecking unit => Sys2Proof.Machine.stepUnitChecking unit s
  | .phaseStart unit => Sys2Proof.Machine.stepPhaseStart unit s
  | .graphNodeStart unit node => Sys2Proof.Machine.stepGraphNodeStart unit node s
  | .weightStage unit => Sys2Proof.Machine.stepWeightStage unit s
  | .groupDispatch unit core => Sys2Proof.Machine.stepGroupDispatch unit core s
  | .waveDispatch group => Sys2Proof.Machine.stepWaveDispatch group s
  | .groupEnd group => Sys2Proof.Machine.stepGroupEnd group s
  | .unitEnd unit => Sys2Proof.Machine.stepUnitEnd unit s
  | .partSwap core sched => Sys2Proof.Machine.stepPartSwap core sched s
  | .forcedSwap core sched => Sys2Proof.Machine.stepForcedSwap core sched s
  | .preempt group => Sys2Proof.Machine.stepPreempt group s
  | .groupRestore group core => Sys2Proof.Machine.stepGroupRestore group core s
  | .drawWatchdog unit => Sys2Proof.Machine.stepDrawWatchdog unit s
  | .freezeAttach core => Sys2Proof.Machine.stepFreezeAttach core s
  | .freezeRelease core => Sys2Proof.Machine.stepFreezeRelease core s
  | .freezeLimitExpiry core => Sys2Proof.Machine.stepFreezeLimitExpiry core s
  | .bpBroadcastWrite n j value => Sys2Proof.Machine.stepBpBroadcastWrite n j value s
  | .hpctlWrite value => Sys2Proof.Machine.stepHpctlWrite value s
  | .profileSample core sched => Sys2Proof.Machine.stepProfileSample core sched s
  | .bucketWindow => Sys2Proof.Machine.stepBucketWindow s
  | .qbktWrite port cls value => Sys2Proof.Machine.stepQbktWrite port cls value s
  | .requestInject port cls => Sys2Proof.Machine.stepRequestInject port cls s
  | .hostMemRequest addr len data => Sys2Proof.Machine.stepHostMemRequest addr len data s
  | .backInvalidate line data => Sys2Proof.Machine.stepBackInvalidate line data s
  | .domainRequestIn r => Sys2Proof.Machine.stepDomainRequestIn r s
  | .fabricLossResponse t => Sys2Proof.Machine.stepFabricLossResponse t s
  | .fabricTimeout t => Sys2Proof.Machine.stepFabricTimeout t s
  | .collOpen g => Sys2Proof.Machine.stepCollOpen g s
  | .collClose g => Sys2Proof.Machine.stepCollClose g s
  | .collDeliveryIn g r => Sys2Proof.Machine.stepCollDeliveryIn g r s
  | .rstreqWrite value boot => Sys2Proof.Machine.stepRstreqWrite value boot s
  | .coldReset boot => Sys2Proof.Machine.stepColdReset boot s
  | .warmResetHost boot => Sys2Proof.Machine.stepWarmResetHost boot s
  | .warmResetFatal boot => Sys2Proof.Machine.stepWarmResetFatal boot s
  | .planisherWindow core => Sys2Proof.Machine.stepPlanisherWindow core s
  | .lowRailWindow core sched memWaits occupancy => Sys2Proof.Machine.stepLowRailWindow core sched memWaits occupancy s
  | .lowRailWake core sched => Sys2Proof.Machine.stepLowRailWake core sched s
  | .lowRailWakeDone core sched => Sys2Proof.Machine.stepLowRailWakeDone core sched s
  | .dvfsRampEnd cluster => Sys2Proof.Machine.stepDvfsRampEnd cluster s
  | .thermalSample r => Sys2Proof.Machine.stepThermalSample r s
  | .tripChange level => Sys2Proof.Machine.stepTripChange level s
  | .trip4PowerOff => Sys2Proof.Machine.stepTrip4PowerOff s
  | .deviceTimeWrap => Sys2Proof.Machine.stepDeviceTimeWrap s
  | .registerWrite off value => Sys2Proof.Machine.stepRegisterWrite off value s
  | .spdmRequest nonce => Sys2Proof.Machine.stepSpdmRequest nonce s
  | .configRequest addr write => Sys2Proof.Machine.stepConfigRequest addr write s

end Sys2Proof.Machine
end

