-- ==== Sys2Proof/Machine/Schedule.lean ====
section
/-! DEFINITION. The schedulers' choice in each clock: the first instruction (R294, R274), the second of the same part
(R29) or of a partner (R250, R404), the stall reasons that parts report (R382), and who moves in a turn (log entry 1). -/

namespace Sys2Proof.Machine

open Sys2Proof

/-! ### What a part would do -/

/-- What a scheduler of a core has issued in the running clock. -/
def State.issuedOn (s : State) (core sched : Nat) : List Issued := ((s.core core).issued.get sched).getD []

/-- What the step from `s` to `t` has issued for a part on its scheduler. -/
def State.newIssue (s t : State) (o : Who) : Option Issued :=
  if (t.issuedOn o.g.core o.w.sched).length ≤ (s.issuedOn o.g.core o.w.sched).length then none
  else (t.issuedOn o.g.core o.w.sched).getLast?

/-- The instruction that a part would issue in this clock, were it chosen; none where it is not ready. -/
def State.wouldIssue (s : State) (pr : PartRef) : Option Issued :=
  match s.who pr with
  | none => none
  | some o =>
    match s.readyFor pr with
    | .stop _ => none
    | .run t i =>
      match exec i t with
      | .next u => t.newIssue u o
      | _ => none

/-! ### The first instruction of a clock (R274, R294) -/

/-- The order among parts of a scheduler: the age of the wave, then the slot. -/
def State.ageRank (s : State) (x : PartRef × Part) : Nat :=
  ((s.waves.get x.1.wave).map fun w => w.age).getD 0 * 64 + x.2.slot

/-- R294, R274: the order of choice: parts that have not issued for 64 clocks, then the others, then those that YIELD has
placed last; among equals the oldest. -/
def State.choiceRank (s : State) (x : PartRef × Part) : Nat :=
  (if x.2.last then 2 else if 64 ≤ x.2.idle then 0 else 1) * 2 ^ 80 + s.ageRank x

/-- Whether another ready part of the active set is chosen before a part; in the clock after its YIELD, whether any other
part of the scheduler is ready (R274). -/
def State.outranked (s : State) (o : Who) : Bool :=
  (s.slotted o.g.core o.w.sched).any fun x =>
    x.1 != o.pr &&
    (if x.2.front then (s.choiceRank x).blt (s.choiceRank (o.pr, o.p)) && (s.wouldIssue x.1).isSome
     else o.p.last && o.p.idle ≤ 1 && ((s.modPart x.1 fun p => { p with front := true }).wouldIssue x.1).isSome)

/-! ### The second instruction of a clock (R29, R250, R404) -/

/-- R29: the pipe that an opcode uses. -/
def pipeOf (opc : Nat) : Nat :=
  if opc ≤ 0x1C then 0
  else if 0x2C ≤ opc && opc ≤ 0x32 then 2
  else if opc ≤ 0x3B then 1
  else if opc ≤ 0x4A then 3
  else if opc ≤ 0x5E then 4
  else if opc ≤ 0x77 then 5
  else if opc ≤ 0x97 then 6
  else if opc ≤ 0xAC then 7
  else 8

/-- Two runs of registers share one. -/
def RegUse.meets (a b : RegUse) : Bool := a.cls = b.cls && a.num < b.num + b.len && b.num < a.num + a.len

/-- FMT, as SETFMT writes it and the floating-point, transcendental, cross-lane, matrix and graphics instructions read it
(R72). -/
def fmtUse (i : Instr) : List RegUse :=
  let use := fun (w : Bool) => ({ cls := 4, num := 0, len := 1, write := w } : RegUse)
  if i.opc = 0x5C then [use true]
  else if (0x20 ≤ i.opc && i.opc ≤ 0x4A) || (0x80 ≤ i.opc && i.opc ≤ 0xAC) then [use false] else []

/-- What an instruction reads and writes, its predicate and FMT among them; constants, literals and special registers are no
registers of the part, and P7 is never written. -/
def touches (i : Instr) : List RegUse :=
  (({ cls := 2, num := (headOf i).pred.toNat, len := 1, write := false } : RegUse) :: fmtUse i ++ i.uses).filter fun r =>
    r.cls != 3 && !(r.cls = 2 && r.num = 7)

/-- R29: the second of two slots reads nothing that the first writes, and writes nothing that it reads or writes. -/
def slotsApart (a b : Instr) : Bool :=
  (touches a).all fun x => (touches b).all fun y => !(x.write || y.write) || !x.meets y

/-- R29: two slots of one part may issue in one clock: they follow one another in the line, whose template permits it. -/
def Part.pairsSlots (p : Part) (a b : Issued) : Bool :=
  match p.line, slotOf a.pc, slotOf b.pc with
  | some l, some i, some j =>
    l.base = lineBase a.pc && lineBase b.pc = lineBase a.pc && j = i + 1 && l.bits.getLsbD (1 + i) &&
    slotsApart a.instr b.instr &&
    (pipeOf a.instr.opc != pipeOf b.instr.opc || pipeOf a.instr.opc = 0)
  | _, _, _ => false

/-- R17: the quad columns that a part occupies. -/
def columnsOf (q : QuadMask) : BitVec 8 := q.extractLsb' 0 8 ||| q.extractLsb' 8 8

/-- R250: an opcode one of which a pair needs. -/
def lightOp (opc : Nat) : Bool := opc ≤ 0x3B || (0x40 ≤ opc && opc ≤ 0x49)

/-- Quads of a part's wave. -/
def State.waveQuads (s : State) (pr : PartRef) : Nat := ((s.waves.get pr.wave).map fun w => w.nquads).getD 16

/-- R250: two parts may issue in one clock. -/
def State.pairsWith (s : State) (a b : Issued) : Bool :=
  a.part != b.part && columnsOf a.quads &&& columnsOf b.quads = 0 && s.waveQuads a.part != 16 && s.waveQuads b.part != 16 &&
  (lightOp a.instr.opc || lightOp b.instr.opc)

/-- R294, R404: the order among partners: the oldest, or after an instruction of a sixteenth of CURLIM the one with the
fewest active lanes. -/
def State.partnerRank (s : State) (core : Nat) (a : Issued) (x : PartRef × Part) : Nat :=
  (if (s.core core).cur.lim.toNat ≤ 16 * a.cost then maskCount x.2.active * 2 ^ 80 else 0) + s.ageRank x

/-- Whether another part of the active set that qualifies is preferred as partner. -/
def State.betterPartner (s : State) (o : Who) (a : Issued) : Bool :=
  (s.slotted o.g.core o.w.sched).any fun x =>
    x.1 != o.pr && x.1 != a.part && x.2.front &&
    (s.partnerRank o.g.core a x).blt (s.partnerRank o.g.core a (o.pr, o.p)) &&
    (match s.wouldIssue x.1 with | some b => s.pairsWith a b | none => false)

/-- THE CHOICE: the stall reason of a part that could issue `b` and is not chosen in this clock; none where it is. -/
def State.passedOver (s : State) (o : Who) (b : Issued) : Option Nat :=
  let unchosen := if o.p.last then 30 else 31
  match s.issuedOn o.g.core o.w.sched with
  | [] => if s.outranked o then some unchosen else none
  | [a] =>
    if a.part = o.pr then (if o.p.pairsSlots a b then none else some 5)
    else if s.pairsWith a b && !o.p.last && !s.betterPartner o a then none
    else some unchosen
  | l => some (if l.any fun a => a.part = o.pr then 5 else unchosen)

/-- THE ISSUE TURN OF A PART: it issues if its scheduler chooses it. -/
def State.issueTurn (s : State) (pr : PartRef) : Host.Outcome State Fault Refusal :=
  match s.readyFor pr with
  | .stop t => .next t
  | .run t i =>
    match exec i t, t.who pr with
    | .next u, some o =>
      match (t.newIssue u o).bind (t.passedOver o) with
      | some r => .next (t.modPart pr fun p => { p with stall := r })
      | none => .next u
    | r, _ => r

/-! ### The stall reasons that parts report (R382) -/

/-- The reason of a part whose instruction has issued and waits, as it stands now. -/
def State.waitingReason (s : State) (o : Who) : Instr → Nat
  | .waitn x => s.counterReason o (fun m => m = (waitnArgs o x).1) 2
  | .mwait x => s.mwaitReason o (x.mod.extractLsb' 0 2).toNat o.p.timer
  | .exit _ => (s.exitWait o).getD o.p.stall
  | _ => o.p.stall

/-- The island of a scheduler as it would be, were it awake. -/
def State.awake (s : State) (core sched : Nat) : State :=
  s.modCore core fun c => { c with isl := { c.isl with low := c.isl.low &&& ~~~ bit1 4 sched } }

/-- What a part reports, and whether its next instruction lacks something: a part that has not issued is tried, one of an
island that is asleep as though it were awake: where it lacks nothing it reports 28 (R402). -/
def State.reasonNow (s : State) (o : Who) : Nat × Hold :=
  match o.p.hold with
  | .lineMask =>
    (match o.p.line with | some l => s.counterReason o (fun n => (lineMask l.bits).getLsbD n) 1 | none => 1, .lineMask)
  | .instr i => (s.waitingReason o i, .instr i)
  | h =>
    if h != .no && h != .retry then (o.p.stall, h)
    else
      let ready := if s.asleep o then 28 else if o.p.last then 30 else 0
      let s := (s.awake o.g.core o.w.sched).modPart o.pr fun p => { p with front := true }
      let stopped := fun (t : State) => match t.who o.pr with
        | some q => if q.p.status = .resident && q.p.stall != 0 then (q.p.stall, Hold.retry) else (0, Hold.no)
        | none => (0, Hold.no)
      match s.readyFor o.pr with
      | .stop t => stopped t
      | .run t i =>
        match exec i t with
        | .next u => if (t.newIssue u o).isSome then (ready, .no) else stopped u
        | _ => (o.p.stall, h)

/-- The parts of a scheduler report what they wait for. -/
def State.refresh (s : State) (core sched : Nat) : State :=
  (s.slotted core sched).foldl (fun t x =>
    match s.who x.1 with
    | some o =>
      if o.p.status = .resident then t.modPart x.1 fun p => { p with stall := (s.reasonNow o).1, hold := (s.reasonNow o).2 }
      else t
    | none => t) s

/-- Where clocks pass, every part reports what it has waited for in them (R402, R404). -/
def State.reports (s : State) (t : Turn) : State :=
  if t.clk = 0 && t.more.isEmpty then s
  else s.cores.foldl (fun s c => (List.range 4).foldl (fun s j => s.refresh c.1 j) s) s

/-- The events that look at what the parts of a scheduler wait for (R293, R383, R402). -/
def State.refreshFor (s : State) : Instr → State
  | .partSwap core sched => s.refresh core sched
  | .forcedSwap core sched => s.refresh core sched
  | .profileSample core sched => s.refresh core sched
  | .lowRailWake core sched => s.refresh core sched
  | _ => s

/-! ### Who moves -/

/-- Who moves. An implicit knit that fuses lets its part issue at once (R262). -/
def State.move (s : State) : Act → Host.Outcome State Fault Refusal
  | .issue pr => s.issueTurn pr
  | .event i =>
    if s.mayHappen i then
      match exec i (s.refreshFor i), s.knitLeader i with
      | .next t, some pr => if t.knitted i pr then t.issueTurn pr else .next t
      | r, _ => r
    else .next s

end Sys2Proof.Machine
end

