-- ==== Sys2Proof/Machine/Step.lean ====
section
/-! DEFINITION. One step: a turn's time passes, and its part issues or its event happens (log entry 1). -/

namespace Sys2Proof.Machine

open Sys2Proof

/-- THE STEP. -/
def step (s : State) : Host.Outcome State Fault Refusal :=
  ((s.nextTurn.2.reports s.nextTurn.1).begins s.nextTurn.1).move s.nextTurn.1.act

/-! ### A program's first instruction (log entry 5) -/

/-- A line with one instruction in slot 0: code, SETA 0, SETB 1, no wait mask, every slot a target, even parity (R26). -/
def lineWith (w : Slot) : Line :=
  lineEven (BitVec.ofNat 512 (w.toNat * 2 ^ 32 + 1 * 2 ^ 26 + 0x3E0))

/-- The firmware entry launch of R412, dispatched on core 0, about to issue the instruction whose bits are `w` from slot 0
of the line at 0x10_0000. -/
def State.withFetchWord (s : State) (nbits w : Nat) : State :=
  let s := s.writeAt (.dev 0x00100000) (leBytes 64 (lineWith (BitVec.ofNat 96 (w % 2 ^ nbits))).toNat)
  let s := { s with boot := { s.boot with fatal := false, xlate := false }, heat := { s.heat with powered := true } }
  let s := s.modCore 0 fun c =>
    { c with bp := Core.reset.bp, freeze := Freeze.reset, isl := Islands.reset, cur := Current.reset }
  let u : WorkUnit := { blankUnit .launch 0 true none 0 with
    state := .running, stage := 2, words := firmwareWords 4 4096 0, next := 1, cores := [0] }
  match s.addUnit u with
  | (s, uid) =>
    match s.fresh1 with
    | (s, gid) =>
      let g : Group :=
        { unit := uid, g := 0, core := 0, state := .running, cancel := false, waves := [], lsz := u.lsz, ls := [], acc := [],
          token := [], plane := [], tacc := [], accErr := [], taccErr := [], illeg := 0, window := 0, queues := [], todo := [], rennet := [], scheds := [0], begun := true,
          overs := [], tileF := [],
          heldOn := none, heldGo := false }
      let pr : PartRef := { wave := s.fresh, part := 0 }
      let s := { s with groups := s.groups.put gid g }.enterWaves gid 0 u [(0, 0)]
      { (s.modPart pr fun p => { p with front := true }) with
        cur := pr, turns := { ns := 0, net := 0, clk := 0, more := [], ext := [], act := .issue pr } :: s.turns }

end Sys2Proof.Machine
end

