-- ==== Sys2Proof/Safety.lean ====
section
/-! DEFINITION. What the statements speak of: the canonical form of memory, when an instruction issues and completes
(R52), what a result writes and what it leaves (R44, R45, R85), and a device without power (R407). -/

namespace Sys2Proof.Machine

open Sys2Proof

/-! ### Memory in canonical form -/

/-- The byte memories of the machine are in the one form that stands for their contents: addresses rise, no zero byte is
listed, and the tables that hold them have rising keys. -/
def Store.canonical (m : Store) : Bool :=
  m.gddr.wf && Tbl.rising m.l2 && m.host.wf && m.flash.wf &&
  Tbl.rising m.peer && m.peer.all (fun e => Memory.wf e.2) && Tbl.rising m.ws && m.ws.all (fun e => Memory.wf e.2)

/-! ### When an instruction issues (R52) -/

/-- The conditions of R52 under which the part that the machine names issues an instruction and completes it: `slices` are
the home slices that record mode asks room for (R394). -/
structure Clear (s : State) (o : Who) (i : Instr) (slices : List Nat) : Prop where
  /-- The part is there. -/
  issuer : s.who s.cur = some o
  /-- Its line names a counter for the instruction's CSEL (R31). -/
  counted : lineCounter o.p (headOf i).csel ≠ some 15
  /-- A repeat's end lies beyond it (R269). -/
  body : repIllegal o.p.pc i = false
  /-- It is not made a no-operation by a negated P7 (R36). -/
  asked : ¬((headOf i).pneg = true ∧ (headOf i).pred = 7)
  /-- A control-mode instruction is in control mode (R362). -/
  mode : i.control = true → o.u.ctl = true
  /-- Its registers lie in the launch's allocation (R45, R103). -/
  regs : rangeFault o i = none
  /-- The wave and the part have the quads that MINW asks for (R50). -/
  wide : i.width = 6 ∨ needQuads o.w i.width ≤ o.w.nquads
  quads : needQuads o.w i.width ≤ maskCount o.p.quads
  /-- Its counter has room in every quad of the part (R32). -/
  room : ∀ n q, lineCounter o.p (headOf i).csel = some n → q ∈ maskBits o.p.quads → s.count o.pr.wave n q < 63
  /-- No register that it names waits for an outstanding operation (R86, R193). -/
  ready : s.waitsFor o i.uses = false
  /-- No acquire is outstanding before an access that one holds (R213). -/
  order : heldByAcquire i = true → s.acquiring o = false
  /-- The window has charge left (R404). -/
  charge : s.bubbles o (s.charge o i (headOf i)) = false
  /-- The rings of a recorded launch have room (R394). -/
  log : s.logFull o slices = none
  /-- No breakpoint stops it (R387). -/
  unbroken : State.verdict.brkStop s o = none
  /-- No register that it reads holds an error (R194). -/
  sound : heldError o i.uses = none

/-- The slices that an instruction asks room for: none but in record mode (R394). -/
def inRecord (o : Who) (slices : List Nat) : List Nat := if o.u.mode = 2 then slices else []

/-- The home slices that an instruction of the programs would touch, those for whose records record mode reserves (R394):
loads, stores, atomics, looks and collectives. -/
def recordSlices (i : Instr) (o : Who) (s : State) : List Nat :=
  match i with
  | .ld x => sliceUse (laneReq x false) o s
  | .ldx x => sliceUse (laneReq x false) o s
  | .ldw x => sliceUse (laneReq x false) o s
  | .lds x => sliceUse (partReq x (sizeBytes x.szty.toNat)) o s
  | .st x => sliceUse (laneReq x true) o s
  | .stx x => sliceUse (laneReq x true) o s
  | .monw x => sliceUse (partReq x (monBytes x)) o s
  | .atom x => sliceUse (atomReq x (atomBytes x.szty.toNat)) o s
  | .red x => sliceUse (atomReq x (atomBytes x.szty.toNat)) o s
  | .atomc x => sliceUse (atomReq x (atomBytes (16 + x.szty.toNat % 2))) o s
  | .ccwait x =>
    match s.ccCheck o x with
    | (_, .ok ps) => pieceSlices ps
    | _ => []
  | .mcst x => multiSlices x (sizeBytes x.szty.toNat) o s
  | .mred x => multiSlices x (atomBytes x.szty.toNat) o s
  | _ => []

/-! ### What a result writes and what it leaves (R44, R45, R85) -/

/-- The registers of `w'` are those of `w` but for a result in destination `d`, a pair when `wide`: V in the lanes of `m`,
S in the quads `qs` from the part's lowest quad's lane, P in the lanes of `m` as 0 or not 0; P7 takes no write. -/
def Wrote (w w' : Wave) (d : Dst) (wide : Bool) (m : LaneMask) (qs : QuadMask) (f : Nat → Nat) : Prop :=
  match d.cls with
  | .v => w'.p = w.p ∧ w'.s = w.s ∧ ∀ r l, l < 64 → w'.vreg r l =
      if m.getLsbD l ∧ wide = true ∧ r = d.num.toNat + 1 then BitVec.ofNat 32 (f l / 2 ^ 32)
      else if m.getLsbD l ∧ r = d.num.toNat then BitVec.ofNat 32 (f l)
      else w.vreg r l
  | .s => w'.v = w.v ∧ w'.p = w.p ∧ ∀ r q, q < 16 → w'.sreg r q =
      if qs.getLsbD q ∧ wide = true ∧ r = d.num.toNat + 1 then BitVec.ofNat 32 (f (4 * lowQuad qs) / 2 ^ 32)
      else if qs.getLsbD q ∧ r = d.num.toNat then BitVec.ofNat 32 (f (4 * lowQuad qs))
      else w.sreg r q
  | .p => w'.v = w.v ∧ w'.s = w.s ∧ ∀ r l, l < 64 → (w'.preg r).getLsbD l =
      if m.getLsbD l ∧ r = d.num.toNat ∧ r ≠ 7 then f l != 0 else (w.preg r).getLsbD l
  | _ => w'.v = w.v ∧ w'.p = w.p ∧ w'.s = w.s

/-- An instruction completes with a result in each participating lane, and changes no other register of its wave. -/
def LaneResult (s : State) (o : Who) (i : Instr) (h : Hdr) (d : Dst) (wide : Bool) (f : Nat → Nat) : Prop :=
  ∃ t w, exec i s = .next t ∧ t.waves.get o.pr.wave = some w ∧ Wrote o.w w d wide (o.lanes h) o.p.quads f

/-- A destination of class S. -/
def sDst (d : Dst) : Dst := { d with cls := .s }

/-- An instruction completes with one result for its part in an S register or pair, and changes no other register. -/
def PartResult (s : State) (o : Who) (i : Instr) (d : Dst) (wide : Bool) (v : Nat) : Prop :=
  ∃ t w, exec i s = .next t ∧ t.waves.get o.pr.wave = some w ∧ Wrote o.w w (sDst d) wide 0 o.p.quads fun _ => v

/-- The registers of a wave are as before. -/
def Kept (o : Who) (w : Wave) : Prop := w.v = o.w.v ∧ w.p = o.w.p ∧ w.s = o.w.s

/-- A memory or engine instruction issues and its part goes on: its operation enters the table of what is outstanding, not
complete, as an operation of the part at the instruction's PC; where CSEL names a counter, a counted entry of all the
part's quads is outstanding (R30, R32); `P` holds of the operation and `R` of the wave. -/
def Launches (s : State) (o : Who) (i : Instr) (kind : OpKind) (P : Op → Prop) (R : Wave → Prop) : Prop :=
  ∃ t w y, exec i s = .next t ∧ y ∈ t.ops ∧ P y ∧ y.kind = kind ∧ y.wave = o.pr.wave ∧ y.part = o.pr.part ∧
    y.all = o.p.quads ∧ y.pc = o.p.pc ∧ y.done = false ∧ t.waves.get o.pr.wave = some w ∧ R w ∧
    ∀ n, lineCounter o.p (headOf i).csel = some n →
      ∃ z ∈ t.ops, z.wave = o.pr.wave ∧ z.ctr = some n ∧ z.quads = o.p.quads ∧ z.done = false ∧ s.fresh ≤ z.id

/-- What an instruction of registers alone leaves: memory, the other waves, groups, units of work, every register of the
machine outside its core, and of its core all but the charge of the window with the parts that it holds, the breakpoints'
counts and the hint that the pairing keeps; a wave keeps all but its lists of pending faults, which a retirement may lengthen (R168). -/
structure RegFrame (s t : State) (o : Who) : Prop where
  rest : t = { s with waves := t.waves, cores := t.cores, ops := t.ops, fresh := t.fresh }
  waves : ∀ k, k ≠ o.pr.wave →
    (t.waves.get k).map (fun w => { w with pend := [] }) = (s.waves.get k).map (fun w => { w with pend := [] })
  cores : ∀ k, k ≠ o.g.core → t.cores.get k = s.cores.get k
  core : t.core o.g.core = { s.core o.g.core with
    cur := (t.core o.g.core).cur, bp := (t.core o.g.core).bp, issued := (t.core o.g.core).issued }
  charge : (t.core o.g.core).cur = { (s.core o.g.core).cur with
    used := (t.core o.g.core).cur.used, held := (t.core o.g.core).cur.held }
  parts : ∀ w, t.waves.get o.pr.wave = some w → ∀ k, k ≠ o.pr.part → w.parts.get k = o.w.parts.get k
  others : ∀ w, t.waves.get o.pr.wave = some w → w =
    { o.w with v := w.v, p := w.p, s := w.s, fmt := w.fmt, parts := w.parts, errs := w.errs, pend := w.pend }

/-! ### Events of parts and operations that wait -/

/-- A resident part waits in an instruction. -/
def Waits (s : State) (p : PartRef) (o : Who) (i : Instr) : Prop :=
  s.who p = some o ∧ o.p.hold = .instr i ∧ o.p.status = .resident

/-- An operation of a kind is in the table and not complete. -/
def Live (s : State) (id : Nat) (kind : OpKind) (x : Op) (g : Group) (u : WorkUnit) : Prop :=
  s.op id = some x ∧ x.done = false ∧ x.kind = kind ∧ s.opHome x = some (g, u)

/-! ### Traps (R363) -/

/-- A part stops with a trap: it is not resident, and the record it has written or will write carries this trap. -/
def Trapped (s : State) (o : Who) (i : Instr) (t : TrapInfo) : Prop :=
  exec i s = .next (s.takeTrap o.pr t)

/-! ### A device without power (R407) -/

/-- The package has no power and no cold reset is to come. -/
def Dark (s : State) : Prop :=
  s.heat.powered = false ∧ ∀ t ∈ s.turns, ∀ b, t.act ≠ .event (.coldReset b)

end Sys2Proof.Machine
end

