-- ==== Sys2Proof/Certificates/Slice0/Obligations.lean ====
section
/-! DEFINITION. The statements about the VM-1: results and frames of its instructions, traps, events, encodings and
invariants, each after the rules of spec/ that it names. -/

open Sys2Proof Sys2Proof.Machine

/-! ### Encodings (R24 to R56) -/

/-- Words of the spec: R56's example (two MOVI, EXIT, the padding NOP and its line of even parity), and one word of each
format written from R35, R38, R47 to R49, R82 and R96. -/
def Obligations.SpecWordsDecode : Prop :=
  let p7 : Hdr := { pneg := false, pred := 7, csel := .uncounted }
  let v := fun (n : BitVec 8) => ({ cls := .v, num := n } : Dst)
  let src := fun (c : SrcClass) (n : BitVec 8) => ({ neg := false, blane := 0, lmod := 0, cls := c, num := n } : Src)
  let word := fun (w0 w1 w2 : Nat) => (BitVec.ofNat 96 (w0 + w1 * 2 ^ 32 + w2 * 2 ^ 64) : Slot)
  let line : Line := BitVec.ofNat 512 (0x3FC00022 + (0x00031C02 + 0x1234 * 2 ^ 64) * 2 ^ 32 +
    (0x00051C02 + 0xFF * 2 ^ 64) * 2 ^ 128 + 0x1C59 * 2 ^ 224 + 0x1C00 * 2 ^ 320 + 0x1C00 * 2 ^ 416)
  let alu := fun (d : Dst) (a b c : Src) (t : Ty) =>
    ({ h := p7, sub := 0, dst := d, a := a, b := b, c := c, ty := t, rnd := .rn, sat := false, abs0 := false,
       abs1 := false, aux := 0 } : AluOp)
  let movi := fun (n : BitVec 8) (k : Word) =>
    Instr.movi { h := p7, ty := .i32, dst := v n, a := Src.none, b := Src.none, imm := k }
  lineOdd line = false ∧ lineKind line = 0 ∧ lineSetA line = 15 ∧ lineSetB line = 15 ∧ lineMask line = 0 ∧
  lineTargets line = 1 ∧
  decode (lineSlot line 0) = .ok (movi 3 0x1234) ∧ decode (lineSlot line 1) = .ok (movi 5 0xFF) ∧
  decode (lineSlot line 2) = .ok (.exit { h := p7, dst := Dst.none, a := Src.none, b := Src.none, imm := 0 }) ∧
  decode (lineSlot line 3) = .ok (.nop { pneg := false, pred := 7 }) ∧
  decode (word 0x00011C04 0x04050002 0) = .ok (.iadd (alu (v 1) (src .v 2) (src .const 5) Src.none .i32)) ∧
  decode (word 0x00081C23 0x00058004 0x00200006) =
    .ok (.ffma (alu (v 8) { src .v 4 with neg := true } (src .v 5) (src .v 6) .f32)) ∧
  decode (word 0x00021C40 0x00000001 0xB1000000) = .ok (.qswz
    { h := p7, sub := 0, dst := v 2, a := src .v 1, b := Src.none, c := Src.none, ctl := 0xB1, ty := .i32, minw := 0 }) ∧
  decode (word 0x00001C50 0x00020000 0x00002000) = .ok (.br
    { h := p7, link := Dst.none, cond := Src.none, offs := 2, slot := 1, nocut := false, hint := 0 }) ∧
  decode (word 0x00081D60 0xFFF0000A 0x2000FFFF) = .ok (.ld
    { h := { p7 with csel := .setA }, reg := v 8, addr := src .v 10, off := 0xFFFFFFF0, ord := 0, scope := 0, evict := 0,
      space := 0, szty := 4 }) ∧
  decode (word 0x04011C81 0 0) = .ok (.mrel
    { h := p7, dst := { cls := .acc, num := 1 }, a := Src.none, b := Src.none, c := Src.none, mod := 0, minw := 0 }) ∧
  decode (word 0x00001CB0 0x01050104 0) = .ok (.bari { h := p7, dst := Dst.none, a := src .s 4, b := src .s 5, imm := 0 }) ∧
  decode (word 0x0000001D 0 0) = .error (.opcode 0x1D) ∧ decode (word 0x00005C00 0 0) = .error .field

/-- Decoding inverts encoding: the word of a well-formed instruction decodes to that instruction, every operand at every
value that its encoding admits. Encoding inverts decoding: a word that decodes is the word of what it decodes to,
which is a well-formed instruction and no event; so no two words decode to one instruction, and no bit of a word is
dropped. -/
def Obligations.EncodingsRoundTrip : Prop :=
  (∀ (i : Instr) (w : Slot), i.wf = true → encode i = some w → decode w = .ok i) ∧
  (∀ (w : Slot) (i : Instr), decode w = .ok i → encode i = some w ∧ i.wf = true ∧ isEvent i = false)

/-! ### A step (R24 to R36, R52) -/

/-- A step runs the instruction that its turn's part reads: the parts report what they wait for where clocks pass, the
next turn's time passes, and then a part of the active set that competes and is awake goes on with the instruction
that it waits in, or issues the instruction that its slot decodes to, entering the line of its PC where it has not;
where that is a new instruction and the scheduler chooses another part in this clock (R29, R250, R294), the part only
reports that; a slot that decodes to nothing is ILLEGAL_INSTR; a turn's event happens where the device runs or the
event is a reset. -/
def Obligations.StepRunsDecodedInstruction : Prop :=
  ∀ (s : State) (t : Turn) (r : List Turn), s.turns = t :: r →
    let b := (({ s with turns := r }).reports t).begins t
    (∀ (pr : PartRef) (o : Who), t.act = .issue pr →
      let c : State := { b with cur := pr }
      c.who pr = some o → c.competes o = true → c.asleep o = false →
      let runs := fun (i : Instr) (c : State) (q : Who) => ∀ u, exec i c = .next u →
        ((c.newIssue u q).bind (c.passedOver q) = none → step s = .next u) ∧
        ∀ k, (c.newIssue u q).bind (c.passedOver q) = some k →
            step s = .next (c.modPart pr fun p => { p with stall := k })
      (∀ i, o.p.hold = .instr i → runs i c o) ∧
      ((∀ i, o.p.hold ≠ .instr i) → c.tileFault o = none →
        (∀ w i, o.p.slotBits = some w → decode w = .ok i → runs i c o) ∧
        (∀ w e, o.p.slotBits = some w → decode w = .error e →
          step s = .next (c.takeTrap pr (TrapInfo.ofSlot 0x005 o.p.pc w))) ∧
        (o.p.slotBits = none → ∀ (q : Who) (w : Slot) (i : Instr), (c.enterLine o).who pr = some q →
          q.p.status = .resident → q.p.hold = .no → q.p.slotBits = some w → decode w = .ok i →
          runs i (c.enterLine o) q))) ∧
    (∀ i, t.act = .event i → (∀ w pc, i ≠ .implicitKnitFuse w pc) →
      (b.mayHappen i = true → step s = exec i (b.refreshFor i)) ∧ (b.mayHappen i = false → step s = .next b))

/-- Every state takes a step to a next state: no state is stuck, and no instruction or event is refused. -/
def Obligations.EveryStateSteps : Prop :=
 ∀ s : State, ∃ t, step s = .next t

/-- Entering a line, in R52's order: INSTR_ADDR for an illegal PC (R25), stall reason 24 while the TLBs are filled (R333),
stall reason 6 while the fetch waits for credit (R325), a line of odd parity fetched again (R27), LINE_KIND,
BRANCH_TARGET for a checked entry at a slot without its target bit (R28), ILLEGAL_INSTR for SETA or SETB 12 to 14
(R26); then the part holds the line and issues from it, or waits for the line's counters (R33). -/
def Obligations.LineEntry : Prop :=
  ∀ (s t : State) (o : Who) (l : Line),
    (pcLegal o.p.pc = false → s.enterLine o = s.takeTrap o.pr (TrapInfo.plain 0x001 o.p.pc)) ∧
    let filled := s.fillTlbs o.g.core o.asid [lineBase o.p.pc]
    let page := match (s.translate o.g.core o.asid .fetch (lineBase o.p.pc)).2 with | .ok x => x.log | .error _ => 12
    (pcLegal o.p.pc = true → pinned o.p (lineBase o.p.pc) = none → filled.2 = true →
      s.enterLine o = filled.1.stallFor o.pr 24) ∧
    (pcLegal o.p.pc = true → pinned o.p (lineBase o.p.pc) = none → filled.2 = false →
      s.portWaits (clusterOf o.g.core) o.netClass 4 = true → s.enterLine o = s.stallFor o.pr 6) ∧
    (pcLegal o.p.pc = true → pinned o.p (lineBase o.p.pc) = none → filled.2 = false →
      s.portWaits (clusterOf o.g.core) o.netClass 4 = false →
      (s.look o.g.core o.asid o.p.pc 2 page).fetchLine o (lineBase o.p.pc) = (t, .line l) →
      (lineOdd l = true → s.enterLine o = t.modPart o.pr fun p => { p with hold := .refetch, stall := 7 }) ∧
      (lineOdd l = false →
        let target := (lineTargets l).getLsbD ((slotOf o.p.pc).getD 0)
        let odd := fun (n : Nat) => 12 ≤ n ∧ n ≤ 14
        let enters := fun (h : Hold) (k : Nat) => s.enterLine o = t.modPart o.pr fun p =>
          { p with line := some { base := lineBase o.p.pc, bits := l }, check := false, hold := h, stall := k }
        (lineKind l ≠ 0 → s.enterLine o = t.takeTrap o.pr (TrapInfo.plain 0x002 o.p.pc)) ∧
        (lineKind l = 0 → o.p.check = true → target = false →
          s.enterLine o = t.takeTrap o.pr (TrapInfo.plain 0x004 o.p.pc)) ∧
        (lineKind l = 0 → (o.p.check = true → target = true) →
          (odd (lineSetA l) ∨ odd (lineSetB l) → s.enterLine o =
            t.takeTrap o.pr (TrapInfo.ofSlot 0x005 o.p.pc (lineSlot l ((slotOf o.p.pc).getD 0)))) ∧
          (¬odd (lineSetA l) → ¬odd (lineSetB l) →
            (t.maskHolds o (lineMask l) = true →
              t.raisePending o (fun n => (lineMask l).getLsbD n) o.p.pc = none → enters .no 0) ∧
            (t.maskHolds o (lineMask l) = false →
              enters .lineMask (t.counterReason o (fun n => (lineMask l).getLsbD n) 1))))))

/-- The traps before issue come in R52's order, for every instruction of the table: ILLEGAL_INSTR; the no-operation of a
negated P7 (R36); the trap of a branch's target, where it is known (R28, R267; `State.targetFirst`); the trap of a
control-mode instruction outside control mode (R362); REG_RANGE; WIDTH at issue, and the implicit knit where the part
alone is too narrow (R262); COUNTER_OVERFLOW; the waits for registers, acquires and charge, with the lowest reason
where two hold (R86, R213, R382, R404); in record mode LOG_FULL, with the first ring that lacks room, its core's or
that of a slice that the instruction touches (R394; `recordSlices`); BRK_MATCH; and MEM_DATA of a held error. Only the
first that applies is taken. -/
def Obligations.IssueChecksInOrder : Prop :=
  ∀ (i : Instr) (s : State) (o : Who), isEvent i = false → s.who s.cur = some o → o.p.hold ≠ .instr i →
    let h := headOf i
    let word := (encode i).getD 0
    let traps := fun (t : TrapInfo) => exec i s = .next ((s.beforeTrap o t).takeTrap o.pr t)
    let waits := fun (k : Nat) => exec i s = .next (s.stallFor o.pr k)
    let need := needQuads o.w i.width
    (illegalHere o i h = true → traps (TrapInfo.ofSlot 0x005 o.p.pc word)) ∧
    (illegalHere o i h = false →
      (h.pneg = true → h.pred = 7 → exec i s = .next ((s.noteIssue o i 0).advance o.pr).settle) ∧
      (¬(h.pneg = true ∧ h.pred = 7) →
       (∀ p t, s.targetFirst i = some (p, t) → exec i s = .next (s.takeTrap p t)) ∧
       (s.targetFirst i = none →
        (i.control = true → o.u.ctl = false → traps (TrapInfo.ofSlot 0x006 o.p.pc word)) ∧
        ((i.control = true → o.u.ctl = true) →
          (∀ c n, rangeFault o i = some (c, n) →
            traps { TrapInfo.plain 0x007 o.p.pc with val := BitVec.ofNat 32 (c * 256 + n) }) ∧
          (rangeFault o i = none →
            (i.width ≠ 6 → o.w.nquads < need → traps { TrapInfo.plain 0x008 o.p.pc with val := BitVec.ofNat 32 need }) ∧
            ((i.width = 6 ∨ need ≤ o.w.nquads) →
              (maskCount o.p.quads < need → exec i s = .next (s.joinEpisode o true need (.width i) 10)) ∧
              (need ≤ maskCount o.p.quads →
                (∀ n q, lineCounter o.p h.csel = some n → q ∈ maskBits o.p.quads → 63 ≤ s.count o.pr.wave n q →
                  traps { TrapInfo.plain 0x009 o.p.pc with val := BitVec.ofNat 32 n }) ∧
                ((∀ n q, lineCounter o.p h.csel = some n → q ∈ maskBits o.p.quads → s.count o.pr.wave n q < 63) →
                  (s.waitsFor o i.uses = true → waits (if heldByAcquire i = true ∧ s.acquiring o = true
                    then min 2 (s.waitReason o i.uses) else s.waitReason o i.uses)) ∧
                  (s.waitsFor o i.uses = false →
                    (heldByAcquire i = true → s.acquiring o = true → waits 2) ∧
                    ((heldByAcquire i = true → s.acquiring o = false) →
                      (s.bubbles o (s.charge o i h) = true → waits 27) ∧
                      (s.bubbles o (s.charge o i h) = false →
                        let full := s.logFull o (inRecord o (recordSlices i o s))
                        (∀ v k, full = some (v, k) → traps
                          { TrapInfo.plain 0x109 o.p.pc with val := BitVec.ofNat 32 v, aux0 := BitVec.ofNat 32 k }) ∧
                        (full = none →
                          (∀ t, State.verdict.brkStop s o = some t → traps t) ∧
                          (State.verdict.brkStop s o = none → ∀ e, heldError o i.uses = some e →
                            traps (memData o e))))))))))))))

/-! ### Frames -/

/-- An instruction of registers alone, where it completes, changes nothing but its wave's registers, its part, its core's
charge, pairing record and breakpoints' counts, the table of operations, and the lists of faults that retirement makes
pending: no byte of memory, no other wave, part, group, unit or register of the machine. -/
def Obligations.RegisterInstructionsFrame : Prop :=
  ∀ (s t : State) (o : Who) (i : Instr),
    (i.opc ≤ 0x3B ∨ 0x40 ≤ i.opc ∧ i.opc ≤ 0x49 ∨ i.opc ∈ [0x5D, 0x94, 0x96, 0xA6, 0xC9]) →
    Clear s o i [] → s.stoppers = [] → exec i s = .next t → RegFrame s t o

/-- A memory instruction that issues changes no byte of memory, no register of its wave, no other wave, no group and no
unit beyond what the translation of its addresses has changed; a constant load, whose bytes are read at issue, where
the bytes are memory's and no fixed-order sum is open; an atomic outside record and replay mode. -/
def Obligations.MemoryIssueFrame : Prop :=
  ∀ (s s' t : State) (o : Who) (x : MemOp) (ps : List Piece), s'.stoppers = [] →
    let keeps := fun (i : Instr) (slices : List Nat) (checked : State × Option (QuadMask × FarInfo) × Except Stop (List Piece)) =>
      Clear s o i (inRecord o slices) → checked = (s', none, .ok ps) → exec i s = .next t →
        t.mem = s'.mem ∧ t.groups = s'.groups ∧ t.units = s'.units ∧
        (∀ k, k ≠ o.pr.wave →
          (t.waves.get k).map (fun w => { w with pend := [] }) = (s'.waves.get k).map (fun w => { w with pend := [] })) ∧
        ∀ w, t.waves.get o.pr.wave = some w → Kept o w
    let atomic := fun (i : Instr) (n : Nat) => o.u.mode = 0 →
      keeps i (sliceUse (atomReq x n) o s) (s.checkAccess o (atomReq x n o) fun _ => [])
    (x.space = 4 → (∀ k, (s'.slice k).fixed = []) ∧ s'.link.fixed = [] ∧ ∀ p ∈ ps, ∀ a, p.loc ≠ .ctrl a) →
    keeps (.ld x) (sliceUse (laneReq x false) o s) (s.checkAccess o (laneReq x false o) fun _ => []) ∧
    keeps (.ldx x) (sliceUse (laneReq x false) o s) (s.checkAccess o (laneReq x false o) fun _ => []) ∧
    keeps (.lds x) (sliceUse (partReq x (sizeBytes x.szty.toNat)) o s)
      (s.checkAccess o (partReq x (sizeBytes x.szty.toNat) o) fun _ => []) ∧
    keeps (.st x) (sliceUse (laneReq x true) o s) (s.checkAccess o (laneReq x true o) (storeRun o x)) ∧
    keeps (.stx x) (sliceUse (laneReq x true) o s) (s.checkAccess o (laneReq x true o) (storeRun o x)) ∧
    atomic (.atom x) (atomBytes x.szty.toNat) ∧ atomic (.atomc x) (atomBytes (16 + x.szty.toNat % 2)) ∧
    atomic (.red x) (atomBytes x.szty.toNat)

/-! ### Reset and what every step keeps -/

/-- The values that the spec gives at reset: SEQCLK, Σ, Z and F of every core 0, FMT and CUTP as R72 and R253 give them,
nothing resident, nothing outstanding, PHASE 0 and no trip active. The model's choices (log entry 4): device time is
0, and memory, which R411 step 2 has yet to clear, lists nothing and reads zero. The memories at reset are in their
canonical form. -/
def Obligations.ResetState : Prop :=
  (let s := State.reset
   s.time = 0 ∧ s.waves = [] ∧ s.groups = [] ∧ s.units = [] ∧ s.ops = [] ∧ s.mem.gddr = [] ∧ s.mem.ws = [] ∧
   s.mem.l2 = [] ∧ s.boot.phase = 0 ∧ s.boot.ready = false ∧ s.heat.trip = 0 ∧
   ∀ k, s.seqclk k = 0 ∧ (s.core k).sig = 0 ∧ (s.core k).z = 0 ∧ (s.core k).f = 0 ∧ (s.core k).trapcnt = 0 ∧
     (s.core k).l1 = [] ∧ (s.core k).tlb = [] ∧ (s.core k).fmt = 0x1110 ∧ (s.core k).cutp = 0x0C77) ∧
  (State.reset.mem.canonical = true)

/-- Every step keeps the byte memories in their canonical form, whatever it runs. -/
def Obligations.StepsKeepMemoryCanonical : Prop :=
  ∀ s t : State, s.mem.canonical = true → step s = .next t → t.mem.canonical = true

/-- R407: a device without power stays so until a cold reset: whatever its turns list, no step changes device memory, the
weight store, the operations or a register of a wave. -/
def Obligations.DarkDeviceStaysDark : Prop :=
  ∀ s t : State, Dark s → step s = .next t →
    Dark t ∧ t.mem.gddr = s.mem.gddr ∧ t.mem.ws = s.mem.ws ∧ t.mem.l2 = s.mem.l2 ∧ t.ops = s.ops ∧
    ∀ k, (t.waves.get k).map (fun w => (w.v, w.p, w.s)) = (s.waves.get k).map fun w => (w.v, w.p, w.s)

/-! ### Operands and functions (R42, R148, R172, R181, R130) -/

/-- R42, for every kind of operand: an integer is negated modulo 2^width, a floating value has its sign bit flipped and
nothing else, raw bits are inverted, and a predicate's negate is its logical NOT. -/
def Obligations.NegatedOperands : Prop :=
  ∀ (s : State) (o : Who) (x : Src) (l : Nat), x.neg = true →
    let plain := fun (k : Read) => s.operand o k false { x with neg := false } l
    let negated := fun (k : Read) => s.operand o k false x l
    (x.cls = .p → ∀ k, plain k < 2 ∧ negated k = 1 - plain k) ∧
    (x.cls ≠ .p → ∀ w ∈ [8, 16, 32, 64],
      (negated (.int w) < 2 ^ w ∧ (negated (.int w) + plain (.int w)) % 2 ^ w = 0) ∧
      negated (.raw w) + plain (.raw w) = 2 ^ w - 1) ∧
    (x.cls ≠ .p → ∀ f i, (negated (.flt f)).testBit i =
      if i = f.width - 1 then !(plain (.flt f)).testBit i else (plain (.flt f)).testBit i)

/-- R148, the whole table of TQNT: both operands read in TYPE after the input flush, the threshold is the magnitude of B,
and each participating lane receives 0, 1 or −1. -/
def Obligations.TqntQuantises : Prop :=
  ∀ (s : State) (o : Who) (x : EngOp), Clear s o (.tqnt x) [] →
    LaneResult s o (.tqnt x) x.h x.dst false fun l =>
      let a := s.fltOperand o (qntFmt x) false x.a l
      let b := s.fltOperand o (qntFmt x) false x.b l
      let threshold := if b.sign then b.negate else b
      if a.isNan || threshold.isNan then 0
      else if threshold.lt a then 1
      else if a.lt threshold.negate then 0xFFFFFFFF
      else 0

/-- R172: EDGE reads the record words from the part's S copy and the lane's position from A[5:0]; a P destination receives
covered, a V destination the three passes in bits 0 to 2 and covered in bit 3. -/
def Obligations.EdgeWritesCoverage : Prop :=
  ∀ (s : State) (o : Who) (x : EngOp), Clear s o (.edge x) [] →
    LaneResult s o (.edge x) x.h x.dst false fun l =>
      let at_ := pixelOf (s.operand o (.int 32) false x.b l % 64)
      let t := edgesOf o x.a.num.toNat
      let pass := fun (e : Nat) => if t.pass e at_.1 at_.2 = true then 2 ^ e else 0
      let covered := if t.covers at_.1 at_.2 = true then 1 else 0
      if x.dst.cls = .p then covered else pass 0 + pass 1 + pass 2 + 8 * covered

/-- R181 and R130: an aligned 256-byte granule of device memory has one home slice of the 128, an aligned 512-byte granule
one channel, and the spec's example offset lives in slice 120; outside the 1,200 ns after a wrap a bank of the weight
store turns by the formula, and at most two banks turn at once. -/
def Obligations.HomesAndWindows : Prop :=
  (∀ a b : Nat, a / 256 = b / 256 → homeSlice a = homeSlice b) ∧
      (∀ a b : Nat, a / 512 = b / 512 → channel a = channel b) ∧
  (∀ a : Nat, homeSlice a < 128 ∧ homeSlice a = 2 * channel a + a / 256 % 2) ∧ homeSlice 0x1234567A80 = 120 ∧
  ∀ (s : State) (die a b c : Nat), (s.wrapped = false ∨ 1200 ≤ s.time.toNat) →
    (s.turning (.ws die a) = true ↔ ((s.time.toNat : Int) - 1000 * (a / 256 % 64 : Nat)) % 64000 < 1200) ∧
    (a / 256 % 64 ≠ b / 256 % 64 → b / 256 % 64 ≠ c / 256 % 64 → a / 256 % 64 ≠ c / 256 % 64 →
      ¬(s.turning (.ws die a) = true ∧ s.turning (.ws die b) = true ∧ s.turning (.ws die c) = true))

/-! ### Vector instructions: the result in every participating lane, and every other register as before (R85) -/

/-- NOP, MOV, MOVI and SEL complete; a move or select writes the raw bits of its source in each participating lane, a
literal is widened by its type, and no other register of the wave changes (R51, R88, R40, R85). LEA forms A plus B
shifted left by IMM32[4:0] modulo 2^64 (R89). -/
def Obligations.MoveAndAddressResults : Prop :=
  (∀ (s : State) (o : Who) (n : NopOp) (x : AluOp) (y : LitOp),
     (Clear s o (.nop n) [] → exec (.nop n) s = .next (((s.begin o (.nop n)).advance o.pr).settle)) ∧
     (Clear s o (.mov x) [] → LaneResult s o (.mov x) x.h x.dst x.ty.isWide fun l =>
       s.operand o (.raw (tyBits x.ty)) false x.a l) ∧
     (Clear s o (.movi y) [] → LaneResult s o (.movi y) y.h y.dst y.ty.isWide fun _ =>
       if y.ty.isInt then intBits y.ty false (litBits y.ty y.imm) else litBits y.ty y.imm) ∧
     (Clear s o (.sel x) [] → LaneResult s o (.sel x) x.h x.dst x.ty.isWide fun l =>
       if s.operand o (.raw 32) false x.c l = 0 then s.operand o (.raw (tyBits x.ty)) false x.b l
       else s.operand o (.raw (tyBits x.ty)) false x.a l)) ∧
  (∀ (s : State) (o : Who) (x : LitOp), Clear s o (.lea x) [] → LaneResult s o (.lea x) x.h x.dst true fun l =>
     (((s.operand o (.int 64) false x.a l : Nat) + s.intOperand o x.ty x.b l * 2 ^ (x.imm.toNat % 32)) % 2 ^ 64).toNat)

/-- The integer instructions of R88 compute exactly, then saturate when SAT is set or wrap into the type's width, and
write each participating lane and nothing else (R66, R85, R87). ADDC adds with the carry of predicate C; it writes the
sum modulo 2^32 or 2^64 to each participating lane, or the sum of the part's lowest lane to an S register, the high
word of an N64 sum to the next register; the carry out goes to the predicate that SUBOP[2:0] names, in the
participating lanes, and to none where that is P7; every other register and lane is as before (R89, R45, R85). -/
def Obligations.IntegerArithmeticResults : Prop :=
  (∀ (s : State) (o : Who) (x : AluOp),
     let a := fun l => s.intOperand o x.ty x.a l
     let b := fun l => s.intOperand o x.ty x.b l
     let c := fun l => s.intOperand o x.ty x.c l
     let result := fun (i : Instr) (f : Nat → Int) =>
       Clear s o i [] → LaneResult s o i x.h x.dst x.ty.isWide fun l => intBits x.ty x.sat (f l)
     result (.iadd x) (fun l => a l + b l) ∧
     result (.isub x) (fun l => a l - b l) ∧
     result (.imul x) (fun l => a l * b l) ∧
     result (.imulh x) (fun l => a l * b l / 2 ^ tyBits x.ty) ∧
     result (.imad x) (fun l => a l * b l + c l) ∧
     result (.imin x) (fun l => min (a l) (b l)) ∧
     result (.imax x) (fun l => max (a l) (b l)) ∧
     result (.iabs x) (fun l => ((a l).natAbs : Nat)) ∧
     result (.iadd3 x) (fun l => a l + b l + c l) ∧
     (Clear s o (.sati x) [] → LaneResult s o (.sati x) x.h x.dst x.ty.isWide fun l =>
       intBits x.ty true (s.intOperand o ((Ty.ofCode x.sub).getD .i32) x.a l)) ∧
     (Clear s o (.icmp x) [] → LaneResult s o (.icmp x) x.h x.dst false fun l =>
       if condInt x.sub.toNat (a l) (b l) then 1 else 0)) ∧
  (∀ (s : State) (o : Who) (x : AluOp), Clear s o (.addc x) [] → x.dst.cls = .v ∨ x.dst.cls = .s →
     ∃ t w, exec (.addc x) s = .next t ∧ t.waves.get o.pr.wave = some w ∧
       Wrote { o.w with p := w.p } w x.dst x.ty.isWide (o.lanes x.h) o.p.quads (fun l => addcSum x s o l % 2 ^ tyBits x.ty) ∧
       ∀ r l, l < 64 → (w.preg r).getLsbD l =
         if (o.lanes x.h).getLsbD l ∧ r = x.sub.toNat % 8 ∧ r ≠ 7 then addcSum x s o l / 2 ^ tyBits x.ty != 0
         else (o.w.preg r).getLsbD l)

/-- The logic, shift, bit-field and counting instructions of R88 and R89, on raw bits; a P destination of a logic
instruction takes bit 0. -/
def Obligations.LogicAndShiftResults : Prop :=
  ∀ (s : State) (o : Who) (x : AluOp),
    let w := tyBits x.ty
    let raw := fun y l => s.operand o (.raw w) false y l
    let bits := fun y l => s.operand o (.int w) false y l
    let count := fun y l => s.operand o (.int 32) false y l
    let result := fun (i : Instr) (wide : Bool) (f : Nat → Nat) => Clear s o i [] → LaneResult s o i x.h x.dst wide f
    let logic := fun (i : Instr) (f : Nat → Nat) =>
      result i x.ty.isWide fun l => if x.dst.cls = .p then f l % 2 else f l
    logic (.and x) (fun l => Nat.land (raw x.a l) (raw x.b l)) ∧
    logic (.or x) (fun l => Nat.lor (raw x.a l) (raw x.b l)) ∧
    logic (.xor x) (fun l => Nat.xor (raw x.a l) (raw x.b l)) ∧
    logic (.not x) (fun l => 2 ^ w - 1 - raw x.a l) ∧
    result (.shl x) x.ty.isWide (fun l => if w ≤ count x.b l then 0 else bits x.a l * 2 ^ count x.b l % 2 ^ w) ∧
    result (.shr x) x.ty.isWide (fun l => shrBits x.ty (bits x.a l) (count x.b l)) ∧
    result (.rot x) x.ty.isWide (fun l => rotBits w (bits x.a l) (count x.b l)) ∧
    result (.bfx x) x.ty.isWide (fun l => bfxBits x.ty (bits x.a l) (count x.b l)) ∧
    result (.bfi x) x.ty.isWide (fun l => bfiBits w (bits x.a l) (bits x.b l) (count x.c l)) ∧
    result (.popc x) false (fun l => popBits w (bits x.a l)) ∧
    result (.clz x) false (fun l => clzBits w (bits x.a l)) ∧
    result (.brev x) x.ty.isWide (fun l => revBits w (bits x.a l))

/-- The floating-point instructions of R90 and R91: each operand is read with its modifiers and the input flush of R61,
the exact result is rounded once by the effective mode, and the result has the output flush and SAT. -/
def Obligations.FloatResults : Prop :=
  ∀ (s : State) (o : Who) (x : AluOp),
    let f := tyFmt x.ty
    let a := fun l => s.fltOperand o f x.abs0 x.a l
    let b := fun l => s.fltOperand o f x.abs1 x.b l
    let c := fun l => s.fltOperand o f false x.c l
    let result := fun (i : Instr) (wide : Bool) (g : Nat → Nat) => Clear s o i [] → LaneResult s o i x.h x.dst wide g
    let rounded := fun (i : Instr) (g : Nat → Machine.Num) =>
      result i x.ty.isWide fun l => finishFlt o.fmt (rmode o.fmt x.rnd) x.sat f (g l)
    let rd := isRd x o
    rounded (.fadd x) (fun l => (a l).add rd (b l)) ∧
    rounded (.fsub x) (fun l => (a l).add rd (b l).negate) ∧
    rounded (.fmul x) (fun l => (a l).mul (b l)) ∧
    rounded (.ffma x) (fun l => ((a l).mul (b l)).add rd (c l)) ∧
    rounded (.fscale x) (fun l => match a l with
      | .fin neg n e => .fin neg n (e + max (-5000) (min 5000 (s.intOperand o .i32 x.b l)))
      | v => v) ∧
    rounded (.frnd x) (fun l => match a l with
      | .fin neg n e => .fin neg (roundInt (rmode o.fmt x.rnd) neg n e) 0
      | v => v) ∧
    rounded (.sqrt x) (fun l => fnSqrt (a l)) ∧
    result (.fcmp x) false (fun l => if condFlt x.sub.toNat (a l) (b l) then 1 else 0) ∧
    result (.fmin x) x.ty.isWide (fun l =>
      selected x o (fminBits f (s.fltBits o f x.abs0 x.a l) (s.fltBits o f x.abs1 x.b l))) ∧
    result (.fmax x) x.ty.isWide (fun l =>
      selected x o (fmaxBits f (s.fltBits o f x.abs0 x.a l) (s.fltBits o f x.abs1 x.b l))) ∧
    result (.fmed3 x) x.ty.isWide (fun l =>
      let p := s.fltBits o f x.abs0 x.a l
      let q := s.fltBits o f x.abs1 x.b l
      selected x o (fmaxBits f (fminBits f p q) (fminBits f (fmaxBits f p q) (s.fltBits o f false x.c l)))) ∧
    result (.fclass x) false (fun l =>
      let m := classMask f (s.operand o (.flt f) x.abs0 x.a l)
      if x.dst.cls = .p then Nat.land m (s.operand o (.int 32) false x.b l) else m) ∧
    result (.ffrac x) x.ty.isWide (fun l =>
      let v : Machine.Num := match a l with
        | .fin neg n e =>
          if 0 ≤ e then .fin false 0 0 else Num.ofGrid e false (Num.onGrid e (.fin neg n e) % (2 ^ (-e).toNat : Nat))
        | _ => .nan
      let r := roundFmt o.fmt (rmode o.fmt x.rnd) f v
      let r := if r = f.bias * 2 ^ f.mw then f.bias * 2 ^ f.mw - 1 else r
      if x.sat then satBits f r else r)

/-- The conversions of R92 and R93, the functions of R94, and the packed and dot-product forms of R95. -/
def Obligations.ConversionFunctionAndPackedResults : Prop :=
  ∀ (s : State) (o : Who) (x : AluOp),
    let f := tyFmt x.ty
    let mode := rmode o.fmt x.rnd
    let rd := isRd x o
    let one := fun l => s.fltOperand o .f32 x.abs0 x.a l
    let a := fun l h => s.half o f x.abs0 x.a l h
    let b := fun l h => s.half o f x.abs1 x.b l h
    let c := fun l h => s.half o f false x.c l h
    let result := fun (i : Instr) (wide : Bool) (g : Nat → Nat) => Clear s o i [] → LaneResult s o i x.h x.dst wide g
    let nearest := fun (i : Instr) (g : Machine.Num → Machine.Num) =>
      result i x.ty.isWide fun l => finishFlt o.fmt .rn x.sat .f32 (g (one l))
    nearest (.exp2 x) fnExp2 ∧ nearest (.log2 x) fnLog2 ∧ nearest (.rsq x) fnRsq ∧ nearest (.sin x) fnSin ∧
    nearest (.cos x) fnCos ∧
    result (.rcp x) x.ty.isWide (fun l =>
      let v := flushOut o.fmt .f32 (rcpBits (one l))
      if x.sat then satBits .f32 v else v) ∧
    result (.fcvt x) x.ty.isWide (fun l =>
      if x.aux = 0 then finishFlt o.fmt mode x.sat f (s.fltOperand o (tyFmt ((Ty.ofCode x.sub).getD .f32)) x.abs0 x.a l)
      else finishFlt o.fmt .rn x.sat f (elemNum o.fmt x.sub.toNat
        (elemAt x.sub.toNat (s.operand o (.raw 32) false x.a l) (s.operand o (.int 32) false x.b l)))) ∧
    result (.ftoi x) x.ty.isWide (fun l =>
      match s.fltOperand o (tyFmt ((Ty.ofCode x.sub).getD .f32)) x.abs0 x.a l with
      | .nan => intBits x.ty true 0
      | .inf neg => intBits x.ty true (if neg then tyMin x.ty else tyMax x.ty)
      | .fin neg n e => intBits x.ty true (if neg then -(roundInt mode neg n e : Int) else roundInt mode neg n e)) ∧
    result (.itof x) x.ty.isWide (fun l =>
      finishFlt o.fmt mode x.sat f (Num.ofInt (s.intOperand o ((Ty.ofCode x.sub).getD .i32) x.a l))) ∧
    result (.fdot2 x) false (fun l => finishFlt o.fmt mode x.sat .f32
      (Num.sum rd [(a l 0).mul (b l 0), (a l 1).mul (b l 1), s.fltOperand o .f32 false x.c l])) ∧
    result (.hfma2 x) false (fun l => halves x o fun h => ((a l h).mul (b l h)).add rd (c l h)) ∧
    result (.hadd2 x) false (fun l => halves x o fun h => (a l h).add rd (b l h)) ∧
    result (.hmul2 x) false (fun l => halves x o fun h => (a l h).mul (b l h)) ∧
    result (.fpk2 x) false (fun l =>
      let e := fun (abs : Bool) (y : Src) => elemPack o.fmt mode x.sub.toNat (s.fltOperand o .f32 abs y l)
      let n := elemBits x.sub.toNat
      let i := 2 * x.aux.toNat
      let w := s.operand o (.raw 32) false x.c l
      w % 2 ^ (n * i) + e x.abs0 x.a * 2 ^ (n * i) + e x.abs1 x.b * 2 ^ (n * (i + 1)) +
        w / 2 ^ (n * (i + 2)) * 2 ^ (n * (i + 2))) ∧
    result (.qdot4 x) false (fun l => intBits x.ty x.sat ((List.range 4).foldl
      (fun acc i => acc + s.dotByte o (x.sub.getLsbD 0) x.a l i * s.dotByte o (x.sub.getLsbD 1) x.b l i)
      (s.intOperand o x.ty x.c l)))

/-- The cross-lane instructions of R97 to R99: what each participating lane receives of the part's lanes. XSHUF enters its
group under its key and holds the part with stall reason 12 and the knit timeout until the partner's matching XSHUF
meets it (R100, R101). -/
def Obligations.CrossLaneResults : Prop :=
  (∀ (s : State) (o : Who) (x : XlOp),
     let val := fun l => s.operand o (.of x.ty) false x.a l
     let m := o.lanes x.h
     let b := fun l => s.operand o (.int 32) false x.b l
     let result := fun (i : Instr) (wide : Bool) (g : Nat → Nat) => Clear s o i [] → LaneResult s o i x.h x.dst wide g
     result (.qswz x) x.ty.isWide (fun l => val (l / 4 * 4 + x.ctl.toNat / 4 ^ (l % 4) % 4)) ∧
     result (.ballot x) true (fun _ =>
       (maskOf 64 fun i => m.getLsbD i && s.operand o (.of .i32) false x.a i != 0 : LaneMask).toNat) ∧
     result (.vote x) false (fun _ => if voteHolds x.sub.toNat ((maskBits m).map val) then 1 else 0) ∧
     result (.shfl x) x.ty.isWide (fun l =>
       let j := shflLane x.ctl.toNat l (b l)
       if 0 ≤ j ∧ j ≤ 63 ∧ m.getLsbD j.toNat then val j.toNat else s.operand o (.of x.ty) false x.c l) ∧
     result (.bcast x) x.ty.isWide (fun _ => val ((maskLow m).getD 0)) ∧
     result (.redux x) x.ty.isWide (fun _ =>
       (treeOf (combine o.fmt x.ctl.toNat (x.sub.toNat % 8) x.ty) (fun i => if m.getLsbD i then some (val i) else none)
         6 0).getD (identityOf x.ctl.toNat x.ty)) ∧
     result (.scanx x) x.ty.isWide (fun l =>
       (Tbl.get (scanFrom (combine o.fmt x.ctl.toNat (x.sub.toNat % 8) x.ty) (x.sub.getLsbD 3)
         (identityOf x.ctl.toNat x.ty) none ((maskBits m).map fun i => (i, val i))) l).getD 0) ∧
     result (.match x) true (fun l => (maskOf 64 fun i => m.getLsbD i && val i = val l : LaneMask).toNat) ∧
     result (.readlane x) x.ty.isWide (fun l => if o.p.quads.getLsbD (b l % 64 / 4) then val (b l % 64) else 0) ∧
     (Clear s o (.writelane x) [] → ∃ t w, exec (.writelane x) s = .next t ∧ t.waves.get o.pr.wave = some w ∧
       Wrote o.w w x.dst x.ty.isWide (m &&& bit1 64 (b (4 * lowQuad o.p.quads) % 64)) o.p.quads val)) ∧
  (∀ (s : State) (o : Who) (x : XlOp), Clear s o (.xshuf x) [] → ∀ u,
     let t := (s.begin o (.xshuf x)).enterKey o (s.xkey o x)
     t.units.get o.g.unit = some u → xshufDead u (s.xkey o x) o.w.group o.w.index = false →
     exec (.xshuf x) s = .next ((t.modPart o.pr fun p => { p with timer := ktoClk o.cutp }).holdOn o.pr (.xshuf x) 12))

/-- The lane instructions of the engines: reads of accumulator cells (R121), packing, unpacking and quantising of trits
(R147, R148), coverage (R172), and the ray hit record (R175). -/
def Obligations.EngineLaneResults : Prop :=
  ∀ (s : State) (o : Who) (x : EngOp),
    let b := fun y l => s.operand o (.int 32) false y l
    (Clear s o (.mrd x) [] → cellTrap o (x.mod.toNat % 8) (WF.cellWide x.mod) = none →
      LaneResult s o (.mrd x) x.h x.dst (WF.cellWide x.mod) fun l =>
        o.g.cellBits (x.mod.toNat % 8) (s.cellIndex o x.a l) (if WF.cellWide x.mod then 0 else 1)) ∧
    (Clear s o (.tpack x) [] → LaneResult s o (.tpack x) x.h x.dst false fun l =>
      let p := x.mod.toNat % 4
      b x.c l - b x.c l / 256 ^ p % 256 * 256 ^ p + packTrits (b x.a l) (b x.b l) * 256 ^ p) ∧
    (Clear s o (.tunpk x) [] → (∀ l ∈ maskBits (o.lanes x.h), unpackBad x (s.tritByte o x l) = false) →
      LaneResult s o (.tunpk x) x.h x.dst true fun l => unpackBits (s.tritByte o x l)) ∧
    (Clear s o (.tqnt x) [] → LaneResult s o (.tqnt x) x.h x.dst false fun l =>
      quantTrit (s.fltOperand o (qntFmt x) false x.a l) (s.fltOperand o (qntFmt x) false x.b l)) ∧
    (Clear s o (.edge x) [] → LaneResult s o (.edge x) x.h x.dst false fun l =>
      let v := (edgesOf o x.a.num.toNat).bits (b x.b l % 64)
      if x.dst.cls = .p then v / 8 else v) ∧
    (Clear s o (.rhit x) [] →
      (∀ y ∈ s.ops, y.wave = o.pr.wave → y.done = false → y.kind = .trace → y.mask &&& o.lanes x.h = 0) →
      ∃ t w, exec (.rhit x) s = .next t ∧ t.waves.get o.pr.wave = some w ∧ w.p = o.w.p ∧ w.s = o.w.s ∧
        ∀ r l, l < 64 → w.vreg r l = if (o.lanes x.h).getLsbD l ∧ x.dst.num.toNat ≤ r ∧ r < x.dst.num.toNat + 8 then
          nth (o.w.hit l) (r - x.dst.num.toNat) else o.w.vreg r l)

/-! ### Instructions with one result for the part, and the part's own registers -/

/-- SEQRD, GETST, RDSR, TSTAT, MFENCE, CPOLL, WSWIN, CUTCTL, DVREQ and LOGCTL complete with one value in every quad of the
part and change no other register of the wave (R44, R120, R149, R151, R244, R271, R275, R375, R399, R406). -/
def Obligations.ScalarResults : Prop :=
  ∀ (s : State) (o : Who) (x : CtlOp) (y : EngOp),
    let sv := fun (z : Src) => (s.scalar o z 0).toNat
    (Clear s o (.seqrdTime x) [] → PartResult s o (.seqrdTime x) x.dst true s.time.toNat) ∧
    (Clear s o (.seqrdDseq x) [] → PartResult s o (.seqrdDseq x) x.dst true
      (o.w.seqs.dseq.toNat + o.pr.part * 2 ^ 16 + o.p.born.toNat * 2 ^ 32)) ∧
    (Clear s o (.seqrdOrd x) [] → PartResult s o (.seqrdOrd x) x.dst true o.p.ord.toNat) ∧
    (Clear s o (.getst x) [] → PartResult s o (.getst x) x.dst false
      (s.getstValue o (x.imm.toNat % 16) (x.imm.toNat / 16 % 16))) ∧
    (Clear s o (.rdsr x) [] → x.imm.getLsbD 16 = false → (s.sysReg o (srNum x)).isSome = true →
      ∀ a, (s.begin o (.rdsr x)).sysReg o (srNum x) = some a → PartResult s o (.rdsr x) x.dst false a) ∧
    (Clear s o (.rdsr x) [] → x.imm.getLsbD 16 = true → (s.sysReg o (srNum x)).isSome = true →
      (s.sysReg o (srNum x + 1)).isSome = true → ∀ a b, (s.begin o (.rdsr x)).sysReg o (srNum x) = some a →
      (s.begin o (.rdsr x)).sysReg o (srNum x + 1) = some b →
      PartResult s o (.rdsr x) x.dst true (a + b * 2 ^ 32)) ∧
    (Clear s o (.cutctl x) [] → PartResult s o (.cutctl x) x.dst false o.cutp.toNat) ∧
    (Clear s o (.logctl x) [] → PartResult s o (.logctl x) x.dst false
      (if 1 ≤ sv x.a ∧ sv x.a ≤ 1023 then (s.ctx (sv x.a)).logctl.toNat else 2 ^ 32 - 1)) ∧
    (Clear s o (.dvreq x) [] →
      let d := (s.cluster (sv x.a)).dvfs
      PartResult s o (.dvreq x) x.dst false
        (if 63 < sv x.a ∨ sv x.b < 9 ∨ 21 < sv x.b then 2
         else if d.ramp = true ∨ s.trip2 = true then 1
         else if sv x.b = d.cpt then 3 else 0)) ∧
    (Clear s o (.wswin y) [] →
      let bank := sv y.a / 256 % 64
      let window := s.windowOf bank
      PartResult s o (.wswin y) y.dst true (window.1 + bank * 2 ^ 48 + if window.2 then 2 ^ 63 else 0)) ∧
    (Clear s o (.tstat y) [] → o.u.taq = true → PartResult s o (.tstat y) y.dst false (s.tstat o (y.mod.toNat % 16))) ∧
    (Clear s o (.mfence y) [] →
      let batches := o.w.batches (y.mod.toNat % 4)
      (batches.closed.length < 32 ∨ s.batchDone o.pr.wave (y.mod.toNat % 4) (batches.closed.headD 0) = true) →
      PartResult s o (.mfence y) y.dst false batches.openNum) ∧
    (Clear s o (.cpoll y) [] → s.pollFault o.w.group (o.sreg y.a.num.toNat) = none →
      let handle := (o.sreg y.a.num.toNat).toNat
      let done := (s.channel (clusterOf o.g.core) (handle % 16)).doneS.toNat
      PartResult s o (.cpoll y) y.dst false (if (done + 2 ^ 28 - handle / 16) % 2 ^ 28 < 2 ^ 27 then 1 else 0))

/-- What SETFMT, CUTCTL, LOGCTL and WRSR write: FMT of the part's quads, CUTP by its mask, the five LOGCTL bits by their
mask, and the system register (R275, R271, R399, R378). -/
def Obligations.RegisterWrites : Prop :=
  ∀ (s : State) (o : Who) (x : CtlOp),
    (Clear s o (.setfmt x) [] → fmtLegal (s.setfmtValue o x) = true →
      exec (.setfmt x) s = .next (((s.begin o (.setfmt x)).modWave o.pr.wave fun w =>
        w.setFmt o.p.quads (s.setfmtValue o x)).finish o (.setfmt x))) ∧
    (Clear s o (.cutctl x) [] → ∃ t w, exec (.cutctl x) s = .next t ∧ t.waves.get o.pr.wave = some w ∧
      w.cutp = (o.w.setCutp o.p.quads (newCutp o.cutp x.imm)).cutp) ∧
    (Clear s o (.logctl x) [] → 1 ≤ (s.scalar o x.a 0).toNat → (s.scalar o x.a 0).toNat ≤ 1023 → s.stoppers = [] →
      ∃ t, exec (.logctl x) s = .next t ∧ ∀ k, k < 5 →
        (t.ctx (s.scalar o x.a 0).toNat).logctl.getLsbD k =
          if x.imm.getLsbD (8 + k) then x.imm.getLsbD k else (s.ctx (s.scalar o x.a 0).toNat).logctl.getLsbD k) ∧
    (Clear s o (.wrsr x) [] → (s.sysReg o (srNum x)).isSome = true →
      exec (.wrsr x) s = .next (((s.begin o (.wrsr x)).putSysReg o (srNum x) (s.scalar o x.a 0)).finish o (.wrsr x)))

/-! ### Control flow (R247 to R275) -/

/-- BR, BRX, CALL and RET whose target is legal, its line read and its target bit set, transfer every active lane there;
CALL first writes its successor's PC into the link pair (R25, R28, R267, R268). BRC reads its condition in every
active lane: with no taker it goes on at the successor, with all at the target, otherwise it cuts where a cut is due
and diverges where not (R251, R254, R267); in replay a cut that the log names waits until its record is the next and a
slot is free (R395). -/
def Obligations.BranchesComplete : Prop :=
  (∀ (s s' : State) (o : Who) (x : FlowOp) (y : JumpOp) (pc : Dword),
     let goes := fun (i : Instr) (t : State) => exec i s = .next ((t.jumpTo o.pr pc false).settle)
     (s.checkTarget o pc = (s', .ok pc) → flowTarget o.p.pc x = some pc →
       (Clear s o (.br x) [] → goes (.br x) (s'.begin o (.br x))) ∧
       (Clear s o (.call x) [] →
         goes (.call x) ((s'.begin o (.call x)).writeSS o x.link (successor o.p.pc).toNat))) ∧
     (s.checkTarget o pc = (s', .ok pc) → o.spair y.a.num.toNat = pc →
       (Clear s o (.brx y) [] → goes (.brx y) (s'.begin o (.brx y))) ∧
       (Clear s o (.ret y) [] → goes (.ret y) (s'.begin o (.ret y))))) ∧
  (∀ (s s' : State) (o : Who) (x : FlowOp) (pc : Dword), Clear s o (.brc x) [] →
     let takes := s.takers o x.cond
     let lanes := o.p.active &&& ~~~ o.w.exited
     (takes = 0 → exec (.brc x) s = .next (((s.begin o (.brc x)).advance o.pr).settle)) ∧
     (takes ≠ 0 → flowTarget o.p.pc x = some pc → s.checkTarget o pc = (s', .ok pc) →
       (takes = lanes → exec (.brc x) s = .next (((s'.begin o (.brc x)).jumpTo o.pr pc false).settle)) ∧
       (takes ≠ lanes → s'.cutWaits o x takes = true →
         exec (.brc x) s = .next (s'.stallFor o.pr 2)) ∧
       (takes ≠ lanes → s'.cutWaits o x takes = false → ∀ slot, s'.branchCut o x takes = some slot →
         let q := lanesQuads takes
         exec (.brc x) s = .next (((((s'.begin o (.brc x)).cut o q o.p.pc o.p.pc 0 slot).jumpTo
           { wave := o.pr.wave, part := lowQuad q } pc false).advance
           { wave := o.pr.wave, part := lowQuad (o.p.quads &&& ~~~ q) }).settle)) ∧
       (takes ≠ lanes → s'.cutWaits o x takes = false → s'.branchCut o x takes = none → o.p.stack.length < 8 →
         exec (.brc x) s = .next ((((s'.begin o (.brc x)).modPart o.pr fun p => dropRepeat
           (divergePart p o.fmt pc (successor o.p.pc) takes (lanes &&& ~~~ takes))).settlePart o.pr).settle))))

/-- A transfer puts the part at its target with every active lane, its stack empty as before; a repeat that the PC leaves
ends; nothing else of the machine changes (R267, R269). After an instruction that transfers no control the part goes
on at its successor, or, at the end of a repeat's body with iterations left, at the body's start with one fewer left
and the index one up (R25, R269). -/
def Obligations.PartMoves : Prop :=
  (∀ (s : State) (pr : PartRef) (w : Wave) (p : Part) (pc : Dword) (check : Bool),
     s.waves.get pr.wave = some w → w.parts.get pr.part = some p → p.stack = [] →
     ∃ q, s.jumpTo pr pc check = s.modPart pr (fun _ => q) ∧ q.pc = pc ∧ q.active = p.active ∧ q.quads = p.quads ∧
       q.stack = [] ∧ q.check = check ∧ q.hold = .no ∧
       q.rep = p.rep.bind fun r => if r.start.toNat ≤ pc.toNat ∧ pc.toNat ≤ r.stop.toNat then some r else none) ∧
  (∀ (s : State) (pr : PartRef) (w : Wave) (p : Part),
     s.waves.get pr.wave = some w → w.parts.get pr.part = some p → p.stack = [] →
     ∃ q, s.advance pr = s.modPart pr (fun _ => q) ∧ q.active = p.active ∧ q.quads = p.quads ∧ q.hold = .no ∧
       match p.rep with
       | none => q.pc = successor p.pc ∧ q.rep = none
       | some r =>
         if p.pc = r.stop then
           if 1 < r.rem.toNat then q.pc = r.start ∧ q.rep = some { r with rem := r.rem - 1, idx := r.idx + 1 }
           else q.pc = successor p.pc ∧ q.rep = none
         else q.pc = successor p.pc ∧ (q.rep = some r ∨ q.rep = none))

/-- REP and LPIN with count 0 skip the body; otherwise the part holds a repeat from its successor to the labelled end with
the count that A gives (R269, R270). EXIT of some of the part's lanes: they have exited, and the part goes on with the
quads that remain, at the successor; the last of the wave's lanes end the wave once nothing of it is outstanding and
no fault waits (R263, R272, R437). -/
def Obligations.RepeatsAndExitsComplete : Prop :=
  (∀ (s : State) (o : Who) (x : FlowOp) (stop : Dword), o.p.rep = none → flowTarget o.p.pc x = some stop →
     let n := s.scalar o x.cond 0
     let body : Repeat := { start := successor o.p.pc, stop := stop, rem := n, idx := 0 }
     let entered := fun (i : Instr) => ((s.begin o i).advance o.pr).modPart o.pr fun p => { p with rep := some body }
     (Clear s o (.rep x) [] →
       (n = 0 → exec (.rep x) s = .next (((s.begin o (.rep x)).jumpTo o.pr (successor stop) false).settle)) ∧
       (n ≠ 0 → exec (.rep x) s = .next ((entered (.rep x)).settle))) ∧
     (Clear s o (.lpin x) [] →
       (n = 0 → exec (.lpin x) s = .next (((s.begin o (.lpin x)).jumpTo o.pr (successor stop) false).settle)) ∧
       (n ≠ 0 → exec (.lpin x) s = .next (((entered (.lpin x)).pinBody o (successor o.p.pc) stop).settle)))) ∧
  (∀ (s : State) (o : Who) (x : CtlOp), Clear s o (.exit x) [] → s.exitCheck o x = (s, .ok ()) →
     let m := o.lanes x.h
     let left := o.p.quads &&& ~~~ goneQuads o m
     let gone := (s.begin o (.exit x)).exitLanes o m
     (lastExit o m = false → left ≠ 0 →
       exec (.exit x) s = .next ((gone.advance { wave := o.pr.wave, part := lowQuad left }).settle)) ∧
     (lastExit o m = false → left = 0 → exec (.exit x) s = .next gone.settle) ∧
     (lastExit o m = true → s.exitWait o = none → firstFault o = none → exec (.exit x) s = .next (gone.endWave o)) ∧
     (lastExit o m = true → s.exitWait o = none → ∀ t w, firstFault o = some (t, w) →
       exec (.exit x) s = .next (((s.begin o (.exit x)).modWave o.pr.wave fun _ => w).takeTrap o.pr t)))

/-- KNIT, WAITN, YIELD, SLEEP, FENCE and FENCEX complete at once where nothing makes them wait: a KNIT of the wave's only
part, a WAITN whose counter is low enough in every quad, a YIELD, a SLEEP of at most one clock, a FENCE and a FENCEX
with nothing to wait for (R203, R224, R258, R271, R273, R274). -/
def Obligations.WaitsComplete : Prop :=
  ∀ (s : State) (o : Who) (x : CtlOp),
    let done := fun (i : Instr) => (s.begin o i).finish o i
    (Clear s o (.knit x) [] → o.p.late = false → o.w.parts.length = 1 →
      exec (.knit x) s = .next (((s.begin o (.knit x)).advance o.pr).settle)) ∧
    (Clear s o (.waitn x) [] →
      (∀ q, q ∈ maskBits o.p.quads → s.count o.pr.wave (x.imm.toNat % 16) q ≤ (s.scalar o x.a 0).toNat) →
      s.raisePending o (fun n => n = x.imm.toNat % 16) o.p.pc = none →
      exec (.waitn x) s = .next (done (.waitn x))) ∧
    (Clear s o (.yield x) [] →
      exec (.yield x) s = .next ((done (.yield x)).modPart o.pr fun p => { p with stall := 30, last := true })) ∧
    (Clear s o (.sleep x) [] → (s.scalar o x.a x.imm).toNat ≤ 1 →
      exec (.sleep x) s = .next ((done (.sleep x)).modPart o.pr fun p => { p with stall := 30, last := true })) ∧
    (Clear s o (.sleep x) [] → 1 < (s.scalar o x.a x.imm).toNat →
      exec (.sleep x) s = .next (((s.begin o (.sleep x)).modPart o.pr fun p =>
        { p with timer := min (s.scalar o x.a x.imm).toNat (2 ^ 24) }).holdOn o.pr (.sleep x) 30)) ∧
    (Clear s o (.fence x) [] → s.fenceWaits o x = false →
      exec (.fence x) s = .next ((s.begin o (.fence x)).passFence o x)) ∧
    (Clear s o (.fencex x) [] → s.fencexWaits o x = false →
      exec (.fencex x) s = .next ((s.begin o (.fencex x)).passFencex o x))

/-! ### Memory instructions (R178 to R246) -/

/-- LD, LDS, LDX, ST, STX, LDW and PRF whose accesses pass their checks put an operation with one piece for each aligned
unit of each participating lane into the table and go on; no register changes by the issue; with no piece they are
complete at once (R32, R191, R192, R193, R197 to R200). -/
def Obligations.AccessesIssue : Prop :=
  ∀ (s s' : State) (o : Who) (x : MemOp) (ps : List Piece),
    let loads := fun (i : Instr) (req : Who → Request) =>
      Clear s o i (inRecord o (sliceUse req o s)) → s.checkAccess o (req o) (fun _ => []) = (s', none, .ok ps) →
        (ps = [] → exec i s = .next ((s'.begin o i).finish o i)) ∧
        (ps ≠ [] → Launches s o i .load (fun y => y.pieces = ps ∧ y.dst = x.reg ∧ y.span = sizeRegs x.szty.toNat ∧
          y.mask = o.lanes x.h ∧ y.ord = x.ord.toNat) (Kept o))
    let stores := fun (i : Instr) =>
      Clear s o i (inRecord o (sliceUse (laneReq x true) o s)) →
      s.checkAccess o (laneReq x true o) (storeRun o x) = (s', none, .ok ps) →
        (ps = [] → exec i s = .next ((s'.begin o i).finish o i)) ∧
        (ps ≠ [] → Launches s o i .store (fun y => y.pieces = lastWriters ps ∧ y.span = 0 ∧
            y.ord = x.ord.toNat) (Kept o))
    loads (.ld x) (laneReq x false) ∧ loads (.ldx x) (laneReq x false) ∧
    loads (.lds x) (partReq x (sizeBytes x.szty.toNat)) ∧ stores (.st x) ∧ stores (.stx x) ∧
    (Clear s o (.ldw x) (inRecord o (sliceUse (laneReq x false) o s)) → ldwTrap o x = none →
      s.checkAccess o (laneReq x false o) (fun _ => []) = (s', none, .ok ps) →
        (ps = [] → exec (.ldw x) s = .next ((s'.begin o (.ldw x)).finish o (.ldw x))) ∧
        (ps ≠ [] → Launches s o (.ldw x) .ldw (fun y => y.pieces = ps ++ ldwPieces o x) (Kept o))) ∧
    (Clear s o (.prf x) [] → (s.begin o (.prf x)).quietPieces o x = (s', ps) →
        (ps = [] → exec (.prf x) s = .next (s'.finish o (.prf x))) ∧
        (ps ≠ [] → Launches s o (.prf x) .prefetch (fun y => y.pieces = ps) (Kept o)))

/-- INVL drops the global and constant sectors of the lanes' lines from the core's L1, INVL.ALL every global and constant
sector, which sets F (R218); WBL writes back the lines of its pieces, WBL.ALL the wave's private lines (R201, R202).
MONW and CCWAIT whose condition holds at their first look complete: MONW, past the L1, with its word at A; CCWAIT with
the count at device scope, acquiring, the count read going to the S pair (R204, R316). A look that finds less, or
whose request would wait for credit (R325), waits for the next, 4,096 clocks later. A word in error satisfies no MONW,
which waits on with the error held, and completes a CCWAIT with 0 and a held error in place of the count (R2, R194;
the model's choice, log entry 71). -/
def Obligations.CacheAndMonitorInstructionsComplete : Prop :=
  (∀ (s s' : State) (o : Who) (x : MemOp) (ps : List Piece),
     (Clear s o (.invl x) [] → s.invlCheck o x = (s', none, .ok ps) → exec (.invl x) s = .next
       ((ps.foldl (fun s p => match p.loc with | .dev a => s.invalLine o.g.core (a / 128) | _ => s)
         (s'.begin o (.invl x))).finish o (.invl x))) ∧
     (Clear s o (.invlAll x) [] → exec (.invlAll x) s = .next (((s.begin o (.invlAll x)).modCore o.g.core fun c =>
       { c with l1 := c.l1.filter (fun e => e.1 % 4 = 2), f := s.time }).finish o (.invlAll x))) ∧
     (Clear s o (.wbl x) [] → s.checkAccess o (laneReq x false o) (fun _ => []) = (s', none, .ok ps) →
       s'.storesOut o ps = false → x.space = 2 → exec (.wbl x) s = .next
         ((ps.foldl (fun s p => match p.loc with | .dev a => s.privLine o.g.core o.netClass a | _ => s) (s'.begin o (.wbl x))).finish
           o (.wbl x))) ∧
     (Clear s o (.wbl x) [] → s.checkAccess o (laneReq x false o) (fun _ => []) = (s', none, .ok ps) →
       s'.storesOut o ps = false → x.space ≠ 2 → exec (.wbl x) s = .next
         ((ps.foldl (fun s p => match p.loc with
           | .dev a => ((s.ask (clusterOf o.g.core) o.netClass true (.dev (a / 128 * 128)) 4).settleFixed
               (.dev (a / 128 * 128)) 128).writeBack (a / 128 * 128) 128
           | _ => s) (s'.begin o (.wbl x))).finish o (.wbl x))) ∧
     (Clear s o (.wblAll x) [] → (∀ y ∈ s.before o, y.kind = .store → y.misc = 2 → y.opens = []) →
       exec (.wblAll x) s = .next (((privRows o).foldl (fun s va =>
         match s.locate o.asid .read va with
         | (s, .ok (.dev a)) => s.privLine o.g.core o.netClass a
         | (s, _) => s) (s.begin o (.wblAll x))).finish o (.wblAll x)))) ∧
  (∀ (s s' t : State) (o : Who) (x : MemOp) (y : CtlOp) (p : Piece) (d : ReadOut),
     (Clear s o (.monw x) (inRecord o (sliceUse (partReq x (monBytes x)) o s)) → s.monCheck o x = (s', .ok [p]) →
       let op := memOp o x 0 .load [p]
       let b := if op.scope = 5 then (s'.begin o (.monw x)).recallLines [p] else s'.begin o (.monw x)
       let again := fun (v : State) =>
         (v.modPart o.pr fun q => { q with timer := 4096, since := v.time }).holdOn o.pr (.monw x) 15
       b.admits o.g o.u op p false = true → (op.scope = 5 → b.snooping p = false) → b.lookWaits o = false →
       (b.lookOut o op p).readPiece o.g.core o.u.mode x.space.toNat (max 2 op.scope) x.evict.toNat p = (t, d) →
       let u := (t.noteRun o.g o.u op p false).noteHint o.u.ctx x.evict.toNat p
       (d.errs.any (fun e => e != 0) = true → exec (.monw x) s = .next (again (u.monErr o p))) ∧
       (d.errs.any (fun e => e != 0) = false → monHolds o x d.data = false → exec (.monw x) s = .next (again u)) ∧
       (d.errs.any (fun e => e != 0) = false → monHolds o x d.data = true →
         exec (.monw x) s = .next ((if x.ord = 1 then u.receive o.g.core op true d.sig
           else u.modPart o.pr fun q => { q with sigs := joinSigs q.sigs (some d.sig) }).finish o (.monw x)))) ∧
     (Clear s o (.ccwait y) (inRecord o (match s.ccCheck o y with | (_, .ok ps) => pieceSlices ps | _ => [])) →
       s.ccCheck o y = (s', .ok [p]) →
       let b := s'.begin o (.ccwait y)
       b.admits o.g o.u (ccOp o [p]) p false = true → b.lookWaits o = false →
       (b.lookOut o (ccOp o [p]) p).readPiece o.g.core o.u.mode 0 3 0 p = (t, d) →
       let u := t.noteRun o.g o.u (ccOp o [p]) p false
       (d.errs.any (fun e => e != 0) = true → exec (.ccwait y) s = .next
         (((u.writeSS o y.dst 0).holdErr o y.dst.num.toNat 2 (o.spair y.a.num.toNat) none).finish o (.ccwait y))) ∧
       (d.errs.any (fun e => e != 0) = false → (o.sval2 y.b).toNat ≤ leNat d.data → exec (.ccwait y) s = .next
         (((u.receive o.g.core (ccOp o [p]) true d.sig).writeSS o y.dst (leNat d.data)).finish o (.ccwait y))) ∧
       (d.errs.any (fun e => e != 0) = false → leNat d.data < (o.sval2 y.b).toNat → exec (.ccwait y) s = .next
         ((u.modPart o.pr fun q => { q with timer := 4096, since := u.time }).holdOn o.pr (.ccwait y) 15))))

/-- ATOM, ATOMC and RED put their atomic operation into the table: one piece for each participating lane, a result in the
destination's registers for ATOM and ATOMC and none for RED (R229 to R233). MCST and MRED whose group is open, whose
range and alignment hold, put one delivery for each member and lane into the table (R245, R246). -/
def Obligations.AtomicsAndMulticastsIssue : Prop :=
  (∀ (s s' : State) (o : Who) (x : MemOp) (ps : List Piece),
     let atomic := fun (i : Instr) (kind : OpKind) (code : Nat) =>
       Clear s o i (inRecord o (sliceUse (atomReq x (atomBytes code)) o s)) →
       s.checkAccess o (atomReq x (atomBytes code) o) (fun _ => []) = (s', none, .ok ps) → s'.bankReady o ps = true →
         (ps = [] → exec i s = .next ((s'.begin o i).finish o i)) ∧
         (ps ≠ [] → Launches s o i kind (fun y => y.pieces = ps ∧ y.code = code ∧ y.dst = x.reg ∧
           y.span = if kind = .atom then atomBytes code / 4 else 0) (Kept o))
     atomic (.atom x) .atom x.szty.toNat ∧ atomic (.atomc x) .atom (16 + x.szty.toNat % 2) ∧
     atomic (.red x) .red x.szty.toNat) ∧
  (∀ (s : State) (o : Who) (x : MemOp),
     let cast := fun (i : Instr) (kind : OpKind) (w : Nat) (data : Nat → List Byte) =>
       Clear s o i (inRecord o (multiSlices x w o s)) → s.collTrap o x w = none →
         (s.multiPieces o x data = [] → exec i s = .next ((s.begin o i).finish o i)) ∧
         (s.multiPieces o x data ≠ [] → Launches s o i kind (fun y => y.pieces = s.multiPieces o x data) (Kept o))
     cast (.mcst x) .mcst (sizeBytes x.szty.toNat) (fun l => storeBytes x.szty.toNat (storeWords o x l)) ∧
     cast (.mred x) .mred (atomBytes x.szty.toNat)
       (fun l => leBytes (atomBytes x.szty.toNat) (atomOperand o x (atomBytes x.szty.toNat) 0 l)))

/-- BCOPY, GCOPY and SCOPY enter the channel of their cluster that MOD names and write the copy's handle, the channel and
the serial that follows the last, to the destination; WSWRITE puts its transfer into the table (R237 to R239, R244,
R150). -/
def Obligations.CopiesIssue : Prop :=
  ∀ (s s' : State) (o : Who) (x : EngOp) (m : List Mapped),
    let copy := fun (i : Instr) (gather scatter : Bool) =>
      Clear s o i [] → s.copyCheck o x gather = (s', .ok m) →
        Launches s o i .copy (fun y => y.pieces = copyPieces o (copyDesc o x gather) scatter m)
          (fun w => Wrote o.w w (sDst x.dst) false 0 o.p.quads fun _ =>
            ((s'.channel (clusterOf o.g.core) o.channel).issued.toNat + 1) % 2 ^ 28 * 16 + o.channel)
    (copy (.bcopy x) false false ∧ copy (.gcopy x) true false ∧ copy (.scopy x) true true) ∧
    (Clear s o (.wswrite x) [] → wsBad (wsArgs o x).1 (wsArgs o x).2.1 (wsArgs o x).2.2 = false →
      s.wsReaders (dieOf o.g.core) = false → s.engineMap o (pageRuns (wsArgs o x).2.1 (wsArgs o x).2.2) [] = (s', .ok m) →
      Launches s o (.wswrite x) .wsWrite (fun y => y.pieces.length = 2 * ((wsArgs o x).2.2 / 32)) (Kept o))

/-! ### Engines (R102 to R177) -/

/-- MACQ gives a free accumulator's token to the part at once where nobody waits before it, and is complete where the part
holds it already; MREL returns a token that the part holds; MWR writes the cells that the lanes name, the highest lane
last; MWAIT for a batch that is complete goes on (R105, R114, R118, R120, R121). -/
def Obligations.AccumulatorInstructionsComplete : Prop :=
  ∀ (s : State) (o : Who) (x : EngOp),
    let n := x.dst.num.toNat
    (Clear s o (.macq x) [] → partHolds o n = true →
      exec (.macq x) s = .next ((s.begin o (.macq x)).finish o (.macq x))) ∧
    (Clear s o (.macq x) [] → partHolds o n = false → (s.begin o (.macq x)).mayGrant o n = true →
      (s.begin o (.macq x)).macqWaiters o.w.group n = [] →
      exec (.macq x) s = .next ((s.begin o (.macq x)).grant o x)) ∧
    (Clear s o (.mrel x) [] → partHolds o n = true →
      exec (.mrel x) s = .next (((s.begin o (.mrel x)).modGroup o.w.group fun g =>
        { g with token := g.token.del n }).finish o (.mrel x))) ∧
    (Clear s o (.mwr x) [] → cellTrap o n (WF.cellWide x.mod) = none →
      exec (.mwr x) s = .next (((s.begin o (.mwr x)).modGroup o.w.group fun g =>
        (maskBits (o.lanes x.h)).foldl (fun g l => g.putCell n (s.cellIndex o x.a l) (if WF.cellWide x.mod then 0 else 1)
          (s.operand o (.int (if WF.cellWide x.mod then 64 else 32)) false x.b l)) g).finish o (.mwr x))) ∧
    (Clear s o (.mwait x) [] →
      let unit := (s.mwaitArgs o x).1
      let b := (s.mwaitArgs o x).2
      waitRow (o.w.batches unit).closed b ≠ .range →
      (waitRow (o.w.batches unit).closed b = .past ∨ s.batchDone o.pr.wave unit b = true) →
      exec (.mwait x) s = .next ((s.begin o (.mwait x)).passMwait o x unit b))

/-- MMA, MMAS, MDRAIN and the ternary array's TWLD, TMAC, TDRAIN and TZERO put their operation into the table once their
checks pass; the operation's pieces are the sectors of its operands (R107, R115, R119, R122, R143 to R146). -/
def Obligations.MatrixInstructionsIssue : Prop :=
  ∀ (s s' : State) (o : Who) (x : EngOp) (m : List Mapped),
    let operands := (matrixDesc o x).a.pieces o.w.group 0 m ++ (matrixDesc o x).b.pieces o.w.group 1 m
    (Clear s o (.mma x) [] → s.mmaCheck o x false = (s', .ok m) →
      Launches s o (.mma x) .mma (fun y => y.pieces = operands ∧ y.dst = x.dst) (Kept o)) ∧
    (Clear s o (.mmas x) [] → s.mmaCheck o x true = (s', .ok m) →
      Launches s o (.mmas x) .mmas (fun y => operands <+: y.pieces ∧ y.dst = x.dst) (Kept o)) ∧
    (Clear s o (.mdrain x) [] → s.drainCheck o x = (s', .ok m) →
      Launches s o (.mdrain x) .mdrain (fun y => y.pieces = (drainTile o x).pieces o.w.group 0 m ∧
          y.dst = x.dst) (Kept o)) ∧
    (Clear s o (.twld x) [] →
      s.taCheck o (twldBad o x) (twldTrap o x) (if twldGlobal x then pageRuns (o.spair x.a.num.toNat) 13312 else []) [] =
        (s', .ok m) →
      Launches s o (.twld x) .twld (fun y => y.pieces = twldPieces o x m ∧ y.arg 1 = twldPlane x) (Kept o)) ∧
    (Clear s o (.tmac x) [] → s.taCheck o (tmacBad o x) none [] [] = (s', .ok m) →
      Launches s o (.tmac x) .tmac (fun y => y.dst = x.dst ∧ y.arg 3 = (tmacDesc o x).1 % 2 ^ 32 ∧
        y.arg 4 = (tmacDesc o x).2.1 % 2 ^ 32) (Kept o)) ∧
    (Clear s o (.tdrain x) [] → s.taCheck o (drainDesc o x).bad none []
        (if (drainDesc o x).tile.glob then (drainDesc o x).tile.pages else []) = (s', .ok m) →
      Launches s o (.tdrain x) .tdrain (fun y => y.dst = x.dst ∧ (drainDesc o x).tile.pieces o.w.group 0 m <+: y.pieces)
        (Kept o)) ∧
    (Clear s o (.tzero x) [] → s.taCheck o false none [] [] = (s', .ok m) →
      Launches s o (.tzero x) .tzero (fun y => y.dst = x.dst) (Kept o)) ∧
    (Clear s o (.tzeroPlane x) [] → s.taCheck o false none [] [] = (s', .ok m) →
      Launches s o (.tzeroPlane x) .tzero (fun y => y.arg 1 = if x.mod.getLsbD 1 then 1 else 0) (Kept o))

/-- SMP, SMPL, SMPG, GATH4, TXLD and LDEC with a legal descriptor put an operation of the sampler into the table, with the
coordinates of each participating lane; with no such lane they are complete at once (R157, R163, R171). RTRACE, IMGST
and EMIT put their operation into the table; EMIT's carries the wave's EMIT count; TILEQ holds its part until a record
is handed out, having retired the one before; RNINV drops the rennet entries of a binding, or all of them (R173 to
R177). -/
def Obligations.GraphicsInstructionsComplete : Prop :=
  (∀ (s : State) (o : Who) (x : EngOp),
     let m := o.lanes x.h
     let samples := fun (i : Instr) (code span : Nat) (words : Nat → List Word) =>
       (m = 0 → exec i s = .next ((s.begin o i).finish o i)) ∧
       (m ≠ 0 → Launches s o i .sample (fun y => y.code = code ∧ y.dst = x.dst ∧ y.span = span ∧ y.mask = m ∧
         y.lanes = (maskBits m).map fun l => (l, words l)) (Kept o))
     let span := if WF.modH x then 2 else 4
     let legal := texBad (texWords o x.b) = false ∧ smpBad (o.sreg x.c.num.toNat) = false
     (Clear s o (.smp x) [] → legal → samples (.smp x) 0xA0 span (smpWords x o)) ∧
     (Clear s o (.smpl x) [] → legal → samples (.smpl x) 0xA1 span (runWords o x.a 3)) ∧
     (Clear s o (.smpg x) [] → legal → samples (.smpg x) 0xA2 span (runWords o x.a 6)) ∧
     (Clear s o (.gath4 x) [] → legal → samples (.gath4 x) 0xA3 4 (runWords o x.a 3)) ∧
     (Clear s o (.txld x) [] → texBad (texWords o x.b) = false → samples (.txld x) 0xA4 span (runWords o x.a 3)) ∧
     (Clear s o (.ldec x) [] → (o.spair x.c.num.toNat).toNat % 64 = 0 →
       samples (.ldec x) 0xA5 1 fun l => runWords o x.a 4 l ++ [BitVec.ofNat 32 (s.operand o (.int 32) false x.b l)])) ∧
  (∀ (s s' : State) (o : Who) (x : EngOp) (y : CtlOp) (m : List Mapped),
     let lanes := o.lanes x.h
     (Clear s o (.rtrace x) [] → (o.spair x.b.num.toNat).toNat % 64 = 0 →
       (lanes = 0 → exec (.rtrace x) s = .next ((s.begin o (.rtrace x)).finish o (.rtrace x))) ∧
       (lanes ≠ 0 → Launches s o (.rtrace x) .trace (fun z => z.mask = lanes ∧
         z.lanes = (maskBits lanes).map fun l => (l, runWords o x.a 8 l)) (Kept o))) ∧
     (Clear s o (.imgst x) [] → texBad (texWords o x.c) = false → texFmt (texWords o x.c) ≠ 0 → imgTexels o x ≠ [] →
       s.engineMap o [] ((imgTexels o x).map fun t => { lane := some t.1, off := 0, va := t.2.1, len := t.2.2.length }) =
         (s', .ok m) →
       Launches s o (.imgst x) .image (fun z => z.pieces = lastWriters ((imgTexels o x).map fun t =>
         { lane := t.1, off := 0, va := t.2.1, loc := mapAt m t.2.1, len := t.2.2.length, data := t.2.2, hs := false }))
         (Kept o)) ∧
     (Clear s o (.emit x) [] → o.u.kindCode = 1 → (o.w.parts.length ≤ 1 ∨ s.mayDecide o 8 = true) →
       lanes ≠ 0 → Launches s o (.emit x) .emit (fun z => z.mask = lanes ∧ z.args = [if x.mod.getLsbD 0 then 1 else 0,
         o.w.seqs.emit]) (Kept o)) ∧
     (Clear s o (.tileq x) [] → tileqTrap o s = none →
       (o.w.tile.map (·.words) = some endRec.words →
         exec (.tileq x) s = .next ((s.begin o (.tileq x)).landRec o x endRec)) ∧
       (o.w.tile.map (·.words) ≠ some endRec.words →
         exec (.tileq x) s = .next (((s.begin o (.tileq x)).retireTile o).holdOn o.pr (.tileq x) 13))) ∧
     (Clear s o (.rninv y) [] → rninvCheck o s = (s, .ok ()) →
       exec (.rninv y) s = .next (((s.begin o (.rninv y)).dropRennet o fun a =>
         a = (o.spair y.a.num.toNat).toNat).finish o (.rninv y))) ∧
     (Clear s o (.rninvAll y) [] → rninvCheck o s = (s, .ok ()) →
       exec (.rninvAll y) s = .next (((s.begin o (.rninvAll y)).dropRennet o fun _ => true).finish o (.rninvAll y))))

/-! ### Synchronisation and work (R276 to R317) -/

/-- BARI and BARI.GROUP initialise a barrier of the group's local store, ARRIVE adds the part's quads and gives the phase
as a token, ARRDROP drops the part's registered quads, BEXPECT adds bytes to the pending count, and BWAIT goes on once
the phase is not its token's (R302 to R306). R304: a barrier is due when it expects a quad, every expected quad has
arrived and no byte is pending; then its phase goes up by 1 modulo 2^16, the dropped quads leave the expected ones,
and both counts start again; otherwise it stays. -/
def Obligations.BarrierInstructionsComplete : Prop :=
  (∀ (s : State) (o : Who) (x : CtlOp),
     let a := (o.sreg x.a.num.toNat).toNat
     let n := (s.scalar o x.b 0).toNat
     let b := s.readBarr o.w.group a
     let e := entryOf o a b
     let noted := fun (t : State) (i : Instr) => (t.lsNote o a 16 true).finish o i
     s.lsAdmits o a 16 true = true →
     (Clear s o (.bari x) [] → s.barrPlace o a = none → 1 ≤ n → n ≤ 256 →
       exec (.bari x) s = .next (noted ((s.begin o (.bari x)).initBarr o a n) (.bari x))) ∧
     (Clear s o (.bariGroup x) [] → s.barrPlace o a = none →
       (∀ w ∈ s.mates o, w.2.liveQuads ≠ 0 → (w.2.regs.filter fun r => r.addr != a).length < 8) →
       let quads := (((s.begin o (.bariGroup x)).mates o).map fun w => maskCount w.2.liveQuads).foldl (· + ·) 0
       let t := (s.begin o (.bariGroup x)).initBarr o a quads
       let enter := fun (w : Wave) =>
         w.putReg { addr := a, reg := w.liveQuads, arr := 0, last := BitVec.ofNat 16 (t.readBarr o.w.group a).phase }
       exec (.bariGroup x) s = .next (noted { t with waves := t.waves.map fun (w : Nat × Wave) =>
         if w.2.group = o.w.group then (w.1, enter w.2) else w } (.bariGroup x))) ∧
     (Clear s o (.arrive x) [] → s.arriveTrap o x = none → s.accessesOut o = false →
       exec (.arrive x) s = .next ((((((s.begin o (.arrive x)).writeBarr o.w.group a
         { b with arrq := b.arrq + maskCount o.p.quads }.settle).modWave o.pr.wave fun w =>
           w.putReg { e with arr := e.arr ||| o.p.quads, reg := e.reg ||| o.p.quads }).lsNote o a 16 true).writeS o x.dst
             b.phase).finish o (.arrive x))) ∧
     (Clear s o (.arrdrop x) [] → s.barrTrap o x = none → s.accessesOut o = false →
       let r := dropQuads b e (o.p.quads &&& e.reg)
       exec (.arrdrop x) s = .next (noted (((s.begin o (.arrdrop x)).writeBarr o.w.group a r.1).modWave o.pr.wave fun w =>
         w.putReg r.2) (.arrdrop x))) ∧
     (Clear s o (.bexpect x) [] → s.barrTrap o x = none → b.pend + n < 2 ^ 32 →
       exec (.bexpect x) s = .next (noted ((s.begin o (.bexpect x)).writeBarr o.w.group a { b with pend := b.pend + n })
         (.bexpect x))) ∧
     (Clear s o (.bwait x) [] → s.barrTrap o x = none → b.phase ≠ n % 2 ^ 16 → s.barrFault o x = (s, none) →
       exec (.bwait x) s = .next (((s.begin o (.bwait x)).lsNote o a 16 false).finish o (.bwait x)))) ∧
  (∀ b : Barr,
     (b.expq ≠ 0 → b.arrq = b.expq → b.pend = 0 →
       b.settle = { arrq := 0, expq := b.expq - b.dropq, phase := (b.phase + 1) % 2 ^ 16, dropq := 0, pend := 0, ovf := b.ovf }) ∧
     ((b.expq = 0 ∨ b.arrq ≠ b.expq ∨ b.pend ≠ 0) → b.settle = b))

/-- QALLOW.INIT makes an empty queue, QALLOW grants allowance within the capacity, QPUSH with allowance stores a handle at
the tail and uses one of the wave's allowance, QPOP and QTRY take the handle at the head, and QTRY of an empty queue
writes zeros (R307, R308); a handle in uncorrectable error reads as 0 with the error held (R2, R194; log entry 71). -/
def Obligations.QueueInstructionsComplete : Prop :=
  ∀ (s : State) (o : Who) (x : CtlOp),
    let av := (s.scalar o x.a 0).toNat
    let bv := (s.scalar o x.b 0).toNat
    (Clear s o (.qallowInit x) [] → s.ringTrap o x = none →
      exec (.qallowInit x) s = .next (((s.begin o (.qallowInit x)).setQueue o x
        { base := (o.sreg x.a.num.toNat).toNat, cap := bv, head := 0, tail := 0, allow := [],
          push := ((o.queue x).map fun q => q.push).getD [], pop := ((o.queue x).map fun q => q.pop).getD [] }).finish
            o (.qallowInit x))) ∧
    ∀ q, o.queue x = some q →
      (Clear s o (.qallow x) [] → q.count + q.granted + av ≤ q.cap → s.accessesOut o = false →
        exec (.qallow x) s = .next (((s.begin o (.qallow x)).setQueue o x
          { q with allow := q.allow.put (bv % 16) ((q.allow.get (bv % 16)).getD 0 + av) }).finish o (.qallow x))) ∧
      (Clear s o (.qpush x) [] → s.accessesOut o = false → (s.begin o (.qpush x)).canPush o q = true →
        exec (.qpush x) s = .next (((((s.begin o (.qpush x)).setBytes (.ls o.w.group (q.slot q.tail)) (leBytes 4 av)).lsNote o
          (q.slot q.tail) 4 true).setQueue o x { q with
            tail := q.tail + 1, allow := q.allow.put o.w.index ((q.allow.get o.w.index).getD 0 - 1),
            push := q.push.filter fun p => p != o.pr }).endQueue o x (.qpush x))) ∧
      (Clear s o (.qpop x) [] → (s.begin o (.qpop x)).canPop o q = true →
        exec (.qpop x) s = .next ((((((s.begin o (.qpop x)).lsNote o (q.slot q.head) 4 false).setQueue o x
          { q with head := q.head + 1, pop := q.pop.filter fun p => p != o.pr }).writeS o x.dst (s.popWord o q).1).popErr
            o x q (s.popWord o q).2).endQueue o x (.qpop x))) ∧
      (Clear s o (.qtry x) [] → s.mayQueue o = true → q.count = 0 →
        exec (.qtry x) s = .next (((s.begin o (.qtry x)).writeSS o x.dst 0).endQueue o x (.qtry x))) ∧
      (Clear s o (.qtry x) [] → s.mayQueue o = true → q.count ≠ 0 → s.lsAdmits o (q.slot q.head) 4 false = true →
        exec (.qtry x) s = .next ((((((s.begin o (.qtry x)).lsNote o (q.slot q.head) 4 false).setQueue o x
          { q with head := q.head + 1 }).writeSS o x.dst (2 ^ 32 + (s.popWord o q).1)).popErr o x q (s.popWord o q).2).endQueue
            o x (.qtry x)))

/-- GBAR arrives at the launch barrier with what its core releases and waits for the generation; ROSB of the record that
is due enters the section at once, and ROSE of a held section retires its ticket (R310 to R313). LAUNCH and GRUN
create a unit of work below the phase of the issuing launch and write its handle; CANCEL cancels the unit it names and
all below it, and has no effect where it names none (R314, R315). -/
def Obligations.OrderAndWorkInstructionsComplete : Prop :=
  (∀ (s : State) (o : Who) (x : CtlOp),
     (Clear s o (.gbar x) [] → o.u.allFit = true → s.accessesOut o = false →
       let b := s.begin o (.gbar x)
       let c := b.core o.g.core
       exec (.gbar x) s = .next (((((b.modUnit o.g.unit fun u => { u with gsig := sigJoin u.gsig (c.sig, c.z) }).afterRelease
         o.g.core).modWave o.pr.wave fun w => { w with gbar := true }).holdOn o.pr (.gbar x) 12))) ∧
     (Clear s o (.rosb x) [] → rosbTrap o x = none → ∀ t, o.w.tile = some t →
       (s.begin o (.rosb x)).rosDue o t = true →
       exec (.rosb x) s = .next ((s.begin o (.rosb x)).enterSection o x t)) ∧
     (Clear s o (.rose x) [] → streamTrap o = none → ∀ t, o.w.tile = some t → t.held = true → s.accessesOut o = false →
       exec (.rose x) s = .next (((s.begin o (.rose x)).retireTile o).finish o (.rose x)))) ∧
  (∀ (s s' : State) (o : Who) (x : CtlOp) (d : List Byte) (g : Snapshot) (bad : Bool),
     let at_ := o.spair x.a.num.toNat
     let parent := s.unitAbove o.g.unit .phase
     (Clear s o (.launch x) [] → at_.toNat % 256 = 0 → s.launchesLive o < 4096 → s.anyOut o = false →
       s.readFor o at_ 256 = (s', .ok (d, bad)) →
       exec (.launch x) s = .next ((s'.begin o (.launch x)).createUnit o x (.launch x)
         { o.u.child .launch ((s'.begin o (.launch x)).unitAbove o.g.unit .phase) at_ with
           words := if bad then [] else bytesWords d } bad)) ∧
     (Clear s o (.grun x) [] → at_.toNat % 64 = 0 → s.runsLive o.u.ctl o.u.ctx < 1024 → s.anyOut o = false →
       s.graphFor o at_ = (s', .ok (g, bad)) →
       let u := o.u.child .graph ((s'.begin o (.grun x)).unitAbove o.g.unit .phase) at_
       exec (.grun x) s = .next ((s'.begin o (.grun x)).createUnit o x (.grun x)
         { (if bad then { u with words := g.words } else u.withGraph g) with stage := 1 } bad)) ∧
     let cancels := fun (i : Instr) (unit : Option Nat) => Clear s o i [] →
       exec i s = .next ((match unit with | some u => (s.begin o i).cancelUnit u | none => s.begin o i).finish o i)
     cancels (.cancelHandle x) (s.byHandle o (s.scalar o x.a 0)) ∧ cancels (.cancelLaunch x) (some o.g.unit) ∧
     cancels (.cancelPhase x) parent ∧ cancels (.cancelJob x) (s.unitAbove o.g.unit .job))

/-! ### System instructions -/

/-- BRK takes BRK_INSTR with its immediate; TRAP takes TRAP_INSTR, precise, with the participating lanes as MASK, the
lowest as LANE, A as VAL and the immediate as AUX0, and with no participating lane it goes on (R376, R385). RETT finds
the trapped part by its record's id and answers 1 where there is none; REISSUE has it go on at the record's PC, SKIP
at the successor, or answers 2 for the traps that stand before an instruction is known, PC at Sp, and END has every
lane of it exit (R377). -/
def Obligations.TrapsAndReturns : Prop :=
  (∀ (s : State) (o : Who) (x : CtlOp),
     (Clear s o (.brk x) [] → Trapped s o (.brk x) { TrapInfo.plain 0x107 o.p.pc with val := x.imm }) ∧
     (Clear s o (.trap x) [] → o.lanes x.h ≠ 0 → x.a.cls ≠ .v → Trapped s o (.trap x)
       { TrapInfo.plain 0x106 o.p.pc with
         lane := maskLow (o.lanes x.h), mask := o.lanes x.h, val := s.scalar o x.a 0, aux0 := x.imm }) ∧
     (Clear s o (.trap x) [] → o.lanes x.h ≠ 0 → x.a.cls = .v → Trapped s o (.trap x)
       { TrapInfo.plain 0x106 o.p.pc with lane := maskLow (o.lanes x.h), mask := o.lanes x.h, aux0 := x.imm }) ∧
     (Clear s o (.trap x) [] → o.lanes x.h = 0 → exec (.trap x) s = .next ((s.begin o (.trap x)).finish o (.trap x)))) ∧
  (∀ (s : State) (o : Who) (x : CtlOp),
     let id := o.sval x.a
     let answers := fun (i : Instr) (t : State) (v : Nat) => exec i s = .next ((t.writeS o x.dst v).finish o i)
     let none1 := fun (i : Instr) (ends : Bool) => Clear s o i [] → s.rettWaits o id ends = false →
       (s.begin o i).trappedBy id = none → answers i (s.begin o i) 1
     none1 (.rettReissue x) false ∧ none1 (.rettSkip x) false ∧ none1 (.rettPc x) false ∧ none1 (.rettEnd x) true ∧
     ∀ (t : Who) (pc : Dword) (code : Nat),
       let found := fun (i : Instr) (ends : Bool) => Clear s o i [] ∧ s.rettWaits o id ends = false ∧
         (s.begin o i).trappedBy id = some (t, pc, code)
       (found (.rettReissue x) false → answers (.rettReissue x)
         ((s.begin o (.rettReissue x)).resumePart t pc false (code = 0x108)) 0) ∧
       (found (.rettSkip x) false → (code = 0 ∨ 4 < code) → answers (.rettSkip x)
         ((s.begin o (.rettSkip x)).resumePart t (successor pc) false false) 0) ∧
       (found (.rettSkip x) false → 1 ≤ code → code ≤ 4 → answers (.rettSkip x) (s.begin o (.rettSkip x)) 2) ∧
       (found (.rettPc x) false → let target := o.spair x.b.num.toNat
         answers (.rettPc x) ((s.begin o (.rettPc x)).resumePart t target (target != pc) (code = 0x108 && target = pc)) 0) ∧
       (found (.rettEnd x) true → answers (.rettEnd x) ((s.begin o (.rettEnd x)).endPart t pc) 0))

/-- Taking a trap: the part stops; with none of its counted instructions outstanding its frame is saved with STATE 2 and a
fresh id: the part header, the quad blocks and, of a wave's only part, the wave state, whose layout is left open (log
entry 3); then its record goes to its context's queue, at TAIL, which rises by 1, TRAPCNT rises by 1 up to its limit,
and the part is trapped with the record's id, PC and code (R363 to R366, R369). A trap waits for the part's counted
instructions to retire, and for the registers that its frame is to hold (log entry 65): until then the part has
stopped and nothing is written (R34, R363). -/
def Obligations.TrapEntry : Prop :=
  (∀ (s : State) (o : Who) (t : TrapInfo) (time : Time),
     let n := if o.u.ctl then 0 else o.u.ctx
     let s1 := (s.flushSigs o).unpin o
     let id := s1.trans.serial
     let whole := decide (o.w.parts.length ≤ 1)
     let opened := s1.nextSerial.1.account (clusterOf o.g.core) 0 3 1 (saveLines o whole)
     let header := opened.devWrite o.asid (o.frame + BitVec.ofNat 64 (128 * o.pr.part)) (headerBytes o 2 id) 8
     let blocks := (maskBits o.p.quads).foldl (fun (a : State × Bool) q =>
       let r := a.1.devWrite o.asid (o.frame + BitVec.ofNat 64 (4096 + q * quadBlock o.u))
         (quadBytes o.w o.u.valloc q (if q = o.pr.part then o.p.stack else [])) (quadBlock o.u / 16)
       (r.1, a.2 && r.2)) header
     let saved := if whole then ((blocks.1.devBlur o.asid (o.frame + 2048) 128).1,
       blocks.2 && (blocks.1.devBlur o.asid (o.frame + 2048) 128).2) else blocks
     let r := (saved.1.nextSeq o.g.core).1
     let record := trapBytes o t time id (saved.1.nextSeq o.g.core).2
     let put := r.putTrap o.g.core n record
     s.waves.get o.pr.wave = some o.w → o.w.parts.get o.pr.part = some o.p →
     (o.u.ctl = true → (s.trapQueue 0).isSome = true) → s.trapRoom o.g.core n = true →
     s.portWaits (clusterOf o.g.core) 0 10 = false → saved.2 = true →
     (∃ w p, (s.finishTrap o t time).waves.get o.pr.wave = some w ∧ w.parts.get o.pr.part = some p ∧
       p.status = .trapped id t.pc t.code ∧ w.v = o.w.v ∧ w.p = o.w.p ∧ w.s = o.w.s) ∧
     ((s.finishTrap o t time).core o.g.core).trapcnt =
       (if (s1.core o.g.core).trapcnt = BitVec.allOnes 32 then BitVec.allOnes 32 else (s1.core o.g.core).trapcnt + 1) ∧
     (put.2 ≠ .bad → s.finishTrap o t time = ((((put.1.modCore o.g.core fun c =>
         { c with trapcnt := if c.trapcnt = BitVec.allOnes 32 then c.trapcnt else c.trapcnt + 1 }).modPart o.pr fun p =>
         { p with status := .trapped id t.pc t.code, sigs := none, stall := 0 }).decide o 3 3 o.pr.part t.pc.toNat
           o.p.quads.toNat id.toNat).event o.g.core o.u
         { kind := 11, code := 0, wid := o.wid, part := o.pr.part, pc := t.pc.toNat, dseq := (o.w.seqs.dseq + 1).toNat,
           qmask := o.p.quads.toNat, data := t.code }).freezeOnTrap o) ∧
     ∀ base lg irq, r.trapQueue n = some (base, lg, irq) → put.2 = .done → (∀ k, (r.slice k).fixed = []) →
       r.link.fixed = [] →
       let tail := r.natAt (.dev base) 4
       (tail + 2 ^ 32 - r.natAt (.dev (base + 4)) 4) % 2 ^ 32 ≠ 2 ^ lg →
       put.1.bytesAt (.dev (base + 64 + 128 * (tail % 2 ^ lg))) 128 = record ∧
       put.1.natAt (.dev base) 4 = (tail + 1) % 2 ^ 32) ∧
  (∀ (s : State) (o o1 : Who) (t : TrapInfo), s.stoppers = [] →
     let s1 := s.modPart o.pr fun p => { p with status := .stopping t s.time, hold := .no, stall := 0, looked := false }
     s.who o.pr = some o → s1.who o.pr = some o1 →
     s.takeTrap o.pr t = if s1.counting o1 then s1 else s1.finishTrap o1 t s.time)

/-- TLBINV drops the entries that its form names from every TLB, has the entries of the ASIDs that it names read anew
(R335), and is complete at once where nothing translated through them is outstanding; else it waits for that with
stall reason 24 (R345). No TLB of the device holds an entry that TLBINV has dropped (R345). -/
def Obligations.TlbinvComplete : Prop :=
  (∀ (s : State) (o : Who) (x : CtlOp), s.anyOut o = false →
     let drops := fun (i : Instr) (asid : Option Nat) (va : Dword) (hit : TlbEntry → Bool) =>
       Clear s o i [] → o.p.hold ≠ .instr i → tlbTrap o asid va = none →
       let dropped := ((s.begin o i).dropEntries hit).forgetAsid asid
       (dropped.translatedOut asid s.fresh = false → exec i s = .next (dropped.finish o i)) ∧
       (dropped.translatedOut asid s.fresh = true →
         exec i s = .next ((dropped.modPart o.pr fun p => { p with timer := s.fresh }).holdOn o.pr i 24))
     let a := (s.scalar o x.a 0).toNat
     drops (.tlbinvAll x) none 0 (fun _ => true) ∧
     drops (.tlbinvAsid x) (some a) 0 (fun e => e.asid == a) ∧
     drops (.tlbinvPage x) (some a) (o.spair x.b.num.toNat) (fun e => e.covers a (o.spair x.b.num.toNat).toNat)) ∧
  (∀ (s : State) (hit : TlbEntry → Bool) (k : Nat) (e : TlbEntry),
     (e ∈ ((s.dropEntries hit).core k).tlb ↔ e ∈ (s.core k).tlb ∧ hit e = false) ∧
     (e ∈ ((s.dropEntries hit).cluster k).tlb ↔ e ∈ (s.cluster k).tlb ∧ hit e = false))

/-- ASSAY.PUT writes a record of kind 17 to the die's assay ring, ASSAY.FRZ and RUN freeze and free every die's, and MARK
records its event (R398, R399). HALT answers 1 for a number that names no context; SAVE halts the context and is done
when its groups are saved, GO lets it go on, RESET resets it and is done when the record that closes the reset is
written, and DEVICE saves every valid context; a part that has waited in SAVE, RESET or DEVICE is answered 0 once it
is done (R380). -/
def Obligations.RecordAndHaltInstructionsComplete : Prop :=
  (∀ (s : State) (o : Who) (x : CtlOp),
     (Clear s o (.assayPut x) [] → exec (.assayPut x) s = .next (((s.begin o (.assayPut x)).platform (dieOf o.g.core) 5
       (if o.u.ctl then 0 else o.u.ctx) (s.scalar o x.a 0).toNat (x.imm.toNat / 256 % 256)).finish o (.assayPut x))) ∧
     (Clear s o (.assayFrz x) [] → s.stoppers = [] → ∃ t, exec (.assayFrz x) s = .next t ∧
         ∀ d < 4, (t.die d).frozen = true) ∧
     (Clear s o (.assayRun x) [] → s.stoppers = [] → ∃ t, exec (.assayRun x) s = .next t ∧
         ∀ d < 4, (t.die d).frozen = false) ∧
     (Clear s o (.mark x) [] → (s.replayNext o.u o.g.core o.wid = none ∨ s.mayDecide o 10 = true) →
       exec (.mark x) s = .next (((s.begin o (.mark x)).event o.g.core o.u
         { kind := 10, code := x.imm.toNat % 256, wid := o.wid, part := o.pr.part, pc := o.p.pc.toNat,
           dseq := (((s.begin o (.mark x)).waves.get o.pr.wave).map fun w => w.seqs.dseq.toNat).getD 0,
           qmask := o.p.quads.toNat, data := (s.scalar o x.a 0).toNat }).finish o (.mark x)))) ∧
  (∀ (s : State) (o : Who) (x : CtlOp),
     let n := (s.scalar o x.a 0).toNat
     let answers := fun (i : Instr) (t : State) (v : Nat) => exec i s = .next ((t.writeS o x.dst v).finish o i)
     let ready := fun (i : Instr) => Clear s o i [] ∧ o.p.hold ≠ .instr i
     (∀ i ∈ [Instr.haltSave x, .haltGo x, .haltReset x], ready i → s.ctxValid n = false → answers i (s.begin o i) 1) ∧
     (ready (.haltSave x) → s.ctxValid n = true → ((s.begin o (.haltSave x)).haltCtx n).haltDone n = true →
       answers (.haltSave x) ((s.begin o (.haltSave x)).haltCtx n) 0) ∧
     (ready (.haltGo x) → s.ctxValid n = true → answers (.haltGo x) ((s.begin o (.haltGo x)).goCtx n) 0) ∧
     (ready (.haltReset x) → s.ctxValid n = true → exec (.haltReset x) s =
       .next (((s.begin o (.haltReset x)).beginReset false n).holdOn o.pr (.haltReset x) 2)) ∧
     (ready (.haltDevice x) →
       ((s.begin o (.haltDevice x)).haltAll.validCtxs.all (s.begin o (.haltDevice x)).haltAll.haltDone) = true →
       answers (.haltDevice x) (s.begin o (.haltDevice x)).haltAll 0) ∧
     (Waits s s.cur o (.haltSave x) → s.haltDone n = true → answers (.haltSave x) s 0) ∧
     (Waits s s.cur o (.haltReset x) → s.resetDone n = true → answers (.haltReset x) s 0) ∧
     (Waits s s.cur o (.haltDevice x) → s.validCtxs.all s.haltDone = true → answers (.haltDevice x) s 0))

/-! ### Events of parts that wait -/

/-- A part that waits goes on by its own event once its condition holds: the line's wait mask (R33), the second copy of a
line (R27), WAITN, whose threshold it has read at its issue (R273), SLEEP (R274), FENCE and FENCEX (R203, R224), MWAIT
for the batch that it has read at its issue (R120), and MACQ, which takes ACC_TOKEN when the knit timeout has passed
(R118). The last exit of a wave resumes when nothing of the wave is outstanding: with no fault waiting the wave ends,
else the oldest fault is taken in its place (R272, R437). -/
def Obligations.WaitingPartsGoOn : Prop :=
  (∀ (s t : State) (p : PartRef) (o : Who) (l : FetchedLine) (x : CtlOp) (y : EngOp),
     (s.who p = some o → o.p.status = .resident → o.p.hold = .lineMask → o.p.line = some l →
       s.maskHolds o (lineMask l.bits) = true →
       s.raisePending o (fun n => (lineMask l.bits).getLsbD n) o.p.pc = none →
       exec (.lineWaitRelease p) s = .next (s.modPart p fun q => { q with hold := .no, stall := 0 })) ∧
     (s.who p = some o → o.p.status = .resident → o.p.hold = .refetch → pinned o.p (lineBase o.p.pc) = none →
       (s.fillTlbs o.g.core o.asid [lineBase o.p.pc]).2 = false →
           s.portWaits (clusterOf o.g.core) o.netClass 4 = false →
       ∀ b, s.fetchLine o (lineBase o.p.pc) = (t, .line b) →
       (lineOdd b = false → exec (.lineRefetch p) s = .next (t.enterChecked o b)) ∧
       (lineOdd b = true → lineKind b = 0 →
         exec (.lineRefetch p) s = .next (t.takeTrap o.pr (TrapInfo.plain 0x003 o.p.pc)))) ∧
     (Waits s p o (.waitn x) →
       (∀ q, q ∈ maskBits o.p.quads → s.count o.pr.wave (x.imm.toNat % 16) q ≤ o.p.arg.toNat) →
       s.raisePending o (fun n => n = x.imm.toNat % 16) o.p.pc = none →
       exec (.waitnRelease p) s = .next (s.finish o (.waitn x))) ∧
     (Waits s p o (.sleep x) → o.p.timer = 0 → exec (.sleepExpiry p) s = .next (s.finish o (.sleep x))) ∧
     (Waits s p o (.fence x) → s.fenceWaits o x = false → exec (.fenceWaitDone p) s = .next (s.passFence o x)) ∧
     (Waits s p o (.fencex x) → s.fencexWaits o x = false → exec (.fencexWaitDone p) s = .next (s.passFencex o x)) ∧
     (Waits s p o (.mwait y) → s.batchDone p.wave (y.mod.toNat % 4) o.p.timer = true →
       exec (.mwaitRelease p) s = .next (s.passMwait o y (y.mod.toNat % 4) o.p.timer)) ∧
     (Waits s p o (.macq y) → s.mayGrant o y.dst.num.toNat = true →
       (∀ q ∈ s.macqWaiters o.w.group y.dst.num.toNat, o.p.stamp ≤ q.2.stamp) →
       exec (.macqGrant p) s = .next (s.grant o y)) ∧
     (Waits s p o (.macq y) → o.p.timer = 0 → fmuHolds o.g y.dst.num.toNat = false →
       exec (.macqTimeout p) s = .next (s.takeTrap o.pr (TrapInfo.plain 0x201 o.p.pc)))) ∧
  (∀ (s : State) (p : PartRef) (o : Who) (x : CtlOp), Waits s p o (.exit x) → lastExit o (o.lanes x.h) = true →
     s.exitWait o = none →
     (firstFault o = none → exec (.lastExitResume p) s = .next ((s.exitLanes o (o.lanes x.h)).endWave o)) ∧
     ∀ t w, firstFault o = some (t, w) →
       exec (.lastExitResume p) s = .next ((s.modWave o.pr.wave fun _ => w).takeTrap o.pr t))

/-- A part that spills goes on once the entries deeper than the 8 nearest the top lie in its frame block, 32 bytes each;
one that refills first reads the entry that came into reach; a failing access resets the context (R252, R363).
MISS_CUT cuts the part at a WAITN whose condition holds in some of its quads alone, once its delay has passed and CUTP
allows it: those quads go on past the WAITN and the others wait with a fresh delay (R255). -/
def Obligations.SpillsAndMissCuts : Prop :=
  (∀ (s t u : State) (p : PartRef) (o : Who), s.who p = some o → o.p.status = .resident →
     let deep := fun (s : State) => (o.p.stack.drop 8).zipIdx.foldl (fun (r : State × Bool) e =>
       if r.2 then
         r.1.devWrite o.asid (o.frame + BitVec.ofNat 64 (4096 + o.pr.part * quadBlock o.u + 16 * o.u.valloc + 512 +
             32 * (o.p.stack.length - 9 - e.2)))
           (leBytes 8 e.1.pc.toNat ++ leBytes 8 e.1.mask.toNat ++ leBytes 4 e.1.fmt.toNat ++ leBytes 12 0) 2
       else r) (s, true)
     let goesOn := fun (t : State) => exec (.stackSpillDone p) s =
       .next (t.modPart p fun q => { q with hold := .no, stall := 0 })
     (o.p.hold = .spill true → deep s = (t, true) → goesOn t) ∧
     (o.p.hold = .spill true → deep s = (t, false) →
       exec (.stackSpillDone p) s = .next (t.beginReset o.u.ctl o.u.ctx)) ∧
     (o.p.hold = .spill false → ∀ b, s.devRead o.asid (o.frame + BitVec.ofNat 64 (4096 + o.pr.part * quadBlock o.u +
         16 * o.u.valloc + 512 + 32 * (o.p.stack.length - 8))) 2 = (u, .ok b) → deep u = (t, true) → goesOn t)) ∧
  (∀ (s : State) (p : PartRef) (o c : Who) (x : CtlOp) (k : Nat), Waits s p o (.waitn x) →
     let q := s.satisfied o (x.imm.toNat % 16) o.p.arg.toNat
     q ≠ 0 → q ≠ o.p.quads → o.p.timer = 0 → o.cutp.getLsbD 1 = true → s.reserveOut p.wave = false →
     s.replayAllows p.wave 1 q = true → s.freeSlot o.u o.g.unit o.g.core o.w.sched = some k →
     let t := (s.cut o q o.p.pc o.p.pc 1 k).modPart { wave := p.wave, part := lowQuad (o.p.quads &&& ~~~ q) } fun r =>
       { r with timer := 2 ^ (o.cutp.toNat / 16 % 16) }
     t.who { wave := p.wave, part := lowQuad q } = some c → exec (.missCut p) s = .next (t.passWaitn c x))

/-- KNIT_FUSE and KNIT_TIMEOUT fuse the parts that wait in an episode and move the fused part past its KNIT; after a
timeout the live parts that wait in no episode are late. An implicit knit fuses too: its instruction issues where the
fused part holds the quads that it asks for, and WIDTH is raised before it where it does not, or where the timeout
comes before the quads are together (R258 to R262). In replay the clock does not count, and the parts that the record
names fuse (R395). A part that joins another gives it its quads and lanes; two parts match for a knit when their
stacks have the same depth and entry PCs and their repeats agree (R259, R261). -/
def Obligations.KnitsFuse : Prop :=
  (∀ (s : State) (wave : Nat) (pc : Dword) (impl : Bool) (w : Wave) (e : Episode) (code : Nat) (t : State) (pr : PartRef)
     (bad : List Nat) (o : Who), s.episodeAt wave pc impl = some (w, e) → t.who pr = some o →
     let k := s.logged wave w e
     let narrow := fun (t : State) => t.takeTrap o.pr
       { TrapInfo.plain 0x008 o.p.pc with val := BitVec.ofNat 32 (k.needs w), evt := some 7 }
     (impl = false → e.full w = true → e.here w = true → s.replayAllows wave 3 (episodeQuads w e) = true →
       s.fuse wave e 3 = (t, pr, bad) → exec (.knitFuse wave pc) s = .next ((t.advance pr).settle)) ∧
     (k.here w = true → s.replayAllows wave code (episodeQuads w k) = true →
       (s.leaveKnit wave e k).fuse wave k code = (t, pr, bad) →
       (impl = false → code = 4 → (s.inReplay wave w = true ∨ e.timer = 0 ∧
           e.full w = false) → s.reserveOut wave = false →
         let u := t.lateRest wave (pr.part :: bad)
         (u.who pr).isSome = true → exec (.knitTimeout wave pc) s = .next ((u.advance pr).settle)) ∧
       (impl = true → code = 6 → k.meets w = true → k.needs w ≤ maskCount o.p.quads →
         exec (.implicitKnitFuse wave pc) s = .next t) ∧
       (impl = true → code = 6 → k.meets w = true → maskCount o.p.quads < k.needs w →
         exec (.implicitKnitFuse wave pc) s = .next (narrow (t.waveEvent o 7 o.p.quads o.p.pc))) ∧
       (impl = true → code = 7 → (e.timer = 0 ∨ s.inReplay wave w = true) → s.reserveOut wave = false →
           k.meets w = false →
         exec (.implicitKnitTimeout wave pc) s = .next (narrow t)))) ∧
  (∀ a b : Part,
     (fusePart a b).quads = a.quads ||| b.quads ∧ (fusePart a b).active = a.active ||| b.active ∧
     (fusePart a b).pc = a.pc ∧ (fusePart a b).rep = a.rep ∧
     (∀ i, i ∈ (fusePart a b).prior ↔ i ∈ a.prior ∨ i ∈ b.prior) ∧
     (knitMatch a b = true ↔ a.stack.map (·.pc) = b.stack.map (·.pc) ∧
       (a.rep = none ∧ b.rep = none ∨ ∃ r q, a.rep = some r ∧ b.rep = some q ∧ r.start = q.start ∧ r.stop = q.stop ∧
         r.rem = q.rem)))

/-- A MONW or CCWAIT that waits looks again, past the L1, when a write to its sector has been performed or 4,096 clocks
have passed; where its condition holds then it goes on as it would have at its first look (R204, R316). A part that
waits at a barrier, a queue, the raster order or the tile stream goes on by its event: BWAIT once the phase is not its
token's, QPUSH with allowance, QPOP with a handle, ROSB when its record is due, TILEQ with a ready record or, at the
end of the stream, the end record (R305, R308, R312, R313, R173). Two waves of partner groups, paired at the latest by
this event, that wait in their n-th XSHUF of a key exchange: each lane receives the other wave's value where the
other's lane participates and its own elsewhere, and both go on; waves of different width take XSHUF_SHAPE; a wave
that has waited for the knit timeout takes XSHUF_TIMEOUT (R100, R101). -/
def Obligations.SyncWaitsEnd : Prop :=
  (∀ (s s' t : State) (p : PartRef) (o : Who) (x : MemOp) (y : CtlOp) (q : Piece) (d : ReadOut),
     let wakes := fun (again : Prop) => again ∨ (∀ a, q.loc ≠ .host a)
     (Waits s p o (.monw x) → s.monCheck o x = (s', .ok [q]) →
       let op := memOp o x 0 .load [q]
       s'.admits o.g o.u op q false = true → (op.scope = 5 → s'.snooping q = false) → s'.lookWaits o = false →
       (s'.lookOut o op q).readPiece o.g.core o.u.mode x.space.toNat (max 2 op.scope) x.evict.toNat q = (t, d) →
       d.errs.any (fun e => e != 0) = false → monHolds o x d.data = true →
       let u := (t.noteRun o.g o.u op q false).noteHint o.u.ctx x.evict.toNat q
       let r := (if x.ord = 1 then u.receive o.g.core op true d.sig
         else u.modPart o.pr fun z => { z with sigs := joinSigs z.sigs (some d.sig) }).finish o (.monw x)
       (wakes False → exec (.monwWake p) s = .next r) ∧ (o.p.timer = 0 → exec (.monwPollExpiry p) s = .next r)) ∧
     (Waits s p o (.ccwait y) → s.ccCheck o y = (s', .ok [q]) →
       s'.admits o.g o.u (ccOp o [q]) q false = true → s'.lookWaits o = false →
       (s'.lookOut o (ccOp o [q]) q).readPiece o.g.core o.u.mode 0 3 0 q = (t, d) →
       d.errs.any (fun e => e != 0) = false → (o.sval2 y.b).toNat ≤ leNat d.data →
       let r := (((t.noteRun o.g o.u (ccOp o [q]) q false).receive o.g.core (ccOp o [q]) true d.sig).writeSS o y.dst
         (leNat d.data)).finish o (.ccwait y)
       (wakes False → exec (.ccwaitWake p) s = .next r) ∧ (o.p.timer = 0 → exec (.ccwaitPollExpiry p) s = .next r))) ∧
  (∀ (s : State) (p : PartRef) (o : Who) (x : CtlOp) (y : EngOp) (q : Queue),
     let a := (o.sreg x.a.num.toNat).toNat
     (Waits s p o (.bwait x) → (s.readBarr o.w.group a).phase ≠ (s.scalar o x.b 0).toNat % 2 ^ 16 →
       s.barrBad o.w.group a = false → s.lsAdmits o a 16 false = true → s.barrFault o x = (s, none) →
       exec (.bwaitPass p) s = .next ((s.lsNote o a 16 false).finish o (.bwait x))) ∧
     (Waits s p o (.qpush x) → o.queue x = some q → s.canPush o q = true →
       exec (.qpushResume p) s = .next ((((s.setBytes (.ls o.w.group (q.slot q.tail)) (leBytes 4 (s.scalar o x.a 0).toNat)).lsNote
         o (q.slot q.tail) 4 true).setQueue o x { q with
           tail := q.tail + 1, allow := q.allow.put o.w.index ((q.allow.get o.w.index).getD 0 - 1),
           push := q.push.filter fun p => p != o.pr }).endQueue o x (.qpush x))) ∧
     (Waits s p o (.qpop x) → o.queue x = some q → s.canPop o q = true →
       exec (.qpopResume p) s = .next (((((s.lsNote o (q.slot q.head) 4 false).setQueue o x
         { q with head := q.head + 1, pop := q.pop.filter fun p => p != o.pr }).writeS o x.dst (s.popWord o q).1).popErr o x q
           (s.popWord o q).2).endQueue o x (.qpop x))) ∧
     (Waits s p o (.rosb x) → ∀ t, o.w.tile = some t → s.rosDue o t = true →
       exec (.rosbAdmit p) s = .next (s.enterSection o x t)) ∧
     (Waits s p o (.tileq y) →
       let cl := clusterOf o.g.core
       let ready := s.readyRecs cl o.u.draw (o.u.peer.getD 0)
       (∀ k r, ready[k]? = some r → exec (.tileRecordHandout p k) s = .next ((s.takeRec cl r).1.landRec o y
         { words := (s.takeRec cl r).2.words, ticket := (s.takeRec cl r).2.ticket, held := false, done := false })) ∧
       (∀ k, ready[k]? = none → s.streamOver cl o.u.draw (o.u.peer.getD 0) = true →
         exec (.tileRecordHandout p k) s = .next (s.landRec o y endRec)))) ∧
  (∀ (r : State) (o q : Who) (x y : XlOp) (e f : XPair),
     let s := r.seekPair o.pr.wave
     let key := s.xkey o x
     (s.xwaiter o.pr.wave = some (o, x) → s.xwaiter q.pr.wave = some (q, y) → s.xkey q y = key → o.g.unit = q.g.unit →
       pairOf o.u key o.w.group = some e → pairOf o.u key q.w.group = some f →
       e.partner = some q.w.group → f.partner = some o.w.group → o.w.index = q.w.index →
       e.made o.w.index = f.made q.w.index →
       (o.w.nquads = q.w.nquads →
         exec (.xshufMatch o.pr.wave q.pr.wave) r = .next ((((((s.writeDst o x.dst x.ty.isWide (o.lanes x.h) fun l =>
           if (q.lanes y.h).getLsbD l then s.xval q y.ty y.a l else s.xval o x.ty x.a l).writeDst q y.dst y.ty.isWide
           (q.lanes y.h) fun l => if (o.lanes x.h).getLsbD l then s.xval o x.ty x.a l else s.xval q y.ty y.a l).modUnit
           o.g.unit fun u => modPair key o.w.group (fun e => e.count o.w.index false)
             (modPair key q.w.group (fun e => e.count o.w.index false) u)).finish o (.xshuf x)).finish q (.xshuf y)))) ∧
       (o.w.nquads ≠ q.w.nquads →
         exec (.xshufMatch o.pr.wave q.pr.wave) r =
           .next ((s.xshufTrap o key 0x104 false).xshufTrap q key 0x104 false))) ∧
     (Waits r o.pr o (.xshuf x) → o.p.timer = 0 →
       exec (.xshufTimeout o.pr) r = .next (r.xshufTrap o (r.xkey o x) 0x105 true)))

/-! ### Events of operations -/

/-- With no piece named, LOAD_COMPLETE reads every piece that is left and lands the load's registers; PREFETCH_PLACED is
complete whether its line is placed, in the L1 at scopes 0 and 1, or dropped; LDW_COMPLETE reads its words and writes
them to the local store (R193 to R195, R199, R200). A load without errors writes, in each of its lanes, the registers
of its run with its bytes, extended as its type says, and no other register (R190, R193). -/
def Obligations.LoadsPerform : Prop :=
  (∀ (s : State) (id : Nat) (x : Op) (g : Group) (u : WorkUnit),
     (Live s id .load x g u → s.mayPerform g u x false (x.piecesAt (x.pick [])) = true →
       let r := (s.tellFabric u x false (x.piecesAt (x.pick []))).readInto g.core u.mode x
         (fun s p => (s.noteRun g u x p false).noteHint u.ctx x.hint p) (x.indexed (x.pick []))
       r.2.opens = [] ∧ exec (.loadComplete id []) s = .next (r.1.landLoad g r.2)) ∧
     (Live s id .prefetch x g u → s.heldBack id = false → exec (.prefetchPlaced id true) s = .next (s.opDone id) ∧
       (1 < x.scope → exec (.prefetchPlaced id false) s = .next ((x.pieces.foldl (fun s p => match p.loc with
         | .dev a => s.noteKeep u.ctx a x.hint
         | _ => s) s).opDone id)) ∧
       (x.scope ≤ 1 → exec (.prefetchPlaced id false) s = .next ((x.pieces.foldl (fun s p => match p.loc with
         | .dev a => (List.range 4).foldl (fun s i =>
           (s.l1Read g.core (if x.misc = 4 then .const else .global) (l1Keeps x.hint) (a / 128 * 128 + 32 * i) 1).1)
             (s.noteKeep u.ctx a x.hint)
         | _ => s) s).opDone id))) ∧
     (Live s id .ldw x g u →
       let n := (nth x.args 0).toNat
       let named := (x.pick []).filter fun i => i < n
       let src := (if named = [] then [] else x.pickAll false named).filter fun i => i < n
       let dst := (x.indexed (x.pick [])).filter fun e => n ≤ e.1
       let r := (s.tellFabric u x false (x.piecesAt src)).readInto g.core u.mode x
         (fun s p => (s.noteRun g u x p false).noteHint u.ctx x.hint p) (x.indexed src)
       let y := { r.2 with seen := dst.foldl (fun t e => Tbl.put t e.1 []) r.2.seen }
       s.mayPerform g u x false (x.piecesAt src ++ dst.map fun e => e.2) = true →
       let t := (dst.foldl (fun s e => (s.setBytes e.2.loc (ldwBytes r.2 n e.2)).noteRun g u x e.2 true) r.1).modOp id fun _ => y
       exec (.ldwComplete id []) s = .next (if y.opens = [] then t.ldwDone g y n else t))) ∧
  (∀ (w : Wave) (x : Op), x.acc = [] →
     (w.landV x).p = w.p ∧ (w.landV x).s = w.s ∧ (w.landV x).errs = w.errs ∧ ∀ r l, l < 64 → (w.landV x).vreg r l =
       if x.mask.getLsbD l ∧ x.dst.num.toNat ≤ r ∧ r < x.dst.num.toNat + x.span
       then nth (loadWords x.code (laneData x l).1) (r - x.dst.num.toNat) else w.vreg r l)

/-- STORE_PERFORMED with no piece named performs every piece that is left and retires the store; every byte outside its
pieces reads as before, and where the pieces are apart each byte of a piece reads as stored (R182, R191, R213). -/
def Obligations.StoresPerform : Prop :=
  ∀ (s : State) (id : Nat) (x : Op) (g : Group) (u : WorkUnit), Live s id .store x g u → x.seen = [] → x.misc ≠ 2 →
    (∀ p ∈ x.pieces, match p.loc with | .ctrl _ => False | .ls k _ => (s.groups.get k).isSome = true | _ => True) →
    u.mode < 2 → (∀ k, (s.slice k).fixed = []) → s.link.fixed = [] → s.stoppers = [] →
        s.mayPerform g u x true x.pieces = true →
    ∃ t, exec (.storePerformed id []) s = .next t ∧
      ((s.ops.map (·.id)).Nodup → ∀ y ∈ t.ops, y.id = id → y.done = true) ∧
      (∀ l, (∀ p ∈ x.pieces, ∀ i, i < p.data.length → p.loc.add i ≠ l) → t.byteAt l = s.byteAt l) ∧
      (x.pieces.Pairwise (fun p q => ∀ i j, i < p.data.length → j < q.data.length → p.loc.add i ≠ q.loc.add j) →
        ∀ p ∈ x.pieces, ∀ i, i < p.data.length → t.byteAt (p.loc.add i) = p.data.getD i 0)

/-- ATOMIC_STEP with no lane named performs every lane's step that is left, in ascending order, and completes the atomic;
an accumulator of fixed-order mode leaves a full spill region by FIXED_ORDER_RESOLVE, which FOFULL counts and, where
the context logs, a record of kind 13 tells (R232, R233, R235, R397). What the step of an atomic stores (R229, R230,
R232): sums modulo the width, minimum and maximum as signed and as natural numbers, bitwise operations, the exchanged
operand, one rounded sum of F32, F64 or of two BF16, for the 64-bit codes over operands of 64 bits; a compare-and-swap
of either width stores its swap value where the old value is the comparand and nothing else. -/
def Obligations.AtomicsPerform : Prop :=
  (∀ (s : State) (id : Nat) (x : Op) (g : Group) (u : WorkUnit) (kind : OpKind),
     ((kind = .atom ∨ kind = .red) → Live s id kind x g u → s.atomMay g u x (x.pick []) = true →
       let t := (x.pick []).foldl (fun s i => (s.tellFabric u x x.carries (x.piecesAt [i])).atomStep g u id i) s
       exec (.atomicStep id []) s = .next (match t.op id with
         | some y => if y.opens = [] then t.atomDone g y else t
         | none => t)) ∧
     ∀ (sector : Nat) (e : FixedEntry), s.fixedAt (.dev (32 * sector)) = some e →
       let lg := (nth (s.logWords e.ctx) 0).toNat % 32
       (if lg = 0 then 0 else 2 ^ lg) < s.fixedCount e.ctx →
       let t := s.resolveFixed (.dev (32 * sector))
       let at_ := Loc.dev (t.tables.lgtab + 64 * e.ctx + 46)
       let v := t.setNat at_ 2 (min (t.natAt at_ 2 + 1) 65535)
       let k := homeSlice (32 * sector)
       let told := fun (w : WorkUnit) => (v.ringPut none (w.mring k) w.msize (evBytes v.time.toNat (v.slice k).seq.toNat (512 + k)
         { kind := 13, code := 0, wid := 0, part := 0, pc := 32 * sector, dseq := 0, qmask := 0, data := 0 })).modSlice k
           fun sl => { sl with seq := sl.seq + 1 }
       exec (.fixedOrderResolve sector) s = .next (match v.loggingUnit e.ctx with
         | some w => told w
         | none => v)) ∧
  (∀ (a b c : Nat),
     let signed := fun (v : Nat) => (BitVec.ofNat 32 v).toInt
     let sum := fun (f : FloatFmt) (x y : Nat) => ((unpack f x).add false (unpack f y)).pack f .rn
     (a < 2 ^ 32 → b < 2 ^ 32 →
       atomResult 0 a b = (a + b) % 2 ^ 32 ∧
       signed (atomResult 2 a b) = min (signed a) (signed b) ∧ atomResult 3 a b = min a b ∧
       signed (atomResult 4 a b) = max (signed a) (signed b) ∧ atomResult 5 a b = max a b ∧
       atomResult 8 a b = a &&& b ∧ atomResult 9 a b = a ||| b ∧ atomResult 10 a b = a ^^^ b ∧
       atomResult 11 a b = b ∧ atomResult 13 a b = sum .f32 a b ∧
       atomResult 14 a b = sum .bf16 (a % 65536) (b % 65536) + sum .bf16 (a / 65536) (b / 65536) * 65536 ∧
       atomWrites 16 a b c = (if a = b then some c else none)) ∧
     (a < 2 ^ 64 → b < 2 ^ 64 →
       atomResult 1 a b = (a + b) % 2 ^ 64 ∧ atomResult 6 a b = min a b ∧ atomResult 7 a b = max a b ∧
       atomResult 12 a b = b ∧ atomResult 15 a b = sum .f64 a b ∧
       atomWrites 17 a b c = (if a = b then some c else none) ∧
       ∀ k, k < 16 → atomWrites k a b c = some (atomResult k a b)))

/-- COPY_WRITE_PERFORMED with nothing named reads and writes every sector that is left; COPY_COMPLETE subtracts what was
not selected at the barrier, or writes the stamp, and closes the copy; WSWRITE_COMPLETE writes the window;
WS_WINDOW_END lets go of the parts that waited for the bank (R131, R150, R237 to R243). A delivery of a multicast
writes its pieces at its member, or for MRED combines them there, drains the group by one, and with the last the
operation is done; one that another device loses is a fault of the operation (R246, R354, R355). -/
def Obligations.CopiesAndDeliveriesPerform : Prop :=
  (∀ (s : State) (id : Nat) (x : Op) (g : Group) (u : WorkUnit),
     let n := x.arg 0
     let left := (List.range n).filter fun i => (x.seen.get (n + i)).isNone
     (Live s id .copy x g u → s.copyTurn g x = true →
       let reads := x.sources (left.filter fun i => (x.seen.get i).isNone)
       s.clearOf x (x.countPiece ++ x.piecesAt (reads ++ left ++ left.map fun i => n + i)) = true →
       exec (.copyWritePerformed id []) s = .next (left.foldl (fun s i => s.copyWrite g u id i)
         (reads.foldl (fun s i => s.copyFetch id i)
           ((s.startCopy g x).tellFabric u x false (x.piecesAt (reads ++ left.map fun i => n + i)))))) ∧
     (Live s id .copy x g u → s.copyHead g x = true → (∀ i, i < n → (x.seen.get (n + i)).isSome = true) →
       let stamp := x.pieces.drop (2 * n)
       s.clearOf x (x.countPiece ++ stamp) = true → (stamp = [] ∨ s.releaseReady x = true) →
       (x.scope = 5 → ∀ p ∈ stamp, s.snooping p = false) →
       let t := (s.startCopy g x).tellFabric u x true stamp
       (x.arg 1 = 0 → exec (.copyComplete id) s = .next
         ((if x.arg 6 = 0 then t else t.countDown x (x.arg 6)).closeCopy g x (copyFaults x))) ∧
       (x.arg 1 ≠ 0 → x.seen.get (2 * n) = none →
         exec (.copyComplete id) s = .next ((t.writeStamp g x).closeCopy g x (copyFaults x)))) ∧
     (Live s id .wsWrite x g u → s.clearOf x x.pieces = true → s.mem.bad = [] → x.acc = [] →
       (∀ i p q, i < n → x.pieces[i]? = some p → x.pieces[n + i]? = some q → (∀ a, p.loc ≠ .ctrl a) ∧
           ∃ d a, q.loc = .ws d a) →
       exec (.wswriteComplete id) s = .next (((List.range n).foldl (fun s i =>
         match x.pieces[i]?, x.pieces[n + i]? with
         | some p, some q => (s.readAt p.loc p.len).1.setBytes q.loc (s.readAt p.loc p.len).2
         | _, _ => s) (s.tellFabric u x false x.pieces)).opDone id)) ∧
     (∀ die bank pr o, s.windows bank = [] → s.parts = [pr] → s.who pr = some o → o.p.stall = 19 →
         dieOf o.g.core = die →
       s.turnsFor o (fun _ => true) = false → exec (.wsWindowEnd die bank) s =
         .next (s.modPart pr fun p => { p with stall := plainReason p }))) ∧
  (∀ (s : State) (id member : Nat) (x : Op) (g : Group) (u : WorkUnit) (e : Nat × Piece) (l : List (Nat × Piece)),
     (x.indexed ((x.pick []).filter fun i => match x.pieces[i]? with
       | some p => p.goesTo s.link.devid.toNat member
       | none => false)) = e :: l →
     s.clearOf x (e.2 :: l.map (·.2)) = true → (x.releases = true → s.releaseReady x = true) →
     (∀ d ∈ e :: l, s.admits g u x d.2 true = true ∧ s.ticketTurn g u x d.2 = true) →
     let drained := fun (t : State) => (t.modColl (collAddr e.2.va).1 fun c => { c with drain := c.drain - 1 }).modOp id
       fun y => { y with seen := (e :: l).foldl (fun t d => Tbl.put t d.1 []) y.seen }
     let closed := fun (t : State) => match t.op id with
       | some y => if y.opens = [] then (if x.carries then t.afterRelease g.core else t).opDone id else t
       | none => t
     let lost := fun (code cause : Nat) (t : State) (aux : Word) => t.castFault x code cause (member / 256) e.2.va aux
     (Live s id .mcst x g u → exec (.mcstDeliveryPerformed id member false) s = .next (closed (drained
       ((e :: l).foldl (fun t d => (t.tellFabric u x x.carries [d.2]).castWrite g u x d.2) s)))) ∧
     (Live s id .mred x g u → exec (.mcstDeliveryPerformed id member false) s = .next (closed (drained
       ((e :: l).foldl (fun t d =>
         let r := (t.tellFabric u x x.carries [d.2]).castReduce g u x d.2
         if r.2 then lost 0x601 4 r.1 0 else r.1) s)))) ∧
     (Live s id .mcst x g u ∨ Live s id .mred x g u → member % 256 ≠ s.link.devid.toNat →
       exec (.mcstDeliveryPerformed id member true) s =
         .next (closed (drained (lost 0x609 0 s (BitVec.ofNat 32 (Config.fabricPort (member % 256))))))))

/-- FMU_OPERANDS_CONSUMED with nothing named reads every operand sector and retires the counter; FMU_OP_COMPLETE of the
oldest operation of its core gives an MMA's tile its result, or, where a sector or a cell that it accumulates on was
in error, zeros and MATRIX_DATA at its batch, and writes a drain's tile, zeros where a cell is in error (R110, R111,
R115, R119, R122). The ternary array's operations: their source sectors are read, TMAC, TDRAIN and TZERO start once
what they depend on is complete, a TWLD fills its plane, a TMAC is complete after those before it, a TDRAIN writes its
sectors, and a TZERO clears its accumulator or plane (R132, R133, R136, R140, R143 to R146). -/
def Obligations.EngineOperationsComplete : Prop :=
  (∀ (r : State) (id : Nat) (x : Op) (g : Group) (u : WorkUnit),
     ((Live r id .mma x g u ∨ Live r id .mmas x g u) →
       (r.clearOf x (x.piecesAt (x.pick [])) = true →
         let t := (x.pick []).foldl (fun s i => s.fetchPiece id i) (r.tellFabric u x false (x.piecesAt (x.pick [])))
         exec (.fmuOperandsConsumed id []) r = .next (match t.op id with
           | some y => if y.opens = [] then t.retireCount y else t
           | none => t)) ∧
       (r.fmuHead g x = true → x.opens = [] → x.acc = [] → (x.arg 3 = 1 ∨ g.tilesBad x.tiles = false) →
         exec (.fmuOpComplete id []) r = .next ((r.modGroup x.group fun g => g.matrix x).opDone id)) ∧
       (r.fmuHead g x = true → x.opens = [] → (x.acc ≠ [] ∨ x.arg 3 ≠ 1 ∧ g.tilesBad x.tiles = true) →
         exec (.fmuOpComplete id []) r = .next
           (((r.modGroup x.group fun g => g.zeroTiles x.tiles).batchFault x 0 0x602 x.dst.num.toNat 0 0 0).opDone id))) ∧
     (Live r id .mdrain x g u → r.fmuHead g x = true → r.clearOf x (x.piecesAt (x.pick [])) = true → x.seen = [] →
       let s := r.tellFabric u x false (x.piecesAt (x.pick []))
       let written := fun (s : State) (g : Group) (x : Op) => ((x.indexed (x.pick [])).foldl (fun s e =>
         s.engineWrite g.core e.2.loc (((g.drained x).drop e.2.off).take e.2.len)) s).modOp
           id fun _ => { x with seen := (x.pick []).foldl (fun t i => Tbl.put t i []) [] }
       (x.acc = [] → g.tilesBad x.tiles = false → exec (.fmuOpComplete id []) r = .next
         ((if x.arg 1 = 1 then (written s g x).modGroup x.group fun g => g.zeroTiles x.tiles else written s g x).opDone id)) ∧
       (g.tilesBad x.tiles = true → exec (.fmuOpComplete id []) r = .next
         ((((written (s.modGroup x.group fun g => g.zeroTiles x.tiles) (g.zeroTiles x.tiles)
           { x with acc := x.acc.put 0 [1] }).modGroup x.group fun g => g.zeroTiles x.tiles).batchFault
             { x with acc := x.acc.put 0 [1] } 0 0x602 x.dst.num.toNat 0 0 0).opDone id)))) ∧
  (∀ (s : State) (id : Nat) (x : Op) (g : Group) (u : WorkUnit) (kind : OpKind),
     let after := (s.taBefore g x).any x.precedes = false
     ((kind = .twld ∨ kind = .tmac) → Live s id kind x g u →
       let l := x.readOnly (x.pick [])
       s.clearOf x (x.piecesAt l) = true → s.notTurning (x.piecesAt l) = true →
       let t := l.foldl (fun s i => s.taFetch id i) (s.tellFabric u x false (x.piecesAt l))
       exec (.taOperandsConsumed id []) s = .next (match t.op id with
         | some y => if y.opens = [] then t.retireCount y else t
         | none => t)) ∧
     (Live s id kind x g u → x.arg 2 ≠ 1 → (s.taBefore g x).any x.delays = false →
       let t := s.modOp id fun y => { y with args := y.args.set 2 1 }
       (kind = .tmac → x.opens = [] → exec (.taOpStart id) s = .next (t.runTmac g x)) ∧
       ((kind = .tdrain ∨ kind = .tzero) → exec (.taOpStart id) s = .next t)) ∧
     (Live s id .twld x g u → x.arg 2 = 1 → after → x.opens = [] →
       exec (.twldComplete id) s = .next ((s.loadPlane x).opDone id)) ∧
     (Live s id .tmac x g u → x.arg 2 = 1 → after → exec (.tmacComplete id) s = .next (s.opDone id)) ∧
     (Live s id .tzero x g u → x.arg 2 = 1 → after → x.code = 1 → exec (.tzeroComplete id) s =
       .next ((s.modGroup x.group fun g => g.setPlane (x.arg 1) []).opDone id)) ∧
     (Live s id .tzero x g u → x.arg 2 = 1 → after → x.code ≠ 1 → exec (.tzeroComplete id) s =
       .next ((s.modGroup x.group fun g =>
         { g with tacc := g.tacc.filter fun e => e.1 / 16384 != x.dst.num.toNat,
                  taccErr := g.taccErr.filter fun i => i / 16384 != x.dst.num.toNat }).opDone id)) ∧
     (Live s id .tdrain x g u → x.arg 2 = 1 → after →
       let l := (x.pick []).filter fun i => match x.pieces[i]? with | some p => p.lane = 0 | none => false
       s.clearOf x (x.piecesAt (l ++ x.readOnly (x.pick []))) = true → s.drainClear g x (x.piecesAt l) = true →
       let v := (s.tellFabric u x false (x.piecesAt l)).drainScales x
       exec (.tdrainComplete id []) s = .next (match v.op id with
         | none => v
         | some y =>
           let hit := l.filter fun i => match y.pieces[i]? with | some p => y.code = 0 && v.badAt p.loc p.len | none => false
           let z := { y with seen := l.foldl (fun t i => Tbl.put t i []) y.seen,
                             acc := hit.foldl (fun t i => Tbl.put t i [1]) (y.withRow g).acc }
           (((y.piecesAt l).foldl (fun t p => t.drainSector g y (v.drainErr g y) p) v).modOp id fun _ => z).endDrain z)))

/-- SAMPLER_COMPLETE, RTRACE_COMPLETE and IMGST_COMPLETE with nothing named, samples and rays with credit for their reads
(R325), perform every lane or texel that is left and close the operation; RASTER_ACCEPT takes the triangles of every
lane of an EMIT once the pixel launch's record is read (R155, R167, R171, R174 to R176). -/
def Obligations.GraphicsOperationsComplete : Prop :=
  ∀ (s : State) (id : Nat) (x : Op) (g : Group) (u : WorkUnit),
    let free := s.portWaits (clusterOf g.core) u.netClass 2 = false
    (Live s id .sample x g u → free → exec (.samplerComplete id []) s =
      .next ((x.lanesLeft.foldl (fun s lane => s.finishLane g u id lane) s).closeUnit id 0x605)) ∧
    (Live s id .trace x g u → free → exec (.rtraceComplete id []) s =
      .next ((x.lanesLeft.foldl (fun s lane => s.traceLane g u id lane) s).closeUnit id 0x606)) ∧
    (Live s id .image x g u → s.clearOf x (x.piecesAt (x.pick [])) = true →
        s.imageClear g u x (x.piecesAt (x.pick [])) = true →
      let t := ((x.piecesAt (x.pick [])).foldl (fun s p =>
        ((s.tellFabric u x false [p]).engineWrite g.core p.loc p.data).texUpdate g.core p) s).modOp id
          fun y => { y with seen := (x.pick []).foldl (fun t i => Tbl.put t i []) y.seen }
      exec (.imgstComplete id []) s = .next (match t.op id with
        | some y => if y.opens = [] then t.opDone id else t
        | none => t)) ∧
    (Live s id .emit x g u → ∀ w p tw th, s.waves.get x.wave = some w → s.drawOf u = some (p, tw, th) → p.words ≠ [] →
      exec (.rasterAccept id) s = .next (((maskBits x.mask).foldl (fun s lane => s.emitLane g w u.draw p tw th x lane) s).opDone
        id))

/-! ### Translation, faults and work -/

/-- A page walk that completes leaves the translation in the TLB of its core and its cluster, and an eviction takes every
copy of a sector from a core's L1 (R333, R336, R182). FLTDONE of an open record closes it, and everything held on it
goes on: its units, groups and contexts hold nothing, and its parts are ready (R342). A buffered fault or trap record
enters its context's queue when it finds room and its port credit (R325), and leaves its cluster's buffer, and a part
that waited for the buffer takes its trap; a record whose write meets an error resets its context (R341, R363, R367,
R373). -/
def Obligations.WalksFaultsAndBuffers : Prop :=
  (∀ (s : State) (core asid sector : Nat) (va : Dword) (e : TlbEntry) (t : State),
     (s.flat asid = false → va.toNat < 2 ^ 57 → (s.core core).tlb.find? (TlbEntry.covers asid va.toNat) = none →
       (s.cluster (clusterOf core)).tlb.find? (TlbEntry.covers asid va.toNat) = none →
           s.walk asid va.toNat = (t, .ok e) →
       ∃ u, exec (.pageWalk core asid va) s = .next u ∧ e ∈ (u.core core).tlb ∧ e ∈ (u.cluster (clusterOf core)).tlb) ∧
     (∃ u, exec (.l1Evict core sector) s = .next u ∧ ∀ k, (u.core core).l1.get (l1Key k sector) = none)) ∧
  (∀ (s : State) (id : Word), (∃ r ∈ s.recs, r.id = id) → ∃ t, exec (.fltdoneWrite id) s = .next t ∧
     (∀ r, r ∈ t.recs ↔ r ∈ s.recs ∧ r.id ≠ id) ∧
     (∀ u ∈ t.units, u.2.heldOn ≠ some id) ∧ (∀ g ∈ t.groups, g.2.heldOn ≠ some id) ∧
     (∀ c ∈ t.ctxs, c.2.heldOn ≠ some id) ∧ (∀ w ∈ t.waves, ∀ p ∈ w.2.parts, p.2.status ≠ .faulted id) ∧
         t.mem = s.mem) ∧
  (∀ (s t : State) (c n : Nat) (rec : List Byte) (r : List (Nat × List Byte)),
     ((s.cluster c).fbuf = (n, rec) :: r → s.portWaits c 0 6 = false → s.queueFault c n rec = (t, .done) →
       exec (.faultBufferDrain c) s = .next (t.modCluster c fun c => { c with fbuf := r })) ∧
     ((s.cluster c).tbuf = (n, rec) :: r → s.portWaits c 0 10 = false → s.queueTrap c n rec = (t, .done) →
       exec (.trapBufferDrain c) s = .next (t.modCluster c fun c => { c with tbuf := r }).finishStops) ∧
     ((s.cluster c).fbuf = (n, rec) :: r → s.portWaits c 0 6 = false → s.queueFault c n rec = (t, .bad) →
       exec (.faultBufferDrain c) s = .next ((s.beginReset (n = 0) n).modCluster c fun c => { c with fbuf := r })) ∧
     ((s.cluster c).tbuf = (n, rec) :: r → s.portWaits c 0 10 = false → s.queueTrap c n rec = (t, .bad) →
       exec (.trapBufferDrain c) s = .next ((s.beginReset (n = 0) n).modCluster c fun c => { c with tbuf := r }).finishStops))

/-- A write of JOBADDR with the link up, once port 64 has credit (R323), puts an aligned address into the intake queue of
a valid context while READY is set and the queue has fewer than 64 entries, and otherwise counts it as dropped (R350,
R415). Intake takes the oldest entry's record and makes a waiting job of it, its priority from the record; Waiting and
Checking move a unit on; Checking refuses a launch for the lowest cause that its record meets and else lets it run,
and ends a unit whose record could not be read; a job whose record and phase table pass runs its phases; a phase that
starts reads its items, which become its units or, where one is not legal, refuse the job; a graph's node becomes a
launch once its predecessors have ended, a cancelled one where one of them did not end done; a unit that is over ends
with its status (R277, R280 to R286, R350). A launch whose stage table passes writes its rows to the weight store and
goes on to its groups (R287, R288). -/
def Obligations.JobsAndUnitsAdvance : Prop :=
  (∀ (s : State) (n : Nat) (a : Dword) (size : Nat), 1 ≤ n → n ≤ 1023 → s.linkUp = true → s.ioWaits = false →
     ∃ t, exec (.jobaddrWrite n a size) s = .next t ∧ t.mem = s.mem ∧
       (∀ k, k ≠ n → t.ctx k = s.ctx k) ∧
       (if size = 8 ∧ s.boot.ready = true ∧ s.ctxValid n = true ∧ a.toNat % 64 = 0 ∧ (s.ctx n).intake.length < 64 then
         (t.ctx n).intake = (s.ctx n).intake ++ [a] ∧ (t.ctx n).accepted = (s.ctx n).accepted + 1 ∧
           (t.ctx n).dropped = (s.ctx n).dropped
       else (t.ctx n).intake = (s.ctx n).intake ∧ (t.ctx n).accepted = (s.ctx n).accepted ∧
         (t.ctx n).dropped.toNat = min ((s.ctx n).dropped.toNat + 1) 65535)) ∧
  (∀ (s t : State) (n unit : Nat) (a : Dword) (r : List Dword) (d : List Byte) (u j : WorkUnit) (job : Nat),
     ((s.ctx n).intake = a :: r → (s.ctx n).resets = false → (s.ctx n).heldOn = none → s.hostLine n .read a = none →
       s.getRecord 3 n a 0 4 = (t, .data d) →
       exec (.jobIntake n) s = .next ((t.modCtx n fun c => { c with intake := r }).addUnit
         { blankUnit .job n false none a with
           words := bytesWords d, prio := (nth (bytesWords d) 0).toNat / 65536 % 4 }).1) ∧
     (s.units.get unit = some u → u.cancel = false → u.heldOn = none →
       (u.state = .waiting → (u.kind = .launch ∨ u.kind = .draw) →
         exec (.unitLeaveWaiting unit) s = .next (s.modUnit unit fun x => { x with state := .checking })) ∧
       (∀ st c, u.state = .checking → u.fate = some (st, c) → exec (.unitChecking unit) s = .next (s.endUnit unit st c)) ∧
       (u.state = .checking → u.kind = .launch → u.fate = none →
         (u.addr.toNat % 256 ≠ 0 → exec (.unitChecking unit) s = .next (s.refuse unit 11)) ∧
         (u.addr.toNat % 256 = 0 → s.fetchRecord unit = (t, true) → ∀ v, t.units.get unit = some v →
           (∀ c, launchCause v (t.kindWanted v) = some c → exec (.unitChecking unit) s = .next (t.refuse unit c)) ∧
           (launchCause v (t.kindWanted v) = none → exec (.unitChecking unit) s = .next (t.modUnit unit fun x =>
             { x with state := .running, stage := if (x.d 0x50).toNat = 0 then 2 else 0 })))) ∧
       (u.state = .checking → u.kind = .job → u.fate = none → jobCause u = none →
           s.getRecord 3 u.asid (u.d 8) 0 (u.n 4) = (t, .data d) →
         (wordRows (u.n 4) d).any phaseEntryBad = false → exec (.unitChecking unit) s =
           .next ((t.modUnit unit fun x => { x with state := .running }).makePhases unit u (wordRows (u.n 4) d))) ∧
       (u.state = .checking → u.kind = .draw → u.fate = none →
         exec (.unitChecking unit) s = .next (s.modUnit unit fun x => { x with state := .running })) ∧
       (u.kind = .phase → u.state = .waiting → u.parent = some job → s.units.get job = some j → j.state = .running →
         j.ended = u.index → j.worst = 0 → j.cause = 0 → j.heldOn = none →
         s.getRecord 3 u.asid u.addr 0 (nth u.words 2).toNat = (t, .data d) → exec (.phaseStart unit) s =
           .next (t.modUnit unit fun x => { x with state := .checking, lists := wordRows (nth u.words 2).toNat d })) ∧
       (u.kind = .phase → u.state = .checking → u.parent = some job → u.fate = none →
         (u.lists.any (itemBad u.gfx) = false → exec (.unitChecking unit) s = .next (u.lists.foldl
           (fun s e => s.makeItem unit u e) (s.modUnit unit fun x => { x with state := .running }))) ∧
         (u.lists.any (itemBad u.gfx) = true →
           exec (.unitChecking unit) s = .next (s.modUnit job fun x => { x with cause := 2 }))) ∧
       (∀ node, u.kind = .graph → u.state = .running → node < u.lists.length →
         (s.children unit).any (fun k => k.2.index = node) = false →
         let row := u.lists.getD node []
         let state := fun (p : Nat) => ((s.children unit).find? fun k => k.2.index = p).map fun k => k.2.state
         let launch := { u.child .launch (some unit) (pair (nth row 0) (nth row 1)) with words := row.drop 4, index := node }
         ((∀ p ∈ nodePreds row, state p = some (.ended 0)) →
           exec (.graphNodeStart unit node) s = .next (s.addUnit launch).1) ∧
         ((∀ p ∈ nodePreds row, ∃ c, state p = some (.ended c)) → (∃ p ∈ nodePreds row, state p ≠ some (.ended 0)) →
           exec (.graphNodeStart unit node) s = .next ((s.addUnit { launch with cancel := true }).1.endUnit
             (s.addUnit { launch with cancel := true }).2 1 0)) ∧
         ((∃ p ∈ nodePreds row, ∀ c, state p ≠ some (.ended c)) → exec (.graphNodeStart unit node) s = .next s)) ∧
       (∀ st c, s.endStatus unit u = some (st, c) → s.blockFor unit = (t, true) →
         exec (.unitEnd unit) s = .next (t.endUnit unit st c)))) ∧
  (∀ (s s1 s2 s3 : State) (unit : Nat) (u : WorkUnit) (h d x : List Byte), s.units.get unit = some u →
      u.kind = .launch →
     u.state = .running → u.stage = 0 → u.cancel = false → u.heldOn = none →
     s.getRecord 1 u.asid (u.d 0x50) u.launchix 1 = (s1, .data h) → stageHeaderBad (bytesWords h) = false →
     let n := (nth (bytesWords h) 0).toNat / 256 % 256
     let dies := (List.range 4).filter fun d => nbit (nth (bytesWords h) 0).toNat d
     s1.getRecord 1 u.asid (u.d 0x50 + 16) u.launchix n = (s2, .data d) →
     stageBad u (bytesWords h) (wordRows n d) = false → (∀ k ∈ dies, s2.wsReaders k = false ∧ s2.wsBusy k = false) →
     s2.stageRows u dies false (wordRows n d) = (s3, .data x, false) →
     exec (.weightStage unit) s = .next (s3.modUnit unit fun x => { x with stage := 2, lists := [bytesWords h] }))

/-- A group is placed on a qualifying core: a fresh group with its local store zero; with its input tiles in, its waves
are dispatched in order, each on its scheduler with the state that R290 gives: its arguments in S0 to S11, FMT and
CUTP of the launch, one part at the launch's entry in a free slot; with its last wave ended and nothing of it
outstanding it leaves; it is saved and restored whole (R289 to R291, R296, R348, R389). The active set: a ready part
that waits takes a free place of its scheduler, or the place of the part that has waited longest and yields; by force,
after 256 clocks, once in 4, the place of the part that has been there longest; a part that was released takes a slot
(R292, R293, R371). -/
def Obligations.GroupsAndActiveSet : Prop :=
  (∀ (s t : State) (unit gid core : Nat) (u : WorkUnit) (g : Group) (l : List Nat),
     (s.units.get unit = some u → s.wantsCore unit u = true → u.next ≠ u.grid →
       (s.groupsOf unit).any (fun g => g.2.state = .saved) = false → (u.ctl = true ∨ (s.ctx u.ctx).resets = false) →
       s.behind unit u = false → (s.drawBegun u = true ∨ s.promised u core = false) →
       s.dispatchLogged u core u.next = true → s.qualifies unit u core u.nwaves = some l →
       u.mode < 2 → ∃ t x, exec (.groupDispatch unit core) s = .next t ∧ t.groups.get s.fresh = some x ∧ x.unit = unit ∧
         x.g = u.next ∧ x.core = core ∧ x.state = .tiles ∧ x.ls = [] ∧ x.acc = [] ∧ x.tacc = [] ∧ x.todo = u.tiles ∧
         x.waves = [] ∧ x.scheds = l) ∧
     (s.groups.get gid = some g → g.state = .tiles → g.heldOn = none → (s.unitOf g).cancel = false → g.todo = [] →
       let u := s.unitOf g
       let entering := fun (k : Nat) => (s.modGroup gid fun x =>
         { x with state := .running, todo := [], begun := true, tileF := [] }).enterWaves gid g.core u
           ((g.scheds.zipIdx.map fun e => (e.2, e.1)).take k)
       exec (.waveDispatch gid) s = .next (entering g.scheds.length) ∧
       ∀ k j, g.scheds[k]? = some j → ∃ w p, (entering g.scheds.length).waves.get (s.fresh + k) = some w ∧
         w.group = gid ∧ w.index = k ∧ w.sched = j ∧ w.nquads = u.quads ∧ w.age = s.fresh + k + 1 ∧ w.v = [] ∧
             w.p = [] ∧
         (∀ r q, q < 16 → w.sreg r q = if r < 12 then u.w (0xC0 + 4 * r) else 0) ∧
         (∀ q, q < 16 → q < u.quads → nth w.fmt q = u.w 0x2C ∧ nth w.cutp q = u.w 0x40) ∧
         (∀ l, l < 64 → w.exited.getLsbD l = decide (4 * u.quads ≤ l ∨ u.lanes ≤ 4 * u.quads * k + l)) ∧
         w.parts = [(lowQuad p.quads, p)] ∧ p.pc = u.d 8 ∧ p.active = ~~~ w.exited ∧ p.stack = [] ∧ p.rep = none ∧
         p.status = .resident ∧ p.check = true ∧ p.late = false ∧ p.kc = 0 ∧
         p.slot = ((entering k).freeSlot u g.unit g.core j).getD 0 ∧ p.front = (entering k).frontRoom g.core j) ∧
     (s.groups.get gid = some g → s.groupBusy gid = false → s.stoppers = [] →
       ((s.unitOf g).cancel = true → exec (.groupEnd gid) s = .next ((s.dropWaves gid).freeGroup gid)) ∧
       ((s.unitOf g).cancel = false → g.waves = [] → g.state = .running →
         exec (.groupEnd gid) s = .next (s.freeGroup gid))) ∧
     (s.groups.get gid = some g → s.attachDue gid g = true → exec (.preempt gid) s = .next (s.saveGroup gid true)) ∧
     (s.groups.get gid = some g → s.attachDue gid g = false → s.savable g = true →
       (g.state = .stopping ∨ (s.unitOf g).ctl = false ∧ (s.ctx (s.unitOf g).ctx).halted = true) →
       (s.groupBusy gid = false → s.stoppers = [] → s.ringShort (s.unitOf g) g.core (s.partsOf gid).length = false →
         exec (.preempt gid) s = .next (s.saveGroup gid false)) ∧
       (s.groupBusy gid = true → exec (.preempt gid) s = .next (s.modGroup gid fun x => { x with state := .stopping }))) ∧
     (let u := s.unitOf g
      s.groups.get gid = some g → g.state = .saved → g.heldGo = false → u.cancel = false →
          (s.ctx u.ctx).halted = false →
       (s.ctx u.ctx).resets = false →
       (s.units.any fun x => !x.2.ctl && decide (u.prio < x.2.prio) && s.waitsForCore x.1 x.2 &&
         (List.range 512).any fun k => s.inQuota x.1 x.2 k (s.wavesDue x.1 x.2)) = false →
       s.promised u core = false → s.ringShort u core (s.partsOf gid).length = false →
       s.qualifies g.unit u core (g.liveWaves u) = some l →
       let placed := ((((if core = g.core then s else s.cleanCore core).modGroup gid fun x =>
         { x with core := core, state := if g.begun then .running else .tiles, scheds := l, sigz := (0, 0) }).modCore core fun c =>
         { c with sig := c.sig ||| g.sigz.1, z := tmax c.z ((if core = g.core then s else s.cleanCore core).sane g.sigz.2)
           }).loadRennet gid core g).modUnit g.unit fun x => { x with giving := none }
       ((g.waves.zip l).foldl (fun s e => s.modWave e.1 fun w => { w with sched := e.2 }) placed).loadGroupImage
           { g with core := core } gid = (t, true) →
       exec (.groupRestore gid core) s = .next (t.restoreParts (t.partsOf gid)))) ∧
  (∀ (s : State) (core sched : Nat) (inn out : PartRef × Part) (p : PartRef) (o : Who) (k : Nat),
     let l := s.slotted core sched
     (s.oldest (l.filter fun x => !x.2.front && x.2.isReady) = some inn → s.swapAllowed inn.1 = true →
       (s.frontRoom core sched = true → exec (.partSwap core sched) s =
         .next (s.modPart inn.1 fun p => { p with front := true, inSet := 0, queued := 0 })) ∧
       (s.frontRoom core sched = false →
         leastBy (fun x => 2 ^ 64 - x.2.waited) (l.filter fun x => x.2.front && !x.2.isReady && x.2.yields) = some out →
         exec (.partSwap core sched) s = .next (s.swapParts out.1 inn.1))) ∧
     (sched < 4 → 4 ≤ (s.core core).swapAt.getD sched 4 →
       s.oldest (l.filter fun x => !x.2.front && x.2.isReady && 256 ≤ x.2.queued) = some inn →
       leastBy (fun x => 2 ^ 64 - x.2.inSet) (l.filter fun x => x.2.front) = some out → s.swapAllowed inn.1 = true →
       exec (.forcedSwap core sched) s =
         .next ((s.swapParts out.1 inn.1).modCore core fun c => { c with swapAt := c.swapAt.set sched 0 })) ∧
     (s.who p = some o → o.p.status = .ready → o.g.state = .running → o.u.cancel = false →
       s.freeSlot o.u o.g.unit o.g.core o.w.sched = some k → s.ringShort o.u o.g.core 1 = false →
       exec (.partRestore p) s = .next (s.restorePart o k)))

/-- A draw that has run for DRAWWD microseconds begins the reset of its context: nothing of it issues again and its intake
is empty; the reset ends once everything issued is complete, its units ended and the record that closes it written;
where that write meets an error it begins anew (R300, R373, R374). GBAR_COMPLETE of a generation that is due raises
the generation by one and lets its waves go on (R310, R311). -/
def Obligations.ContextsReset : Prop :=
  (∀ (s : State) (unit n : Nat) (u : WorkUnit) (job : Nat) (j : WorkUnit),
     (s.units.get unit = some u → u.kind = .draw → u.ctl = false → s.unitAbove unit .job = some job →
       s.units.get job = some j → j.n 0x20 * 1000 ≤ u.time → ∃ t, exec (.drawWatchdog unit) s = .next t ∧
         (t.ctx u.ctx).resets = true ∧ (t.ctx u.ctx).intake = [] ∧ (∀ k, k ≠ u.ctx → t.ctx k = s.ctx k) ∧
             t.mem = s.mem) ∧
     ((s.ctx n).resets = true → (∀ g ∈ s.groups, ¬((s.unitOf g.2).ctl = false ∧ (s.unitOf g.2).ctx = n)) →
       s.trapRoom 0 n = true → ((s.resolveCtx n).failUnits n).2 = true →
       let r := ((s.resolveCtx n).failUnits n).1
       let cleared := ({ r with slices := r.slices.map fun (sl : Nat × Slice) =>
         (sl.1, { sl.2 with keep := sl.2.keep.filter fun e => e.2 != n }) }.modCtx n fun c => { c with resets := false, handle := 1 })
       let at_ := (cleared.nextSerial.1.nextSeq 0).1
       let put := at_.putTrap 0 n (leBytes 4 0 ++ leBytes 4 cleared.trans.serial.toNat ++ leBytes 16 0 ++
         leBytes 4 0xFFFFFFFF ++ leBytes 4 0 ++ leBytes 4 0 ++ leBytes 4 (n * 65536) ++ leBytes 6 at_.time.toNat ++
         leBytes 2 (cleared.nextSerial.1.nextSeq 0).2 ++ leBytes 80 0)
       ∃ t, exec (.contextReset n) s = .next t ∧ ((t.ctx n).resets = true ↔ put.2 = .bad) ∧
         ∀ x ∈ t.units, x.2.ctl = true ∨ x.2.ctx ≠ n)) ∧
  (∀ (s : State) (launch : Nat) (u : WorkUnit), s.units.get launch = some u → s.gbarDue launch u = true →
     let open_ := fun (w : Wave) => match s.groups.get w.group with | some g => g.unit == launch | none => false
     let clear := fun (w : Nat × Wave) => if open_ w.2 then (w.1, { w.2 with gbar := false }) else w
     let cleared : State := { s with waves := s.waves.map clear }
     let t := cleared.modUnit launch fun x => { x with gen := x.gen + 1 }
     exec (.gbarComplete launch) s = .next (t.gbarPass launch u.gsig t.parts))

/-! ### Debug, control registers, links, power and bring-up -/

/-- A freeze: ATTACH pre-empts the frozen context's groups of the core, its release or the end of FRZLIM milliseconds ends
it; a broadcast writes one word of one breakpoint of every core; a profile sample steps its scheduler's slot and,
where the slot holds a part of a profiled context, puts a record of kind 16 with what the part reports into the
context's profile ring of the core (R382, R383, R386, R389). HPCTL takes EN and LOG2N and begins every core's count
again; QBKT takes BURST and LIMIT, at most 1024, for the next window, and with EN 0 lets every held request go, each
as far as its endpoint has an entry for it; a write that sets EN to 1 makes CRED LIMIT + BURST at the next window; a
register write of the host is one of control space, charged at port 64 once that has credit (R323, R343, R326, R327,
R351). -/
def Obligations.DebugAndControlRegisters : Prop :=
  (∀ (s : State) (core n j sched : Nat) (v : Word),
     ((s.core core).freeze.frozen = true → s.frozenGroups core = [] →
       exec (.freezeAttach core) s = .next (s.modCore core fun c => { c with freeze := { c.freeze with attached := true } }) ∧
       exec (.freezeRelease core) s = .next (s.modCore core fun c => { c with freeze := Freeze.reset }) ∧
       (s.tables.frzlim.toNat * 1000000 ≤ (s.core core).freeze.since → exec (.freezeLimitExpiry core) s =
         .next (s.modCore core fun c => { c with freeze := Freeze.reset }))) ∧
     ((s.core core).freeze.frozen = true → exec (.freezeAttach core) s = .next (s.attachCore core) ∧
       exec (.freezeRelease core) s = .next (s.releaseCore core)) ∧
     (n < 8 → j < 4 → ∃ t, exec (.bpBroadcastWrite n j v) s = .next t ∧ t.mem = s.mem ∧ ∀ k < 512,
       ((t.core k).bp = (s.core k).bp.modify n fun b => b.setWord j v) ∧ (t.core k).tlb = (s.core k).tlb) ∧
     (core < 512 → sched < 4 →
       let k := (s.core core).slotRot.getD sched 0
       let t := s.modCore core fun c => { c with slotRot := c.slotRot.set sched ((k + 1) % 48) }
       ((s.slotted core sched).find? (fun p => p.2.slot = k) = none → exec (.profileSample core sched) s = .next t) ∧
       ∀ pr p o, (s.slotted core sched).find? (fun p => p.2.slot = k) = some (pr, p) → s.who pr = some o →
         let profiled := !o.u.ctl && o.u.prof && (s.ctx o.u.ctx).logctl.getLsbD 4
         let issued := (((s.core core).issued.get sched).getD []).any fun a => a.part = pr
         (profiled = false → exec (.profileSample core sched) s = .next t) ∧
         (profiled = true → exec (.profileSample core sched) s = .next ((t.nextSeq core).1.ringPut (some (clusterOf core))
           (o.u.pring core) o.u.psize (evBytes s.time.toNat (s.core core).seq.toNat core
             { kind := 16, code := if issued then 128 else if p.stall = 0 then 31 else p.stall, wid := o.wid, part := pr.part,
               pc := p.pc.toNat, dseq := o.w.seqs.dseq.toNat, qmask := p.quads.toNat, data := sched }))))) ∧
  (∀ (s : State) (v : Word) (w : Dword) (port cls off : Nat),
     (8 ≤ v.toNat % 32 → v.toNat % 32 ≤ 20 → ∃ t, exec (.hpctlWrite v) s = .next t ∧ t.trans.hpen = v.getLsbD 31 ∧
       t.trans.hplog = v.toNat % 32 ∧ ∀ k, (t.core k).looks = 0) ∧
     (port ≤ 82 → cls ≤ 3 → ∃ t, exec (.qbktWrite port cls v) s = .next t ∧
       let b := s.bucket (bucketKey port cls)
       let c := t.bucket (bucketKey port cls)
       c.nextB = min (v.toNat / 65536 % 2048) 1024 ∧ c.nextL = min (v.toNat % 2048) 1024 ∧ c.nextEn = v.getLsbD 31 ∧
         (v.getLsbD 31 = false → c.en = false ∧
           ((∀ p ∈ b.held, bucketKey p.port p.cls = bucketKey port cls ∧ p.sink = noSink) → c.held = [])) ∧
         (v.getLsbD 31 = true → c.en = b.en ∧ c.held = b.held ∧ c.cred = b.cred ∧ c.window.en = true ∧
           (b.en = false → c.window.cred = c.nextL + c.nextB))) ∧
     (s.ioWaits = false →
       exec (.registerWrite off w) s = .next (s.ioAsk.ctrlWrite (ctrlReg off).1 (leBytes (ctrlReg off).2 w.toNat))))

/-- A collective group that is closed, drained and configured opens with COLLSTAT 0, one that is not drained answers 1; a
close closes it (R357). BUCKET_WINDOW: once 1,024 network clocks have passed, each bucket's credit becomes what it may
carry, and what waits passes while it may; a trap that waited for it is taken. REQUEST_INJECT: the first request of a
class's queue passes where its bucket has credit for its flits and its answer's, or is disabled, its endpoint an entry
for it and its port room for the answer; else it waits, and the window counts a wait for credit (R322, R325). The
torus (R13, R320): cluster c and the channel of slices 2s and 2s + 1 have the stops that R13 numbers; from every stop
a packet reaches every other along its row and then its column in at most 12 hops. A host request through an HDM
decoder asks port 64's bucket when it comes, and once it has been delivered, within one line that no snoop is out for,
a read answers the bytes at the home slice, or waits for its snoop, and a write stores them; the answer to a snoop
writes the line that the host held modified and ends the snoop (R323, R351, R352). A request of the domain asks its
port's bucket when it comes and is performed once it has been delivered, where the sender's tenant is exported, and a
delivery of a collective where the group is open for the tenant and in its window; in replay an atomic with a ticket
waits until its ticket is next (R236); what may not be performed is answered with loss; a packet whose header is in
error is dropped and counted (R323, R353, R354, R357). A domain request that a loss response answers, or that no
response answers for FLTO microseconds, ends as lost: a load's pieces read as zeros and are in error with the flag of
a loss, 2, or of a timeout, 3 (R355). -/
def Obligations.LinksAndCollectives : Prop :=
  (∀ (s : State) (g : Nat), g < 4096 →
     (∃ t, exec (.collClose g) s = .next t ∧ (t.collAt g).isOpen = false) ∧
     ((s.collAt g).drain = 0 → (s.collAt g).isOpen = false → s.collBad (s.collAt g) = false →
       ∃ t, exec (.collOpen g) s = .next t ∧ (t.collAt g).isOpen = true ∧
           t.link.collstat = (s.collStat 0).link.collstat) ∧
     ((s.collAt g).drain ≠ 0 → exec (.collOpen g) s = .next (s.collStat 1))) ∧
  (∀ (s : State) (port cls : Nat) (p : Packet) (r : List Packet),
     let k := bucketKey port cls
     let b := s.bucket k
     (1024 ≤ s.net.clks → exec .bucketWindow s = .next s.window.finishStops) ∧
     ((∀ e ∈ s.buckets, e.2.held = []) → s.window =
       { s with net := { s.net with clks := s.net.clks - 1024 }, buckets := s.buckets.map fun e => (e.1, e.2.window) }) ∧
     (b.held = p :: r → port ≤ 82 → cls ≤ 3 →
       (s.bucketOpen p = true → s.sinkOpen p = true → exec (.requestInject port cls) s =
         .next ((s.inject p).modBucket k fun b => { b with held := r })) ∧
       (s.bucketOpen p = false → exec (.requestInject port cls) s =
         .next (s.modBucket k fun b => { b with waited := b.waited || (b.en && decide (b.cred < p.charge)) })) ∧
       (s.bucketOpen p = true → s.sinkOpen p = false → exec (.requestInject port cls) s = .next s)) ∧
     (∀ c, c < 64 → isClusterStop (clusterStop c) = true ∧ stopIndex (clusterStop c) = c ∧
         stopDie (clusterStop c) = c / 16) ∧
     (∀ c, c < 64 → isClusterStop (sliceStop c) = false ∧ stopIndex (sliceStop c) = c ∧
         stopDie (sliceStop c) = c / 16) ∧
     ∀ src dst, src < 128 → dst < 128 → pathHops src dst ≤ 12 ∧
       (List.range (pathHops src dst)).foldl (fun t _ => stopNext t (routeOut src dst t)) src = dst) ∧
  (∀ (s u : State) (addr : Dword) (a len line : Nat) (d : List Byte),
     let asks := fun (w : Option (List Byte)) => s.net.arrived.any (fun q => q.inb == some (.host a len w)) = false →
       s.underWay (.host a len w) = false → exec (.hostMemRequest addr len w) s =
         .next (s.askBucket (inboundPacket (.host a len w) 64 s.link.hostcls.toNat a len w.isSome))
     let here := fun (w : Option (List Byte)) => s.net.arrived.any (fun q => q.inb == some (.host a len w)) = true
     (s.hdmOffset addr.toNat len = some a → s.linkUp = true → inOneLine a len = true →
       s.link.snoop.contains (a / 128) = false →
       asks none ∧
       (d.length = len → asks (some d) ∧ (here (some d) → exec (.hostMemRequest addr len (some d)) s =
         .next (((s.writeAt (.dev a) d).send .hostDone).answerInbound (.host a len (some d))))) ∧
       (here none → s.filterLine (a / 128) = .error u → exec (.hostMemRequest addr len none) s = .next u) ∧
       (here none → s.filterLine (a / 128) = .ok u →
         (u.badAt (.dev a) len = false → exec (.hostMemRequest addr len none) s = .next
           (((u.readAt (.dev a) len).1.send (.hostData (u.readAt (.dev a) len).2)).answerInbound (.host a len none))) ∧
         (u.badAt (.dev a) len = true → exec (.hostMemRequest addr len none) s =
           .next ((u.send .hostError).answerInbound (.host a len none))))) ∧
     (s.link.snoop.contains line = true →
       (∃ t, exec (.backInvalidate line none) s = .next t ∧ line ∉ t.link.snoop ∧ line ∉ t.link.filter ∧
           t.mem = s.mem) ∧
       (d.length = 128 → ∃ t, exec (.backInvalidate line (some d)) s = .next t ∧ line ∉ t.link.snoop ∧
         ∀ i, i < 128 → t.byteAt (.dev (128 * line + i)) = d.getD i 0))) ∧
  (∀ (s : State) (r : DomainReq) (g : Nat), r.port < 18 → s.boot.portdown.getLsbD r.port = false →
      5 ≤ s.boot.phase.toNat →
     s.heat.powered = true →
     let lost := s.send (.fabricLoss r.port r.tag)
     let takes := fun (i : Instr) (q : Inbound) (ctx a : Nat) => remoteOk r a = true →
       (r.hs = false ∨ s.hostHas (a / 128) = false) →
       (s.net.arrived.any (fun p => p.inb == some q) = true →
         (s.remoteTurn r ctx a = true → exec i s = .next ((s.performRemote r ctx a).answerInbound q)) ∧
         (s.remoteTurn r ctx a = false → exec i s = .next s)) ∧
       (s.net.arrived.any (fun p => p.inb == some q) = false → s.underWay q = false → exec i s =
         .next (s.askBucket (inboundPacket q (65 + r.port) r.cls.toNat a r.len (r.data.isSome && r.op.isNone))))
     (r.headerOk = false → exec (.domainRequestIn r) s = .next (s.headerError r.port) ∧
       exec (.collDeliveryIn g r) s = .next (s.headerError r.port)) ∧
     (r.headerOk = true →
       (s.exports r.tenant.toNat r.offset r.len = false → exec (.domainRequestIn r) s = .next lost) ∧
       (s.exports r.tenant.toNat r.offset r.len = true →
         takes (.domainRequestIn r) (.domain r) r.ctx.toNat r.offset) ∧
       ((s.collAt g).isOpen = false → exec (.collDeliveryIn g r) s = .next lost) ∧
       (g < 4096 → (s.collAt g).isOpen = true → (s.collAt g).tenant = r.tenant →
         r.offset + r.len ≤ (s.collAt g).wsize.toNat → r.data.isSome = true →
         takes (.collDeliveryIn g r) (.coll g r) (s.collAt g).ctx.toNat ((s.collAt g).wbase.toNat + r.offset)))) ∧
  (∀ (s : State) (id : Nat) (x : Op) (g : Group) (u : WorkUnit), Live s id .load x g u →
     let l := (x.indexed (x.pick [])).filter fun e => e.2.peer?.isSome
     l ≠ [] →
     exec (.fabricLossResponse (.op id [] false)) s = .next (s.loseNormal g u x 2 false l) ∧
     (s.link.flto * 1000 ≤ (s.time - x.start).toNat →
       exec (.fabricTimeout (.op id [] false)) s = .next (s.loseNormal g u x 3 false l)))

/-- Resets: either kind leaves nothing resident or outstanding, every core's Σ, Z, F and SEQCLK 0, the TLBs and caches
empty, PHASE 0, and the boot ROM at its first step. A warm reset, asked for by the host, by a fatal error or by RSTREQ
5, keeps device time, the assay rings' records, ASTAIL and ASDROP, the weight store and what GDDR7 holds; a cold one
keeps none of device time and the rings (R409, R410). That device memory and the weight store still hold their bytes
after a cold reset until step 2 of R411 writes them to zero is the model's reading (log entry 4); L2 lines that had
reached GDDR7 before a warm reset are the event's own (`written`). The boot ROM of a device with power takes one step
a turn (the turn is the model's measure, log entry 1): the checks of step 1; step 2, which after a cold reset writes
every byte of device memory and of the weight store to zero; the image of slot A or else of slot B; the port; the
fabric ports, of which those that fail are marked down; and the firmware's launch with every bucket disabled. Each
sets PHASE to its number; one that fails stops the ROM with its ERR, and PHASE stays as it was (R411). A configuration
request, charged at port 64 once that has credit, is answered with Retry Status until PHASE reaches 4, and after that
with data; an SPDM request is answered with the signed measurement of the nonce; READY, written in PHASE 6, makes the
phase 7 (R358, R408, R411, R414). -/
def Obligations.ResetsAndBringUp : Prop :=
  (∀ (s : State) (b : BootIn),
     let cleared := fun (t : State) => t.waves = [] ∧ t.groups = [] ∧ t.units = [] ∧ t.ops = [] ∧ t.mem.l2 = [] ∧
       t.boot.phase = 0 ∧ t.boot.ready = false ∧ t.heat.trip = 0 ∧ t.buckets = [] ∧ ∀ k, t.seqclk k = 0 ∧
         (t.core k).sig = 0 ∧ (t.core k).z = 0 ∧ (t.core k).f = 0 ∧ (t.core k).clk = 0 ∧ (t.core k).tlb = [] ∧
         (t.core k).l1 = [] ∧ (t.core k).tex = [] ∧ (t.core k).rays = [] ∧ (t.core k).rennet = [] ∧
         (t.cluster k).tlb = [] ∧ t.slice k = Slice.reset ∧ t.ctx k = Context.reset
     (exec (.coldReset b) s = .next (s.coldStart.bootBegin b) ∧
       (s.heat.powered = true → exec (.warmResetHost b) s = .next ((s.warmStart 3 b.written).bootBegin b)) ∧
       (s.heat.powered = true → s.boot.fatal = true →
         exec (.warmResetFatal b) s = .next ((s.warmStart 2 b.written).bootBegin b)) ∧
       (s.linkUp = true → exec (.rstreqWrite 5 b) s = .next ((s.warmStart 3 b.written).bootBegin b))) ∧
     (cleared s.coldStart ∧ s.coldStart.time = 0 ∧ s.coldStart.dies = [] ∧ s.coldStart.boot.rkind = 1 ∧
       s.coldStart.mem.flash = s.mem.flash ∧ s.coldStart.mem.gddr = s.mem.gddr ∧ s.coldStart.mem.ws = s.mem.ws) ∧
     (∀ k, let t := s.warmStart k b.written
       cleared t ∧ t.time = s.time ∧ t.mem.flash = s.mem.flash ∧ t.mem.ws = s.mem.ws ∧ t.boot.rkind = k ∧
       (b.written = [] → t.mem.gddr = s.mem.gddr) ∧ ∀ d, (t.die d).recs = (s.die d).recs ∧
           (t.die d).tail = (s.die d).tail ∧
         (t.die d).drop = (s.die d).drop) ∧
     (s.bootBegin b).boot.rom = some b ∧ (s.bootBegin b).mem = s.mem) ∧
  (∀ (s : State) (b : BootIn), s.boot.rom = some b → s.heat.powered = true →
     let t := s.romTurn
     let stops := fun (e : Nat) => t.boot.err = BitVec.ofNat 12 e ∧ t.boot.rom = none ∧ t.boot.phase = s.boot.phase ∧ t.mem = s.mem
     let ends := fun (n : Nat) => t.boot.phase = BitVec.ofNat 4 n ∧ t.boot.err = s.boot.err ∧ t.boot.rom = some b
     (s.boot.phase = 0 → (b.selfOk = true → ends 1 ∧ t.mem = s.mem) ∧ (b.selfOk = false → stops 1)) ∧
     (s.boot.phase = 1 → (∀ d, b.badDie = some d → stops (16 + d.toNat)) ∧ (b.badDie = none → ends 2 ∧
       (s.boot.rkind = 1 → t.mem.gddr = [] ∧ t.mem.ws = []) ∧ (s.boot.rkind ≠ 1 → t.mem = s.mem))) ∧
     (s.boot.phase = 2 →
       let slot := fun (i : Bool) => (imageAt s.mem.flash (if i then 0x01000000 else 0)).map fun e => (i, e.1)
       match (slot false).or (slot true) with
       | some (i, n) => ends 3 ∧ t.boot.slot = i ∧
           t.boot.digest = Config.sm3 (s.mem.flash.bytes (if i then 0x01000000 else 0) n)
       | none => stops 32) ∧
     (s.boot.phase = 3 → (b.linkOk = true → ends 4 ∧ t.mem = s.mem) ∧ (b.linkOk = false → stops 48)) ∧
     (s.boot.phase = 4 → ends 5 ∧ t.boot.portdown = b.portsDown ∧ t.mem = s.mem) ∧
     (s.boot.phase = 5 → t.boot.phase = 6 ∧ t.boot.rom = none ∧ t.buckets = [] ∧ t.mem = s.mem ∧
       ∃ n u, t.units.get n = some u ∧ u.ctl = true ∧ u.state = .running ∧
         u.words = firmwareWords s.boot.image.2 s.boot.image.1 s.boot.status)) ∧
  (∀ (s : State) (a : Word) (w : Option Word) (nonce : BitVec 256),
     (s.heat.powered = true → s.ioWaits = false →
       (s.boot.phase.toNat < 4 → exec (.configRequest a w) s = .next (s.ioAsk.send .configRetry)) ∧
       (4 ≤ s.boot.phase.toNat → ∃ v, exec (.configRequest a w) s = .next (s.ioAsk.send (.configData v)))) ∧
     (s.linkUp = true → exec (.spdmRequest nonce) s =
       .next (s.send (.spdm (leNat (s.measurement nonce)) (Config.sm2Sign (Config.sm3 (s.measurement nonce)))))) ∧
     (s.boot.phase = 6 → exec .bootctlReadyWrite s = .next { s with boot := { s.boot with ready := true, phase := 7 } }))

/-- PLANISHER_WINDOW: once 64 clocks of the core have passed, what exceeded the budget is carried, the limit last written
takes effect, the parts that a bubble held may issue, and a new window begins (R403, R404). LOW_RAIL_WINDOW, with the
counts of the window: after 4,096 clocks an island whose scheduler waited for memory in at least 90 of 100 of its
occupied clocks enters low rail where LREN allows it, and a new window begins with what the clocks after its start
have counted. LOW_RAIL_WAKE: the island of a ready part begins to wake. LOW_RAIL_WAKE_DONE: 200 ns later it issues
again (R402). The end of a ramp puts its cluster at the target point, and in trip 2, or with a queued request for
another point, starts the next ramp; a sample sets the sensors' registers, and the levels that it changes, each 20 ms
in its state, become due in ascending order; the change that is first of them is made: a record of kind 17 and CODE 0
on every die, vector 0 and the level's action, which at trip 3 is SAVE on every valid context; trip 4 removes power;
the ns after the last of the 48-bit count is 0 (R405, R407, R222). -/
def Obligations.PowerAndTime : Prop :=
  (∀ (s : State) (k : Nat), 64 ≤ (s.core k).cur.clks → exec (.planisherWindow k) s = .next
     ((s.bubbled k).foldl (fun t p => t.modPart p fun q => { q with hold := .no, stall := 0 }) (s.modCore k fun c =>
       { c with cur := { c.cur with
           held := s.bubbled k, win := BitVec.ofNat 32 c.cur.used, excess := c.cur.used + c.cur.excess - c.cur.lim.toNat,
           lim := c.cur.next, used := 0, clks := c.cur.clks - 64 } }))) ∧
  (∀ (s : State) (k j : Nat), j < 4 →
     let i := (s.core k).isl
     (4096 ≤ i.clks.getD j 0 → exec (.lowRailWindow k j (i.memw.getD j 0) (i.occ.getD j 0)) s =
       .next (s.modCore k fun c => { c with isl := { c.isl with
       low := if i.lren.getLsbD j = true ∧ 0 < i.occ.getD j 0 ∧ 90 * i.occ.getD j 0 ≤ 100 * i.memw.getD j 0
         then c.isl.low ||| bit1 4 j else c.isl.low,
       clks := c.isl.clks.set j (i.clks.getD j 0 - 4096), memw := c.isl.memw.set j (i.memn.getD j 0),
       occ := c.isl.occ.set j (i.occn.getD j 0), memn := c.isl.memn.set j 0, occn := c.isl.occn.set j 0 } })) ∧
     (i.low.getLsbD j = true → (s.slotted k j).any (fun p => p.2.isReady) = true →
       exec (.lowRailWake k j) s = .next (s.modCore k fun c => { c with isl := c.isl.startWake (bit1 4 j) })) ∧
     (i.wake.getLsbD j = true → i.timer.getD j 0 = 0 → ∃ t, exec (.lowRailWakeDone k j) s = .next t ∧
       (t.core k).isl.low = i.low &&& ~~~ bit1 4 j ∧ (t.core k).isl.wake = i.wake &&& ~~~ bit1 4 j)) ∧
  (∀ (s : State) (c level : Nat) (r : ThermalIn),
     let d := (s.cluster c).dvfs
     let begins := fun (t : State) (k : Nat) => (t.cluster c).dvfs.ramp = true ∧ (t.cluster c).dvfs.tpt = k ∧
       (t.cluster c).dvfs.left = 4000 * ((d.tpt - k) + (k - d.tpt)) ∧
           (t.cluster c).dvfs.cpt = if k < d.tpt then k else d.tpt
     let rests := fun (t : State) => (t.cluster c).dvfs.ramp = false ∧ (t.cluster c).dvfs.cpt = d.tpt
     (d.ramp = true → d.left = 0 → ∃ t, exec (.dvfsRampEnd c) s = .next t ∧
       (s.trip2 = true → (d.tpt ≠ 9 → begins t 9) ∧ (d.tpt = 9 → rests t) ∧ (t.cluster c).dvfs.qpt = d.qpt) ∧
       (s.trip2 = false → (d.qpt ≠ 0 → d.qpt ≠ d.tpt → begins t d.qpt) ∧ (d.qpt = 0 ∨ d.qpt = d.tpt → rests t) ∧
         (t.cluster c).dvfs.qpt = 0)) ∧
     (r.temps.length = 66 → s.heat.due = [] → ∃ t, exec (.thermalSample r) s = .next t ∧
         t.heat.pktemp = hottest r.temps ∧
       t.heat.pkpwr = r.pkpwr ∧ t.heat.modpwr = r.modpwr ∧ (∀ c < 64, (t.cluster c).tsens = r.temps.getD c 0) ∧
       t.heat.trips = s.heat.trips ∧ t.heat.due = [1, 2, 3].filter fun n =>
         let x := s.heat.trips.getD (n - 1) { active := false, dwell := 0 }
         let limit : Int := match n with | 1 => 95 | 2 => 100 | _ => 108
         decide (20000000 ≤ x.dwell) && (if x.active then decide ((hottest r.temps).toInt ≤ 16 * (limit - 3))
           else decide (16 * limit ≤ (hottest r.temps).toInt))) ∧
     (∀ l, s.heat.due = level :: l →
       let on := !(s.heat.trips.getD (level - 1) { active := false, dwell := 0 }).active
       let u := { s with heat := { s.heat with
         due := l, tripev := true, trips := s.heat.trips.set (level - 1) { active := on, dwell := 0 } } }
       let v := (u.platformAll 0 0 u.heat.trip).send (.msix 0)
       exec (.tripChange level) s = .next (match level with
         | 2 => v.trip2Change on
         | 3 => if on then v.haltAll else v
         | _ => v)) ∧
     (s.heat.due.head? ≠ some level → exec (.tripChange level) s = .next s) ∧
     (∀ (code n m : Nat), ∀ k < 4, ((s.platformAll code n m).die k) =
       let x := s.die k
       let e := evBytes s.time.toNat x.seq.toNat (1536 + k)
         { kind := 17, code := code, wid := n, part := 0, pc := 0, dseq := 0, qmask := 0, data := m }
       { (if x.frozen then { x with drop := if x.drop = BitVec.allOnes 32 then x.drop else x.drop + 1 }
          else { x with recs := x.recs.put (x.tail.toNat % 4096) e, tail := x.tail + 1 }) with seq := x.seq + 1 }) ∧
     (∃ t, exec .trip4PowerOff s = .next t ∧ t.heat.powered = false ∧ t.mem = s.mem) ∧
     (s.time = BitVec.allOnes 48 → ∃ t, exec .deviceTimeWrap s = .next t ∧ t.time = 0 ∧ t.wrapped = true ∧
         t.mem = s.mem))
end

