-- ==== Sys2Proof/Laws/Dispatch.lean ====
section
/-! SUPPORT. The arm of each constructor, as an equation. -/

namespace Sys2Proof.Machine

open Sys2Proof

theorem exec_nop (x : NopOp) (s : State) : exec (.nop x) s = execNop x s := rfl
theorem exec_mov (x : AluOp) (s : State) : exec (.mov x) s = execMov x s := rfl
theorem exec_movi (x : LitOp) (s : State) : exec (.movi x) s = execMovi x s := rfl
theorem exec_sel (x : AluOp) (s : State) : exec (.sel x) s = execSel x s := rfl
theorem exec_iadd (x : AluOp) (s : State) : exec (.iadd x) s = execIadd x s := rfl
theorem exec_isub (x : AluOp) (s : State) : exec (.isub x) s = execIsub x s := rfl
theorem exec_imul (x : AluOp) (s : State) : exec (.imul x) s = execImul x s := rfl
theorem exec_imulh (x : AluOp) (s : State) : exec (.imulh x) s = execImulh x s := rfl
theorem exec_imad (x : AluOp) (s : State) : exec (.imad x) s = execImad x s := rfl
theorem exec_imin (x : AluOp) (s : State) : exec (.imin x) s = execImin x s := rfl
theorem exec_imax (x : AluOp) (s : State) : exec (.imax x) s = execImax x s := rfl
theorem exec_iabs (x : AluOp) (s : State) : exec (.iabs x) s = execIabs x s := rfl
theorem exec_and (x : AluOp) (s : State) : exec (.and x) s = execAnd x s := rfl
theorem exec_or (x : AluOp) (s : State) : exec (.or x) s = execOr x s := rfl
theorem exec_xor (x : AluOp) (s : State) : exec (.xor x) s = execXor x s := rfl
theorem exec_not (x : AluOp) (s : State) : exec (.not x) s = execNot x s := rfl
theorem exec_shl (x : AluOp) (s : State) : exec (.shl x) s = execShl x s := rfl
theorem exec_shr (x : AluOp) (s : State) : exec (.shr x) s = execShr x s := rfl
theorem exec_rot (x : AluOp) (s : State) : exec (.rot x) s = execRot x s := rfl
theorem exec_bfx (x : AluOp) (s : State) : exec (.bfx x) s = execBfx x s := rfl
theorem exec_bfi (x : AluOp) (s : State) : exec (.bfi x) s = execBfi x s := rfl
theorem exec_popc (x : AluOp) (s : State) : exec (.popc x) s = execPopc x s := rfl
theorem exec_clz (x : AluOp) (s : State) : exec (.clz x) s = execClz x s := rfl
theorem exec_brev (x : AluOp) (s : State) : exec (.brev x) s = execBrev x s := rfl
theorem exec_icmp (x : AluOp) (s : State) : exec (.icmp x) s = execIcmp x s := rfl
theorem exec_addc (x : AluOp) (s : State) : exec (.addc x) s = execAddc x s := rfl
theorem exec_lea (x : LitOp) (s : State) : exec (.lea x) s = execLea x s := rfl
theorem exec_iadd3 (x : AluOp) (s : State) : exec (.iadd3 x) s = execIadd3 x s := rfl
theorem exec_sati (x : AluOp) (s : State) : exec (.sati x) s = execSati x s := rfl
theorem exec_fadd (x : AluOp) (s : State) : exec (.fadd x) s = execFadd x s := rfl
theorem exec_fsub (x : AluOp) (s : State) : exec (.fsub x) s = execFsub x s := rfl
theorem exec_fmul (x : AluOp) (s : State) : exec (.fmul x) s = execFmul x s := rfl
theorem exec_ffma (x : AluOp) (s : State) : exec (.ffma x) s = execFfma x s := rfl
theorem exec_fmin (x : AluOp) (s : State) : exec (.fmin x) s = execFmin x s := rfl
theorem exec_fmax (x : AluOp) (s : State) : exec (.fmax x) s = execFmax x s := rfl
theorem exec_fcmp (x : AluOp) (s : State) : exec (.fcmp x) s = execFcmp x s := rfl
theorem exec_fclass (x : AluOp) (s : State) : exec (.fclass x) s = execFclass x s := rfl
theorem exec_frnd (x : AluOp) (s : State) : exec (.frnd x) s = execFrnd x s := rfl
theorem exec_fcvt (x : AluOp) (s : State) : exec (.fcvt x) s = execFcvt x s := rfl
theorem exec_ftoi (x : AluOp) (s : State) : exec (.ftoi x) s = execFtoi x s := rfl
theorem exec_itof (x : AluOp) (s : State) : exec (.itof x) s = execItof x s := rfl
theorem exec_exp2 (x : AluOp) (s : State) : exec (.exp2 x) s = execExp2 x s := rfl
theorem exec_log2 (x : AluOp) (s : State) : exec (.log2 x) s = execLog2 x s := rfl
theorem exec_rcp (x : AluOp) (s : State) : exec (.rcp x) s = execRcp x s := rfl
theorem exec_rsq (x : AluOp) (s : State) : exec (.rsq x) s = execRsq x s := rfl
theorem exec_sqrt (x : AluOp) (s : State) : exec (.sqrt x) s = execSqrt x s := rfl
theorem exec_sin (x : AluOp) (s : State) : exec (.sin x) s = execSin x s := rfl
theorem exec_cos (x : AluOp) (s : State) : exec (.cos x) s = execCos x s := rfl
theorem exec_fdot2 (x : AluOp) (s : State) : exec (.fdot2 x) s = execFdot2 x s := rfl
theorem exec_fpk2 (x : AluOp) (s : State) : exec (.fpk2 x) s = execFpk2 x s := rfl
theorem exec_fscale (x : AluOp) (s : State) : exec (.fscale x) s = execFscale x s := rfl
theorem exec_fmed3 (x : AluOp) (s : State) : exec (.fmed3 x) s = execFmed3 x s := rfl
theorem exec_ffrac (x : AluOp) (s : State) : exec (.ffrac x) s = execFfrac x s := rfl
theorem exec_hfma2 (x : AluOp) (s : State) : exec (.hfma2 x) s = execHfma2 x s := rfl
theorem exec_hadd2 (x : AluOp) (s : State) : exec (.hadd2 x) s = execHadd2 x s := rfl
theorem exec_hmul2 (x : AluOp) (s : State) : exec (.hmul2 x) s = execHmul2 x s := rfl
theorem exec_qdot4 (x : AluOp) (s : State) : exec (.qdot4 x) s = execQdot4 x s := rfl
theorem exec_qswz (x : XlOp) (s : State) : exec (.qswz x) s = execQswz x s := rfl
theorem exec_ballot (x : XlOp) (s : State) : exec (.ballot x) s = execBallot x s := rfl
theorem exec_vote (x : XlOp) (s : State) : exec (.vote x) s = execVote x s := rfl
theorem exec_shfl (x : XlOp) (s : State) : exec (.shfl x) s = execShfl x s := rfl
theorem exec_bcast (x : XlOp) (s : State) : exec (.bcast x) s = execBcast x s := rfl
theorem exec_redux (x : XlOp) (s : State) : exec (.redux x) s = execRedux x s := rfl
theorem exec_scanx (x : XlOp) (s : State) : exec (.scanx x) s = execScanx x s := rfl
theorem exec_match (x : XlOp) (s : State) : exec (.match x) s = execMatch x s := rfl
theorem exec_readlane (x : XlOp) (s : State) : exec (.readlane x) s = execReadlane x s := rfl
theorem exec_writelane (x : XlOp) (s : State) : exec (.writelane x) s = execWritelane x s := rfl
theorem exec_xshuf (x : XlOp) (s : State) : exec (.xshuf x) s = execXshuf x s := rfl
theorem exec_xshufMatch (a b : Nat) (s : State) : exec (.xshufMatch a b) s = stepXshufMatch a b s := rfl
theorem exec_xshufTimeout (p : PartRef) (s : State) : exec (.xshufTimeout p) s = stepXshufTimeout p s := rfl
theorem exec_br (x : FlowOp) (s : State) : exec (.br x) s = execBr x s := rfl
theorem exec_brc (x : FlowOp) (s : State) : exec (.brc x) s = execBrc x s := rfl
theorem exec_stackSpillDone (p : PartRef) (s : State) : exec (.stackSpillDone p) s = stepStackSpillDone p s := rfl
theorem exec_brx (x : JumpOp) (s : State) : exec (.brx x) s = execBrx x s := rfl
theorem exec_call (x : FlowOp) (s : State) : exec (.call x) s = execCall x s := rfl
theorem exec_ret (x : JumpOp) (s : State) : exec (.ret x) s = execRet x s := rfl
theorem exec_knit (x : CtlOp) (s : State) : exec (.knit x) s = execKnit x s := rfl
theorem exec_knitFuse (wave : Nat) (pc : BitVec 64) (s : State) : exec (.knitFuse wave pc) s = stepKnitFuse wave pc s := rfl
theorem exec_knitTimeout (wave : Nat) (pc : BitVec 64) (s : State) : exec (.knitTimeout wave pc) s = stepKnitTimeout wave pc s := rfl
theorem exec_implicitKnitFuse (wave : Nat) (pc : BitVec 64) (s : State) : exec (.implicitKnitFuse wave pc) s = stepImplicitKnitFuse wave pc s := rfl
theorem exec_implicitKnitTimeout (wave : Nat) (pc : BitVec 64) (s : State) : exec (.implicitKnitTimeout wave pc) s = stepImplicitKnitTimeout wave pc s := rfl
theorem exec_cutctl (x : CtlOp) (s : State) : exec (.cutctl x) s = execCutctl x s := rfl
theorem exec_rep (x : FlowOp) (s : State) : exec (.rep x) s = execRep x s := rfl
theorem exec_lpin (x : FlowOp) (s : State) : exec (.lpin x) s = execLpin x s := rfl
theorem exec_exit (x : CtlOp) (s : State) : exec (.exit x) s = execExit x s := rfl
theorem exec_lastExitResume (p : PartRef) (s : State) : exec (.lastExitResume p) s = stepLastExitResume p s := rfl
theorem exec_waitn (x : CtlOp) (s : State) : exec (.waitn x) s = execWaitn x s := rfl
theorem exec_waitnRelease (p : PartRef) (s : State) : exec (.waitnRelease p) s = stepWaitnRelease p s := rfl
theorem exec_missCut (p : PartRef) (s : State) : exec (.missCut p) s = stepMissCut p s := rfl
theorem exec_lineWaitRelease (p : PartRef) (s : State) : exec (.lineWaitRelease p) s = stepLineWaitRelease p s := rfl
theorem exec_lineRefetch (p : PartRef) (s : State) : exec (.lineRefetch p) s = stepLineRefetch p s := rfl
theorem exec_yield (x : CtlOp) (s : State) : exec (.yield x) s = execYield x s := rfl
theorem exec_setfmt (x : CtlOp) (s : State) : exec (.setfmt x) s = execSetfmt x s := rfl
theorem exec_getst (x : CtlOp) (s : State) : exec (.getst x) s = execGetst x s := rfl
theorem exec_sleep (x : CtlOp) (s : State) : exec (.sleep x) s = execSleep x s := rfl
theorem exec_sleepExpiry (p : PartRef) (s : State) : exec (.sleepExpiry p) s = stepSleepExpiry p s := rfl
theorem exec_ld (x : MemOp) (s : State) : exec (.ld x) s = execLd x s := rfl
theorem exec_st (x : MemOp) (s : State) : exec (.st x) s = execSt x s := rfl
theorem exec_lds (x : MemOp) (s : State) : exec (.lds x) s = execLds x s := rfl
theorem exec_ldx (x : MemOp) (s : State) : exec (.ldx x) s = execLdx x s := rfl
theorem exec_stx (x : MemOp) (s : State) : exec (.stx x) s = execStx x s := rfl
theorem exec_ldw (x : MemOp) (s : State) : exec (.ldw x) s = execLdw x s := rfl
theorem exec_prf (x : MemOp) (s : State) : exec (.prf x) s = execPrf x s := rfl
theorem exec_invl (x : MemOp) (s : State) : exec (.invl x) s = execInvl x s := rfl
theorem exec_invlAll (x : MemOp) (s : State) : exec (.invlAll x) s = execInvlAll x s := rfl
theorem exec_wbl (x : MemOp) (s : State) : exec (.wbl x) s = execWbl x s := rfl
theorem exec_wblAll (x : MemOp) (s : State) : exec (.wblAll x) s = execWblAll x s := rfl
theorem exec_fence (x : CtlOp) (s : State) : exec (.fence x) s = execFence x s := rfl
theorem exec_fenceWaitDone (p : PartRef) (s : State) : exec (.fenceWaitDone p) s = stepFenceWaitDone p s := rfl
theorem exec_fencex (x : CtlOp) (s : State) : exec (.fencex x) s = execFencex x s := rfl
theorem exec_fencexWaitDone (p : PartRef) (s : State) : exec (.fencexWaitDone p) s = stepFencexWaitDone p s := rfl
theorem exec_monw (x : MemOp) (s : State) : exec (.monw x) s = execMonw x s := rfl
theorem exec_monwWake (p : PartRef) (s : State) : exec (.monwWake p) s = stepMonwWake p s := rfl
theorem exec_monwPollExpiry (p : PartRef) (s : State) : exec (.monwPollExpiry p) s = stepMonwPollExpiry p s := rfl
theorem exec_atom (x : MemOp) (s : State) : exec (.atom x) s = execAtom x s := rfl
theorem exec_atomc (x : MemOp) (s : State) : exec (.atomc x) s = execAtomc x s := rfl
theorem exec_red (x : MemOp) (s : State) : exec (.red x) s = execRed x s := rfl
theorem exec_atomicStep (op : Nat) (sel : List Nat) (s : State) : exec (.atomicStep op sel) s = stepAtomicStep op sel s := rfl
theorem exec_fixedOrderResolve (sector : Nat) (s : State) : exec (.fixedOrderResolve sector) s = stepFixedOrderResolve sector s := rfl
theorem exec_bcopy (x : EngOp) (s : State) : exec (.bcopy x) s = execBcopy x s := rfl
theorem exec_gcopy (x : EngOp) (s : State) : exec (.gcopy x) s = execGcopy x s := rfl
theorem exec_scopy (x : EngOp) (s : State) : exec (.scopy x) s = execScopy x s := rfl
theorem exec_copyWritePerformed (op : Nat) (sel : List Nat) (s : State) : exec (.copyWritePerformed op sel) s = stepCopyWritePerformed op sel s := rfl
theorem exec_copyComplete (op : Nat) (s : State) : exec (.copyComplete op) s = stepCopyComplete op s := rfl
theorem exec_wswrite (x : EngOp) (s : State) : exec (.wswrite x) s = execWswrite x s := rfl
theorem exec_wswriteComplete (op : Nat) (s : State) : exec (.wswriteComplete op) s = stepWswriteComplete op s := rfl
theorem exec_wswin (x : EngOp) (s : State) : exec (.wswin x) s = execWswin x s := rfl
theorem exec_wsWindowEnd (die bank : Nat) (s : State) : exec (.wsWindowEnd die bank) s = stepWsWindowEnd die bank s := rfl
theorem exec_cpoll (x : EngOp) (s : State) : exec (.cpoll x) s = execCpoll x s := rfl
theorem exec_mcst (x : MemOp) (s : State) : exec (.mcst x) s = execMcst x s := rfl
theorem exec_mred (x : MemOp) (s : State) : exec (.mred x) s = execMred x s := rfl
theorem exec_mcstDeliveryPerformed (op member : Nat) (lost : Bool) (s : State) : exec (.mcstDeliveryPerformed op member lost) s = stepMcstDeliveryPerformed op member lost s := rfl
theorem exec_macq (x : EngOp) (s : State) : exec (.macq x) s = execMacq x s := rfl
theorem exec_macqGrant (p : PartRef) (s : State) : exec (.macqGrant p) s = stepMacqGrant p s := rfl
theorem exec_macqTimeout (p : PartRef) (s : State) : exec (.macqTimeout p) s = stepMacqTimeout p s := rfl
theorem exec_mrel (x : EngOp) (s : State) : exec (.mrel x) s = execMrel x s := rfl
theorem exec_mma (x : EngOp) (s : State) : exec (.mma x) s = execMma x s := rfl
theorem exec_mmas (x : EngOp) (s : State) : exec (.mmas x) s = execMmas x s := rfl
theorem exec_fmuOperandsConsumed (op : Nat) (sel : List Nat) (s : State) : exec (.fmuOperandsConsumed op sel) s = stepFmuOperandsConsumed op sel s := rfl
theorem exec_fmuOpComplete (op : Nat) (sel : List Nat) (s : State) : exec (.fmuOpComplete op sel) s = stepFmuOpComplete op sel s := rfl
theorem exec_mfence (x : EngOp) (s : State) : exec (.mfence x) s = execMfence x s := rfl
theorem exec_mwait (x : EngOp) (s : State) : exec (.mwait x) s = execMwait x s := rfl
theorem exec_mwaitRelease (p : PartRef) (s : State) : exec (.mwaitRelease p) s = stepMwaitRelease p s := rfl
theorem exec_mrd (x : EngOp) (s : State) : exec (.mrd x) s = execMrd x s := rfl
theorem exec_mwr (x : EngOp) (s : State) : exec (.mwr x) s = execMwr x s := rfl
theorem exec_mdrain (x : EngOp) (s : State) : exec (.mdrain x) s = execMdrain x s := rfl
theorem exec_twld (x : EngOp) (s : State) : exec (.twld x) s = execTwld x s := rfl
theorem exec_tmac (x : EngOp) (s : State) : exec (.tmac x) s = execTmac x s := rfl
theorem exec_tdrain (x : EngOp) (s : State) : exec (.tdrain x) s = execTdrain x s := rfl
theorem exec_tzero (x : EngOp) (s : State) : exec (.tzero x) s = execTzero x s := rfl
theorem exec_tzeroPlane (x : EngOp) (s : State) : exec (.tzeroPlane x) s = execTzeroPlane x s := rfl
theorem exec_taOperandsConsumed (op : Nat) (sel : List Nat) (s : State) : exec (.taOperandsConsumed op sel) s = stepTaOperandsConsumed op sel s := rfl
theorem exec_taOpStart (op : Nat) (s : State) : exec (.taOpStart op) s = stepTaOpStart op s := rfl
theorem exec_twldComplete (op : Nat) (s : State) : exec (.twldComplete op) s = stepTwldComplete op s := rfl
theorem exec_tmacComplete (op : Nat) (s : State) : exec (.tmacComplete op) s = stepTmacComplete op s := rfl
theorem exec_tdrainComplete (op : Nat) (sel : List Nat) (s : State) : exec (.tdrainComplete op sel) s = stepTdrainComplete op sel s := rfl
theorem exec_tzeroComplete (op : Nat) (s : State) : exec (.tzeroComplete op) s = stepTzeroComplete op s := rfl
theorem exec_tpack (x : EngOp) (s : State) : exec (.tpack x) s = execTpack x s := rfl
theorem exec_tunpk (x : EngOp) (s : State) : exec (.tunpk x) s = execTunpk x s := rfl
theorem exec_tqnt (x : EngOp) (s : State) : exec (.tqnt x) s = execTqnt x s := rfl
theorem exec_tstat (x : EngOp) (s : State) : exec (.tstat x) s = execTstat x s := rfl
theorem exec_smp (x : EngOp) (s : State) : exec (.smp x) s = execSmp x s := rfl
theorem exec_smpl (x : EngOp) (s : State) : exec (.smpl x) s = execSmpl x s := rfl
theorem exec_smpg (x : EngOp) (s : State) : exec (.smpg x) s = execSmpg x s := rfl
theorem exec_gath4 (x : EngOp) (s : State) : exec (.gath4 x) s = execGath4 x s := rfl
theorem exec_txld (x : EngOp) (s : State) : exec (.txld x) s = execTxld x s := rfl
theorem exec_ldec (x : EngOp) (s : State) : exec (.ldec x) s = execLdec x s := rfl
theorem exec_samplerComplete (op : Nat) (sel : List Nat) (s : State) : exec (.samplerComplete op sel) s = stepSamplerComplete op sel s := rfl
theorem exec_edge (x : EngOp) (s : State) : exec (.edge x) s = execEdge x s := rfl
theorem exec_tileq (x : EngOp) (s : State) : exec (.tileq x) s = execTileq x s := rfl
theorem exec_tileRecordHandout (p : PartRef) (pick : Nat) (s : State) : exec (.tileRecordHandout p pick) s = stepTileRecordHandout p pick s := rfl
theorem exec_emit (x : EngOp) (s : State) : exec (.emit x) s = execEmit x s := rfl
theorem exec_rasterAccept (op : Nat) (s : State) : exec (.rasterAccept op) s = stepRasterAccept op s := rfl
theorem exec_rtrace (x : EngOp) (s : State) : exec (.rtrace x) s = execRtrace x s := rfl
theorem exec_rtraceComplete (op : Nat) (sel : List Nat) (s : State) : exec (.rtraceComplete op sel) s = stepRtraceComplete op sel s := rfl
theorem exec_rhit (x : EngOp) (s : State) : exec (.rhit x) s = execRhit x s := rfl
theorem exec_imgst (x : EngOp) (s : State) : exec (.imgst x) s = execImgst x s := rfl
theorem exec_imgstComplete (op : Nat) (sel : List Nat) (s : State) : exec (.imgstComplete op sel) s = stepImgstComplete op sel s := rfl
theorem exec_rninv (x : CtlOp) (s : State) : exec (.rninv x) s = execRninv x s := rfl
theorem exec_rninvAll (x : CtlOp) (s : State) : exec (.rninvAll x) s = execRninvAll x s := rfl
theorem exec_bari (x : CtlOp) (s : State) : exec (.bari x) s = execBari x s := rfl
theorem exec_bariGroup (x : CtlOp) (s : State) : exec (.bariGroup x) s = execBariGroup x s := rfl
theorem exec_arrive (x : CtlOp) (s : State) : exec (.arrive x) s = execArrive x s := rfl
theorem exec_arrdrop (x : CtlOp) (s : State) : exec (.arrdrop x) s = execArrdrop x s := rfl
theorem exec_bwait (x : CtlOp) (s : State) : exec (.bwait x) s = execBwait x s := rfl
theorem exec_bwaitPass (p : PartRef) (s : State) : exec (.bwaitPass p) s = stepBwaitPass p s := rfl
theorem exec_bexpect (x : CtlOp) (s : State) : exec (.bexpect x) s = execBexpect x s := rfl
theorem exec_qpush (x : CtlOp) (s : State) : exec (.qpush x) s = execQpush x s := rfl
theorem exec_qpushResume (p : PartRef) (s : State) : exec (.qpushResume p) s = stepQpushResume p s := rfl
theorem exec_qpop (x : CtlOp) (s : State) : exec (.qpop x) s = execQpop x s := rfl
theorem exec_qpopResume (p : PartRef) (s : State) : exec (.qpopResume p) s = stepQpopResume p s := rfl
theorem exec_qtry (x : CtlOp) (s : State) : exec (.qtry x) s = execQtry x s := rfl
theorem exec_qallow (x : CtlOp) (s : State) : exec (.qallow x) s = execQallow x s := rfl
theorem exec_qallowInit (x : CtlOp) (s : State) : exec (.qallowInit x) s = execQallowInit x s := rfl
theorem exec_gbar (x : CtlOp) (s : State) : exec (.gbar x) s = execGbar x s := rfl
theorem exec_gbarComplete (launch : Nat) (s : State) : exec (.gbarComplete launch) s = stepGbarComplete launch s := rfl
theorem exec_launch (x : CtlOp) (s : State) : exec (.launch x) s = execLaunch x s := rfl
theorem exec_grun (x : CtlOp) (s : State) : exec (.grun x) s = execGrun x s := rfl
theorem exec_cancelHandle (x : CtlOp) (s : State) : exec (.cancelHandle x) s = execCancelHandle x s := rfl
theorem exec_cancelLaunch (x : CtlOp) (s : State) : exec (.cancelLaunch x) s = execCancelLaunch x s := rfl
theorem exec_cancelPhase (x : CtlOp) (s : State) : exec (.cancelPhase x) s = execCancelPhase x s := rfl
theorem exec_cancelJob (x : CtlOp) (s : State) : exec (.cancelJob x) s = execCancelJob x s := rfl
theorem exec_ccwait (x : CtlOp) (s : State) : exec (.ccwait x) s = execCcwait x s := rfl
theorem exec_ccwaitWake (p : PartRef) (s : State) : exec (.ccwaitWake p) s = stepCcwaitWake p s := rfl
theorem exec_ccwaitPollExpiry (p : PartRef) (s : State) : exec (.ccwaitPollExpiry p) s = stepCcwaitPollExpiry p s := rfl
theorem exec_rosb (x : CtlOp) (s : State) : exec (.rosb x) s = execRosb x s := rfl
theorem exec_rosbAdmit (p : PartRef) (s : State) : exec (.rosbAdmit p) s = stepRosbAdmit p s := rfl
theorem exec_rose (x : CtlOp) (s : State) : exec (.rose x) s = execRose x s := rfl
theorem exec_trap (x : CtlOp) (s : State) : exec (.trap x) s = execTrap x s := rfl
theorem exec_brk (x : CtlOp) (s : State) : exec (.brk x) s = execBrk x s := rfl
theorem exec_rettReissue (x : CtlOp) (s : State) : exec (.rettReissue x) s = execRettReissue x s := rfl
theorem exec_rettSkip (x : CtlOp) (s : State) : exec (.rettSkip x) s = execRettSkip x s := rfl
theorem exec_rettPc (x : CtlOp) (s : State) : exec (.rettPc x) s = execRettPc x s := rfl
theorem exec_rettEnd (x : CtlOp) (s : State) : exec (.rettEnd x) s = execRettEnd x s := rfl
theorem exec_rdsr (x : CtlOp) (s : State) : exec (.rdsr x) s = execRdsr x s := rfl
theorem exec_wrsr (x : CtlOp) (s : State) : exec (.wrsr x) s = execWrsr x s := rfl
theorem exec_bootctlReadyWrite (s : State) : exec .bootctlReadyWrite s = stepBootctlReadyWrite s := rfl
theorem exec_tlbinvAll (x : CtlOp) (s : State) : exec (.tlbinvAll x) s = execTlbinvAll x s := rfl
theorem exec_tlbinvAsid (x : CtlOp) (s : State) : exec (.tlbinvAsid x) s = execTlbinvAsid x s := rfl
theorem exec_tlbinvPage (x : CtlOp) (s : State) : exec (.tlbinvPage x) s = execTlbinvPage x s := rfl
theorem exec_assayPut (x : CtlOp) (s : State) : exec (.assayPut x) s = execAssayPut x s := rfl
theorem exec_assayFrz (x : CtlOp) (s : State) : exec (.assayFrz x) s = execAssayFrz x s := rfl
theorem exec_assayRun (x : CtlOp) (s : State) : exec (.assayRun x) s = execAssayRun x s := rfl
theorem exec_mark (x : CtlOp) (s : State) : exec (.mark x) s = execMark x s := rfl
theorem exec_logctl (x : CtlOp) (s : State) : exec (.logctl x) s = execLogctl x s := rfl
theorem exec_seqrdTime (x : CtlOp) (s : State) : exec (.seqrdTime x) s = execSeqrdTime x s := rfl
theorem exec_seqrdDseq (x : CtlOp) (s : State) : exec (.seqrdDseq x) s = execSeqrdDseq x s := rfl
theorem exec_seqrdOrd (x : CtlOp) (s : State) : exec (.seqrdOrd x) s = execSeqrdOrd x s := rfl
theorem exec_dvreq (x : CtlOp) (s : State) : exec (.dvreq x) s = execDvreq x s := rfl
theorem exec_haltSave (x : CtlOp) (s : State) : exec (.haltSave x) s = execHaltSave x s := rfl
theorem exec_haltGo (x : CtlOp) (s : State) : exec (.haltGo x) s = execHaltGo x s := rfl
theorem exec_haltReset (x : CtlOp) (s : State) : exec (.haltReset x) s = execHaltReset x s := rfl
theorem exec_haltDevice (x : CtlOp) (s : State) : exec (.haltDevice x) s = execHaltDevice x s := rfl
theorem exec_contextReset (ctx : Nat) (s : State) : exec (.contextReset ctx) s = stepContextReset ctx s := rfl
theorem exec_loadComplete (op : Nat) (sel : List Nat) (s : State) : exec (.loadComplete op sel) s = stepLoadComplete op sel s := rfl
theorem exec_storePerformed (op : Nat) (sel : List Nat) (s : State) : exec (.storePerformed op sel) s = stepStorePerformed op sel s := rfl
theorem exec_ldwComplete (op : Nat) (sel : List Nat) (s : State) : exec (.ldwComplete op sel) s = stepLdwComplete op sel s := rfl
theorem exec_prefetchPlaced (op : Nat) (drop : Bool) (s : State) : exec (.prefetchPlaced op drop) s = stepPrefetchPlaced op drop s := rfl
theorem exec_l1Evict (core sector : Nat) (s : State) : exec (.l1Evict core sector) s = stepL1Evict core sector s := rfl
theorem exec_pageWalk (core : Nat) (asid : Nat) (va : BitVec 64) (s : State) : exec (.pageWalk core asid va) s = stepPageWalk core asid va s := rfl
theorem exec_fltdoneWrite (id : BitVec 32) (s : State) : exec (.fltdoneWrite id) s = stepFltdoneWrite id s := rfl
theorem exec_partRestore (p : PartRef) (s : State) : exec (.partRestore p) s = stepPartRestore p s := rfl
theorem exec_faultBufferDrain (cluster : Nat) (s : State) : exec (.faultBufferDrain cluster) s = stepFaultBufferDrain cluster s := rfl
theorem exec_trapBufferDrain (cluster : Nat) (s : State) : exec (.trapBufferDrain cluster) s = stepTrapBufferDrain cluster s := rfl
theorem exec_jobaddrWrite (ctx : Nat) (addr : BitVec 64) (size : Nat) (s : State) : exec (.jobaddrWrite ctx addr size) s = stepJobaddrWrite ctx addr size s := rfl
theorem exec_jobIntake (ctx : Nat) (s : State) : exec (.jobIntake ctx) s = stepJobIntake ctx s := rfl
theorem exec_unitLeaveWaiting (unit : Nat) (s : State) : exec (.unitLeaveWaiting unit) s = stepUnitLeaveWaiting unit s := rfl
theorem exec_unitChecking (unit : Nat) (s : State) : exec (.unitChecking unit) s = stepUnitChecking unit s := rfl
theorem exec_phaseStart (unit : Nat) (s : State) : exec (.phaseStart unit) s = stepPhaseStart unit s := rfl
theorem exec_graphNodeStart (unit node : Nat) (s : State) : exec (.graphNodeStart unit node) s = stepGraphNodeStart unit node s := rfl
theorem exec_weightStage (unit : Nat) (s : State) : exec (.weightStage unit) s = stepWeightStage unit s := rfl
theorem exec_groupDispatch (unit core : Nat) (s : State) : exec (.groupDispatch unit core) s = stepGroupDispatch unit core s := rfl
theorem exec_waveDispatch (group : Nat) (s : State) : exec (.waveDispatch group) s = stepWaveDispatch group s := rfl
theorem exec_groupEnd (group : Nat) (s : State) : exec (.groupEnd group) s = stepGroupEnd group s := rfl
theorem exec_unitEnd (unit : Nat) (s : State) : exec (.unitEnd unit) s = stepUnitEnd unit s := rfl
theorem exec_partSwap (core sched : Nat) (s : State) : exec (.partSwap core sched) s = stepPartSwap core sched s := rfl
theorem exec_forcedSwap (core sched : Nat) (s : State) : exec (.forcedSwap core sched) s = stepForcedSwap core sched s := rfl
theorem exec_preempt (group : Nat) (s : State) : exec (.preempt group) s = stepPreempt group s := rfl
theorem exec_groupRestore (group core : Nat) (s : State) : exec (.groupRestore group core) s = stepGroupRestore group core s := rfl
theorem exec_drawWatchdog (unit : Nat) (s : State) : exec (.drawWatchdog unit) s = stepDrawWatchdog unit s := rfl
theorem exec_freezeAttach (core : Nat) (s : State) : exec (.freezeAttach core) s = stepFreezeAttach core s := rfl
theorem exec_freezeRelease (core : Nat) (s : State) : exec (.freezeRelease core) s = stepFreezeRelease core s := rfl
theorem exec_freezeLimitExpiry (core : Nat) (s : State) : exec (.freezeLimitExpiry core) s = stepFreezeLimitExpiry core s := rfl
theorem exec_bpBroadcastWrite (n j : Nat) (value : BitVec 32) (s : State) : exec (.bpBroadcastWrite n j value) s = stepBpBroadcastWrite n j value s := rfl
theorem exec_hpctlWrite (value : BitVec 32) (s : State) : exec (.hpctlWrite value) s = stepHpctlWrite value s := rfl
theorem exec_profileSample (core sched : Nat) (s : State) : exec (.profileSample core sched) s = stepProfileSample core sched s := rfl
theorem exec_bucketWindow (s : State) : exec .bucketWindow s = stepBucketWindow s := rfl
theorem exec_qbktWrite (port cls : Nat) (value : BitVec 32) (s : State) : exec (.qbktWrite port cls value) s = stepQbktWrite port cls value s := rfl
theorem exec_requestInject (port cls : Nat) (s : State) : exec (.requestInject port cls) s = stepRequestInject port cls s := rfl
theorem exec_hostMemRequest (addr : BitVec 64) (len : Nat) (data : Option (List (BitVec 8))) (s : State) : exec (.hostMemRequest addr len data) s = stepHostMemRequest addr len data s := rfl
theorem exec_backInvalidate (line : Nat) (data : Option (List (BitVec 8))) (s : State) : exec (.backInvalidate line data) s = stepBackInvalidate line data s := rfl
theorem exec_domainRequestIn (r : DomainReq) (s : State) : exec (.domainRequestIn r) s = stepDomainRequestIn r s := rfl
theorem exec_fabricLossResponse (t : LossTarget) (s : State) : exec (.fabricLossResponse t) s = stepFabricLossResponse t s := rfl
theorem exec_fabricTimeout (t : LossTarget) (s : State) : exec (.fabricTimeout t) s = stepFabricTimeout t s := rfl
theorem exec_collOpen (g : Nat) (s : State) : exec (.collOpen g) s = stepCollOpen g s := rfl
theorem exec_collClose (g : Nat) (s : State) : exec (.collClose g) s = stepCollClose g s := rfl
theorem exec_collDeliveryIn (g : Nat) (r : DomainReq) (s : State) : exec (.collDeliveryIn g r) s = stepCollDeliveryIn g r s := rfl
theorem exec_rstreqWrite (value : BitVec 32) (boot : BootIn) (s : State) : exec (.rstreqWrite value boot) s = stepRstreqWrite value boot s := rfl
theorem exec_coldReset (boot : BootIn) (s : State) : exec (.coldReset boot) s = stepColdReset boot s := rfl
theorem exec_warmResetHost (boot : BootIn) (s : State) : exec (.warmResetHost boot) s = stepWarmResetHost boot s := rfl
theorem exec_warmResetFatal (boot : BootIn) (s : State) : exec (.warmResetFatal boot) s = stepWarmResetFatal boot s := rfl
theorem exec_planisherWindow (core : Nat) (s : State) : exec (.planisherWindow core) s = stepPlanisherWindow core s := rfl
theorem exec_lowRailWindow (core sched memWaits occupancy : Nat) (s : State) :
    exec (.lowRailWindow core sched memWaits occupancy) s = stepLowRailWindow core sched memWaits occupancy s := rfl
theorem exec_lowRailWake (core sched : Nat) (s : State) : exec (.lowRailWake core sched) s = stepLowRailWake core sched s := rfl
theorem exec_lowRailWakeDone (core sched : Nat) (s : State) : exec (.lowRailWakeDone core sched) s = stepLowRailWakeDone core sched s := rfl
theorem exec_dvfsRampEnd (cluster : Nat) (s : State) : exec (.dvfsRampEnd cluster) s = stepDvfsRampEnd cluster s := rfl
theorem exec_thermalSample (r : ThermalIn) (s : State) : exec (.thermalSample r) s = stepThermalSample r s := rfl
theorem exec_tripChange (level : Nat) (s : State) : exec (.tripChange level) s = stepTripChange level s := rfl
theorem exec_trip4PowerOff (s : State) : exec .trip4PowerOff s = stepTrip4PowerOff s := rfl
theorem exec_deviceTimeWrap (s : State) : exec .deviceTimeWrap s = stepDeviceTimeWrap s := rfl
theorem exec_registerWrite (off : Nat) (value : BitVec 64) (s : State) : exec (.registerWrite off value) s = stepRegisterWrite off value s := rfl
theorem exec_spdmRequest (nonce : BitVec 256) (s : State) : exec (.spdmRequest nonce) s = stepSpdmRequest nonce s := rfl
theorem exec_configRequest (addr : BitVec 32) (write : Option (BitVec 32)) (s : State) : exec (.configRequest addr write) s = stepConfigRequest addr write s := rfl

end Sys2Proof.Machine
end

