-- ==== Sys2Proof/Laws/State.lean ====
section
/-! SUPPORT. What each update of the state changes and what it leaves: one lemma for each field. -/

namespace Sys2Proof.Machine

open Sys2Proof

@[simp] theorem State.modCore_mem (s : State) (k : Nat) (f : Core → Core) : (s.modCore k f).mem = s.mem := rfl
@[simp] theorem State.modCore_waves (s : State) (k : Nat) (f : Core → Core) : (s.modCore k f).waves = s.waves := rfl
@[simp] theorem State.modCore_groups (s : State) (k : Nat) (f : Core → Core) : (s.modCore k f).groups = s.groups := rfl
@[simp] theorem State.modCore_units (s : State) (k : Nat) (f : Core → Core) : (s.modCore k f).units = s.units := rfl
@[simp] theorem State.modCore_fresh (s : State) (k : Nat) (f : Core → Core) : (s.modCore k f).fresh = s.fresh := rfl
@[simp] theorem State.modCore_ops (s : State) (k : Nat) (f : Core → Core) : (s.modCore k f).ops = s.ops := rfl
@[simp] theorem State.modCore_cores (s : State) (k : Nat) (f : Core → Core) : (s.modCore k f).cores = s.cores.put k (f (s.core k)) := rfl
@[simp] theorem State.modCore_clusters (s : State) (k : Nat) (f : Core → Core) : (s.modCore k f).clusters = s.clusters := rfl
@[simp] theorem State.modCore_slices (s : State) (k : Nat) (f : Core → Core) : (s.modCore k f).slices = s.slices := rfl
@[simp] theorem State.modCore_dies (s : State) (k : Nat) (f : Core → Core) : (s.modCore k f).dies = s.dies := rfl
@[simp] theorem State.modCore_ctxs (s : State) (k : Nat) (f : Core → Core) : (s.modCore k f).ctxs = s.ctxs := rfl
@[simp] theorem State.modCore_time (s : State) (k : Nat) (f : Core → Core) : (s.modCore k f).time = s.time := rfl
@[simp] theorem State.modCore_wrapped (s : State) (k : Nat) (f : Core → Core) : (s.modCore k f).wrapped = s.wrapped := rfl
@[simp] theorem State.modCore_clk (s : State) (k : Nat) (f : Core → Core) : (s.modCore k f).clk = s.clk := rfl
@[simp] theorem State.modCore_trans (s : State) (k : Nat) (f : Core → Core) : (s.modCore k f).trans = s.trans := rfl
@[simp] theorem State.modCore_tables (s : State) (k : Nat) (f : Core → Core) : (s.modCore k f).tables = s.tables := rfl
@[simp] theorem State.modCore_link (s : State) (k : Nat) (f : Core → Core) : (s.modCore k f).link = s.link := rfl
@[simp] theorem State.modCore_net (s : State) (k : Nat) (f : Core → Core) : (s.modCore k f).net = s.net := rfl
@[simp] theorem State.modCore_buckets (s : State) (k : Nat) (f : Core → Core) : (s.modCore k f).buckets = s.buckets := rfl
@[simp] theorem State.modCore_heat (s : State) (k : Nat) (f : Core → Core) : (s.modCore k f).heat = s.heat := rfl
@[simp] theorem State.modCore_boot (s : State) (k : Nat) (f : Core → Core) : (s.modCore k f).boot = s.boot := rfl
@[simp] theorem State.modCore_recs (s : State) (k : Nat) (f : Core → Core) : (s.modCore k f).recs = s.recs := rfl
@[simp] theorem State.modCore_out (s : State) (k : Nat) (f : Core → Core) : (s.modCore k f).out = s.out := rfl
@[simp] theorem State.modCore_turns (s : State) (k : Nat) (f : Core → Core) : (s.modCore k f).turns = s.turns := rfl
@[simp] theorem State.modCore_cur (s : State) (k : Nat) (f : Core → Core) : (s.modCore k f).cur = s.cur := rfl
@[simp] theorem State.modCore_ctr (s : State) (k : Nat) (f : Core → Core) : (s.modCore k f).ctr = s.ctr := rfl

@[simp] theorem State.modCluster_mem (s : State) (k : Nat) (f : Cluster → Cluster) : (s.modCluster k f).mem = s.mem := rfl
@[simp] theorem State.modCluster_waves (s : State) (k : Nat) (f : Cluster → Cluster) : (s.modCluster k f).waves = s.waves := rfl
@[simp] theorem State.modCluster_groups (s : State) (k : Nat) (f : Cluster → Cluster) : (s.modCluster k f).groups = s.groups := rfl
@[simp] theorem State.modCluster_units (s : State) (k : Nat) (f : Cluster → Cluster) : (s.modCluster k f).units = s.units := rfl
@[simp] theorem State.modCluster_fresh (s : State) (k : Nat) (f : Cluster → Cluster) : (s.modCluster k f).fresh = s.fresh := rfl
@[simp] theorem State.modCluster_ops (s : State) (k : Nat) (f : Cluster → Cluster) : (s.modCluster k f).ops = s.ops := rfl
@[simp] theorem State.modCluster_cores (s : State) (k : Nat) (f : Cluster → Cluster) : (s.modCluster k f).cores = s.cores := rfl
@[simp] theorem State.modCluster_clusters (s : State) (k : Nat) (f : Cluster → Cluster) : (s.modCluster k f).clusters = s.clusters.put k (f (s.cluster k)) := rfl
@[simp] theorem State.modCluster_slices (s : State) (k : Nat) (f : Cluster → Cluster) : (s.modCluster k f).slices = s.slices := rfl
@[simp] theorem State.modCluster_dies (s : State) (k : Nat) (f : Cluster → Cluster) : (s.modCluster k f).dies = s.dies := rfl
@[simp] theorem State.modCluster_ctxs (s : State) (k : Nat) (f : Cluster → Cluster) : (s.modCluster k f).ctxs = s.ctxs := rfl
@[simp] theorem State.modCluster_time (s : State) (k : Nat) (f : Cluster → Cluster) : (s.modCluster k f).time = s.time := rfl
@[simp] theorem State.modCluster_wrapped (s : State) (k : Nat) (f : Cluster → Cluster) : (s.modCluster k f).wrapped = s.wrapped := rfl
@[simp] theorem State.modCluster_clk (s : State) (k : Nat) (f : Cluster → Cluster) : (s.modCluster k f).clk = s.clk := rfl
@[simp] theorem State.modCluster_trans (s : State) (k : Nat) (f : Cluster → Cluster) : (s.modCluster k f).trans = s.trans := rfl
@[simp] theorem State.modCluster_tables (s : State) (k : Nat) (f : Cluster → Cluster) : (s.modCluster k f).tables = s.tables := rfl
@[simp] theorem State.modCluster_link (s : State) (k : Nat) (f : Cluster → Cluster) : (s.modCluster k f).link = s.link := rfl
@[simp] theorem State.modCluster_net (s : State) (k : Nat) (f : Cluster → Cluster) : (s.modCluster k f).net = s.net := rfl
@[simp] theorem State.modCluster_buckets (s : State) (k : Nat) (f : Cluster → Cluster) : (s.modCluster k f).buckets = s.buckets := rfl
@[simp] theorem State.modCluster_heat (s : State) (k : Nat) (f : Cluster → Cluster) : (s.modCluster k f).heat = s.heat := rfl
@[simp] theorem State.modCluster_boot (s : State) (k : Nat) (f : Cluster → Cluster) : (s.modCluster k f).boot = s.boot := rfl
@[simp] theorem State.modCluster_recs (s : State) (k : Nat) (f : Cluster → Cluster) : (s.modCluster k f).recs = s.recs := rfl
@[simp] theorem State.modCluster_out (s : State) (k : Nat) (f : Cluster → Cluster) : (s.modCluster k f).out = s.out := rfl
@[simp] theorem State.modCluster_turns (s : State) (k : Nat) (f : Cluster → Cluster) : (s.modCluster k f).turns = s.turns := rfl
@[simp] theorem State.modCluster_cur (s : State) (k : Nat) (f : Cluster → Cluster) : (s.modCluster k f).cur = s.cur := rfl
@[simp] theorem State.modCluster_ctr (s : State) (k : Nat) (f : Cluster → Cluster) : (s.modCluster k f).ctr = s.ctr := rfl

@[simp] theorem State.modSlice_mem (s : State) (k : Nat) (f : Slice → Slice) : (s.modSlice k f).mem = s.mem := rfl
@[simp] theorem State.modSlice_waves (s : State) (k : Nat) (f : Slice → Slice) : (s.modSlice k f).waves = s.waves := rfl
@[simp] theorem State.modSlice_groups (s : State) (k : Nat) (f : Slice → Slice) : (s.modSlice k f).groups = s.groups := rfl
@[simp] theorem State.modSlice_units (s : State) (k : Nat) (f : Slice → Slice) : (s.modSlice k f).units = s.units := rfl
@[simp] theorem State.modSlice_fresh (s : State) (k : Nat) (f : Slice → Slice) : (s.modSlice k f).fresh = s.fresh := rfl
@[simp] theorem State.modSlice_ops (s : State) (k : Nat) (f : Slice → Slice) : (s.modSlice k f).ops = s.ops := rfl
@[simp] theorem State.modSlice_cores (s : State) (k : Nat) (f : Slice → Slice) : (s.modSlice k f).cores = s.cores := rfl
@[simp] theorem State.modSlice_clusters (s : State) (k : Nat) (f : Slice → Slice) : (s.modSlice k f).clusters = s.clusters := rfl
@[simp] theorem State.modSlice_slices (s : State) (k : Nat) (f : Slice → Slice) : (s.modSlice k f).slices = s.slices.put k (f (s.slice k)) := rfl
@[simp] theorem State.modSlice_dies (s : State) (k : Nat) (f : Slice → Slice) : (s.modSlice k f).dies = s.dies := rfl
@[simp] theorem State.modSlice_ctxs (s : State) (k : Nat) (f : Slice → Slice) : (s.modSlice k f).ctxs = s.ctxs := rfl
@[simp] theorem State.modSlice_time (s : State) (k : Nat) (f : Slice → Slice) : (s.modSlice k f).time = s.time := rfl
@[simp] theorem State.modSlice_wrapped (s : State) (k : Nat) (f : Slice → Slice) : (s.modSlice k f).wrapped = s.wrapped := rfl
@[simp] theorem State.modSlice_clk (s : State) (k : Nat) (f : Slice → Slice) : (s.modSlice k f).clk = s.clk := rfl
@[simp] theorem State.modSlice_trans (s : State) (k : Nat) (f : Slice → Slice) : (s.modSlice k f).trans = s.trans := rfl
@[simp] theorem State.modSlice_tables (s : State) (k : Nat) (f : Slice → Slice) : (s.modSlice k f).tables = s.tables := rfl
@[simp] theorem State.modSlice_link (s : State) (k : Nat) (f : Slice → Slice) : (s.modSlice k f).link = s.link := rfl
@[simp] theorem State.modSlice_net (s : State) (k : Nat) (f : Slice → Slice) : (s.modSlice k f).net = s.net := rfl
@[simp] theorem State.modSlice_buckets (s : State) (k : Nat) (f : Slice → Slice) : (s.modSlice k f).buckets = s.buckets := rfl
@[simp] theorem State.modSlice_heat (s : State) (k : Nat) (f : Slice → Slice) : (s.modSlice k f).heat = s.heat := rfl
@[simp] theorem State.modSlice_boot (s : State) (k : Nat) (f : Slice → Slice) : (s.modSlice k f).boot = s.boot := rfl
@[simp] theorem State.modSlice_recs (s : State) (k : Nat) (f : Slice → Slice) : (s.modSlice k f).recs = s.recs := rfl
@[simp] theorem State.modSlice_out (s : State) (k : Nat) (f : Slice → Slice) : (s.modSlice k f).out = s.out := rfl
@[simp] theorem State.modSlice_turns (s : State) (k : Nat) (f : Slice → Slice) : (s.modSlice k f).turns = s.turns := rfl
@[simp] theorem State.modSlice_cur (s : State) (k : Nat) (f : Slice → Slice) : (s.modSlice k f).cur = s.cur := rfl
@[simp] theorem State.modSlice_ctr (s : State) (k : Nat) (f : Slice → Slice) : (s.modSlice k f).ctr = s.ctr := rfl

@[simp] theorem State.modDie_mem (s : State) (k : Nat) (f : Assay → Assay) : (s.modDie k f).mem = s.mem := rfl
@[simp] theorem State.modDie_waves (s : State) (k : Nat) (f : Assay → Assay) : (s.modDie k f).waves = s.waves := rfl
@[simp] theorem State.modDie_groups (s : State) (k : Nat) (f : Assay → Assay) : (s.modDie k f).groups = s.groups := rfl
@[simp] theorem State.modDie_units (s : State) (k : Nat) (f : Assay → Assay) : (s.modDie k f).units = s.units := rfl
@[simp] theorem State.modDie_fresh (s : State) (k : Nat) (f : Assay → Assay) : (s.modDie k f).fresh = s.fresh := rfl
@[simp] theorem State.modDie_ops (s : State) (k : Nat) (f : Assay → Assay) : (s.modDie k f).ops = s.ops := rfl
@[simp] theorem State.modDie_cores (s : State) (k : Nat) (f : Assay → Assay) : (s.modDie k f).cores = s.cores := rfl
@[simp] theorem State.modDie_clusters (s : State) (k : Nat) (f : Assay → Assay) : (s.modDie k f).clusters = s.clusters := rfl
@[simp] theorem State.modDie_slices (s : State) (k : Nat) (f : Assay → Assay) : (s.modDie k f).slices = s.slices := rfl
@[simp] theorem State.modDie_dies (s : State) (k : Nat) (f : Assay → Assay) : (s.modDie k f).dies = s.dies.put k (f (s.die k)) := rfl
@[simp] theorem State.modDie_ctxs (s : State) (k : Nat) (f : Assay → Assay) : (s.modDie k f).ctxs = s.ctxs := rfl
@[simp] theorem State.modDie_time (s : State) (k : Nat) (f : Assay → Assay) : (s.modDie k f).time = s.time := rfl
@[simp] theorem State.modDie_wrapped (s : State) (k : Nat) (f : Assay → Assay) : (s.modDie k f).wrapped = s.wrapped := rfl
@[simp] theorem State.modDie_clk (s : State) (k : Nat) (f : Assay → Assay) : (s.modDie k f).clk = s.clk := rfl
@[simp] theorem State.modDie_trans (s : State) (k : Nat) (f : Assay → Assay) : (s.modDie k f).trans = s.trans := rfl
@[simp] theorem State.modDie_tables (s : State) (k : Nat) (f : Assay → Assay) : (s.modDie k f).tables = s.tables := rfl
@[simp] theorem State.modDie_link (s : State) (k : Nat) (f : Assay → Assay) : (s.modDie k f).link = s.link := rfl
@[simp] theorem State.modDie_net (s : State) (k : Nat) (f : Assay → Assay) : (s.modDie k f).net = s.net := rfl
@[simp] theorem State.modDie_buckets (s : State) (k : Nat) (f : Assay → Assay) : (s.modDie k f).buckets = s.buckets := rfl
@[simp] theorem State.modDie_heat (s : State) (k : Nat) (f : Assay → Assay) : (s.modDie k f).heat = s.heat := rfl
@[simp] theorem State.modDie_boot (s : State) (k : Nat) (f : Assay → Assay) : (s.modDie k f).boot = s.boot := rfl
@[simp] theorem State.modDie_recs (s : State) (k : Nat) (f : Assay → Assay) : (s.modDie k f).recs = s.recs := rfl
@[simp] theorem State.modDie_out (s : State) (k : Nat) (f : Assay → Assay) : (s.modDie k f).out = s.out := rfl
@[simp] theorem State.modDie_turns (s : State) (k : Nat) (f : Assay → Assay) : (s.modDie k f).turns = s.turns := rfl
@[simp] theorem State.modDie_cur (s : State) (k : Nat) (f : Assay → Assay) : (s.modDie k f).cur = s.cur := rfl
@[simp] theorem State.modDie_ctr (s : State) (k : Nat) (f : Assay → Assay) : (s.modDie k f).ctr = s.ctr := rfl

@[simp] theorem State.modCtx_mem (s : State) (k : Nat) (f : Context → Context) : (s.modCtx k f).mem = s.mem := rfl
@[simp] theorem State.modCtx_waves (s : State) (k : Nat) (f : Context → Context) : (s.modCtx k f).waves = s.waves := rfl
@[simp] theorem State.modCtx_groups (s : State) (k : Nat) (f : Context → Context) : (s.modCtx k f).groups = s.groups := rfl
@[simp] theorem State.modCtx_units (s : State) (k : Nat) (f : Context → Context) : (s.modCtx k f).units = s.units := rfl
@[simp] theorem State.modCtx_fresh (s : State) (k : Nat) (f : Context → Context) : (s.modCtx k f).fresh = s.fresh := rfl
@[simp] theorem State.modCtx_ops (s : State) (k : Nat) (f : Context → Context) : (s.modCtx k f).ops = s.ops := rfl
@[simp] theorem State.modCtx_cores (s : State) (k : Nat) (f : Context → Context) : (s.modCtx k f).cores = s.cores := rfl
@[simp] theorem State.modCtx_clusters (s : State) (k : Nat) (f : Context → Context) : (s.modCtx k f).clusters = s.clusters := rfl
@[simp] theorem State.modCtx_slices (s : State) (k : Nat) (f : Context → Context) : (s.modCtx k f).slices = s.slices := rfl
@[simp] theorem State.modCtx_dies (s : State) (k : Nat) (f : Context → Context) : (s.modCtx k f).dies = s.dies := rfl
@[simp] theorem State.modCtx_ctxs (s : State) (k : Nat) (f : Context → Context) : (s.modCtx k f).ctxs = s.ctxs.put k (f (s.ctx k)) := rfl
@[simp] theorem State.modCtx_time (s : State) (k : Nat) (f : Context → Context) : (s.modCtx k f).time = s.time := rfl
@[simp] theorem State.modCtx_wrapped (s : State) (k : Nat) (f : Context → Context) : (s.modCtx k f).wrapped = s.wrapped := rfl
@[simp] theorem State.modCtx_clk (s : State) (k : Nat) (f : Context → Context) : (s.modCtx k f).clk = s.clk := rfl
@[simp] theorem State.modCtx_trans (s : State) (k : Nat) (f : Context → Context) : (s.modCtx k f).trans = s.trans := rfl
@[simp] theorem State.modCtx_tables (s : State) (k : Nat) (f : Context → Context) : (s.modCtx k f).tables = s.tables := rfl
@[simp] theorem State.modCtx_link (s : State) (k : Nat) (f : Context → Context) : (s.modCtx k f).link = s.link := rfl
@[simp] theorem State.modCtx_net (s : State) (k : Nat) (f : Context → Context) : (s.modCtx k f).net = s.net := rfl
@[simp] theorem State.modCtx_buckets (s : State) (k : Nat) (f : Context → Context) : (s.modCtx k f).buckets = s.buckets := rfl
@[simp] theorem State.modCtx_heat (s : State) (k : Nat) (f : Context → Context) : (s.modCtx k f).heat = s.heat := rfl
@[simp] theorem State.modCtx_boot (s : State) (k : Nat) (f : Context → Context) : (s.modCtx k f).boot = s.boot := rfl
@[simp] theorem State.modCtx_recs (s : State) (k : Nat) (f : Context → Context) : (s.modCtx k f).recs = s.recs := rfl
@[simp] theorem State.modCtx_out (s : State) (k : Nat) (f : Context → Context) : (s.modCtx k f).out = s.out := rfl
@[simp] theorem State.modCtx_turns (s : State) (k : Nat) (f : Context → Context) : (s.modCtx k f).turns = s.turns := rfl
@[simp] theorem State.modCtx_cur (s : State) (k : Nat) (f : Context → Context) : (s.modCtx k f).cur = s.cur := rfl
@[simp] theorem State.modCtx_ctr (s : State) (k : Nat) (f : Context → Context) : (s.modCtx k f).ctr = s.ctr := rfl

@[simp] theorem State.modBucket_mem (s : State) (k : Nat) (f : Bucket → Bucket) : (s.modBucket k f).mem = s.mem := rfl
@[simp] theorem State.modBucket_waves (s : State) (k : Nat) (f : Bucket → Bucket) : (s.modBucket k f).waves = s.waves := rfl
@[simp] theorem State.modBucket_groups (s : State) (k : Nat) (f : Bucket → Bucket) : (s.modBucket k f).groups = s.groups := rfl
@[simp] theorem State.modBucket_units (s : State) (k : Nat) (f : Bucket → Bucket) : (s.modBucket k f).units = s.units := rfl
@[simp] theorem State.modBucket_fresh (s : State) (k : Nat) (f : Bucket → Bucket) : (s.modBucket k f).fresh = s.fresh := rfl
@[simp] theorem State.modBucket_ops (s : State) (k : Nat) (f : Bucket → Bucket) : (s.modBucket k f).ops = s.ops := rfl
@[simp] theorem State.modBucket_cores (s : State) (k : Nat) (f : Bucket → Bucket) : (s.modBucket k f).cores = s.cores := rfl
@[simp] theorem State.modBucket_clusters (s : State) (k : Nat) (f : Bucket → Bucket) : (s.modBucket k f).clusters = s.clusters := rfl
@[simp] theorem State.modBucket_slices (s : State) (k : Nat) (f : Bucket → Bucket) : (s.modBucket k f).slices = s.slices := rfl
@[simp] theorem State.modBucket_dies (s : State) (k : Nat) (f : Bucket → Bucket) : (s.modBucket k f).dies = s.dies := rfl
@[simp] theorem State.modBucket_ctxs (s : State) (k : Nat) (f : Bucket → Bucket) : (s.modBucket k f).ctxs = s.ctxs := rfl
@[simp] theorem State.modBucket_time (s : State) (k : Nat) (f : Bucket → Bucket) : (s.modBucket k f).time = s.time := rfl
@[simp] theorem State.modBucket_wrapped (s : State) (k : Nat) (f : Bucket → Bucket) : (s.modBucket k f).wrapped = s.wrapped := rfl
@[simp] theorem State.modBucket_clk (s : State) (k : Nat) (f : Bucket → Bucket) : (s.modBucket k f).clk = s.clk := rfl
@[simp] theorem State.modBucket_trans (s : State) (k : Nat) (f : Bucket → Bucket) : (s.modBucket k f).trans = s.trans := rfl
@[simp] theorem State.modBucket_tables (s : State) (k : Nat) (f : Bucket → Bucket) : (s.modBucket k f).tables = s.tables := rfl
@[simp] theorem State.modBucket_link (s : State) (k : Nat) (f : Bucket → Bucket) : (s.modBucket k f).link = s.link := rfl
@[simp] theorem State.modBucket_net (s : State) (k : Nat) (f : Bucket → Bucket) : (s.modBucket k f).net = s.net := rfl
@[simp] theorem State.modBucket_buckets (s : State) (k : Nat) (f : Bucket → Bucket) : (s.modBucket k f).buckets = s.buckets.put k (f (s.bucket k)) := rfl
@[simp] theorem State.modBucket_heat (s : State) (k : Nat) (f : Bucket → Bucket) : (s.modBucket k f).heat = s.heat := rfl
@[simp] theorem State.modBucket_boot (s : State) (k : Nat) (f : Bucket → Bucket) : (s.modBucket k f).boot = s.boot := rfl
@[simp] theorem State.modBucket_recs (s : State) (k : Nat) (f : Bucket → Bucket) : (s.modBucket k f).recs = s.recs := rfl
@[simp] theorem State.modBucket_out (s : State) (k : Nat) (f : Bucket → Bucket) : (s.modBucket k f).out = s.out := rfl
@[simp] theorem State.modBucket_turns (s : State) (k : Nat) (f : Bucket → Bucket) : (s.modBucket k f).turns = s.turns := rfl
@[simp] theorem State.modBucket_cur (s : State) (k : Nat) (f : Bucket → Bucket) : (s.modBucket k f).cur = s.cur := rfl
@[simp] theorem State.modBucket_ctr (s : State) (k : Nat) (f : Bucket → Bucket) : (s.modBucket k f).ctr = s.ctr := rfl

@[simp] theorem State.modWave_mem (s : State) (k : Nat) (f : Wave → Wave) : (s.modWave k f).mem = s.mem := rfl
@[simp] theorem State.modWave_waves (s : State) (k : Nat) (f : Wave → Wave) : (s.modWave k f).waves = s.waves.upd k f := rfl
@[simp] theorem State.modWave_groups (s : State) (k : Nat) (f : Wave → Wave) : (s.modWave k f).groups = s.groups := rfl
@[simp] theorem State.modWave_units (s : State) (k : Nat) (f : Wave → Wave) : (s.modWave k f).units = s.units := rfl
@[simp] theorem State.modWave_fresh (s : State) (k : Nat) (f : Wave → Wave) : (s.modWave k f).fresh = s.fresh := rfl
@[simp] theorem State.modWave_ops (s : State) (k : Nat) (f : Wave → Wave) : (s.modWave k f).ops = s.ops := rfl
@[simp] theorem State.modWave_cores (s : State) (k : Nat) (f : Wave → Wave) : (s.modWave k f).cores = s.cores := rfl
@[simp] theorem State.modWave_clusters (s : State) (k : Nat) (f : Wave → Wave) : (s.modWave k f).clusters = s.clusters := rfl
@[simp] theorem State.modWave_slices (s : State) (k : Nat) (f : Wave → Wave) : (s.modWave k f).slices = s.slices := rfl
@[simp] theorem State.modWave_dies (s : State) (k : Nat) (f : Wave → Wave) : (s.modWave k f).dies = s.dies := rfl
@[simp] theorem State.modWave_ctxs (s : State) (k : Nat) (f : Wave → Wave) : (s.modWave k f).ctxs = s.ctxs := rfl
@[simp] theorem State.modWave_time (s : State) (k : Nat) (f : Wave → Wave) : (s.modWave k f).time = s.time := rfl
@[simp] theorem State.modWave_wrapped (s : State) (k : Nat) (f : Wave → Wave) : (s.modWave k f).wrapped = s.wrapped := rfl
@[simp] theorem State.modWave_clk (s : State) (k : Nat) (f : Wave → Wave) : (s.modWave k f).clk = s.clk := rfl
@[simp] theorem State.modWave_trans (s : State) (k : Nat) (f : Wave → Wave) : (s.modWave k f).trans = s.trans := rfl
@[simp] theorem State.modWave_tables (s : State) (k : Nat) (f : Wave → Wave) : (s.modWave k f).tables = s.tables := rfl
@[simp] theorem State.modWave_link (s : State) (k : Nat) (f : Wave → Wave) : (s.modWave k f).link = s.link := rfl
@[simp] theorem State.modWave_net (s : State) (k : Nat) (f : Wave → Wave) : (s.modWave k f).net = s.net := rfl
@[simp] theorem State.modWave_buckets (s : State) (k : Nat) (f : Wave → Wave) : (s.modWave k f).buckets = s.buckets := rfl
@[simp] theorem State.modWave_heat (s : State) (k : Nat) (f : Wave → Wave) : (s.modWave k f).heat = s.heat := rfl
@[simp] theorem State.modWave_boot (s : State) (k : Nat) (f : Wave → Wave) : (s.modWave k f).boot = s.boot := rfl
@[simp] theorem State.modWave_recs (s : State) (k : Nat) (f : Wave → Wave) : (s.modWave k f).recs = s.recs := rfl
@[simp] theorem State.modWave_out (s : State) (k : Nat) (f : Wave → Wave) : (s.modWave k f).out = s.out := rfl
@[simp] theorem State.modWave_turns (s : State) (k : Nat) (f : Wave → Wave) : (s.modWave k f).turns = s.turns := rfl
@[simp] theorem State.modWave_cur (s : State) (k : Nat) (f : Wave → Wave) : (s.modWave k f).cur = s.cur := rfl
@[simp] theorem State.modWave_ctr (s : State) (k : Nat) (f : Wave → Wave) : (s.modWave k f).ctr = s.ctr := rfl

@[simp] theorem State.modGroup_mem (s : State) (k : Nat) (f : Group → Group) : (s.modGroup k f).mem = s.mem := rfl
@[simp] theorem State.modGroup_waves (s : State) (k : Nat) (f : Group → Group) : (s.modGroup k f).waves = s.waves := rfl
@[simp] theorem State.modGroup_groups (s : State) (k : Nat) (f : Group → Group) : (s.modGroup k f).groups = s.groups.upd k f := rfl
@[simp] theorem State.modGroup_units (s : State) (k : Nat) (f : Group → Group) : (s.modGroup k f).units = s.units := rfl
@[simp] theorem State.modGroup_fresh (s : State) (k : Nat) (f : Group → Group) : (s.modGroup k f).fresh = s.fresh := rfl
@[simp] theorem State.modGroup_ops (s : State) (k : Nat) (f : Group → Group) : (s.modGroup k f).ops = s.ops := rfl
@[simp] theorem State.modGroup_cores (s : State) (k : Nat) (f : Group → Group) : (s.modGroup k f).cores = s.cores := rfl
@[simp] theorem State.modGroup_clusters (s : State) (k : Nat) (f : Group → Group) : (s.modGroup k f).clusters = s.clusters := rfl
@[simp] theorem State.modGroup_slices (s : State) (k : Nat) (f : Group → Group) : (s.modGroup k f).slices = s.slices := rfl
@[simp] theorem State.modGroup_dies (s : State) (k : Nat) (f : Group → Group) : (s.modGroup k f).dies = s.dies := rfl
@[simp] theorem State.modGroup_ctxs (s : State) (k : Nat) (f : Group → Group) : (s.modGroup k f).ctxs = s.ctxs := rfl
@[simp] theorem State.modGroup_time (s : State) (k : Nat) (f : Group → Group) : (s.modGroup k f).time = s.time := rfl
@[simp] theorem State.modGroup_wrapped (s : State) (k : Nat) (f : Group → Group) : (s.modGroup k f).wrapped = s.wrapped := rfl
@[simp] theorem State.modGroup_clk (s : State) (k : Nat) (f : Group → Group) : (s.modGroup k f).clk = s.clk := rfl
@[simp] theorem State.modGroup_trans (s : State) (k : Nat) (f : Group → Group) : (s.modGroup k f).trans = s.trans := rfl
@[simp] theorem State.modGroup_tables (s : State) (k : Nat) (f : Group → Group) : (s.modGroup k f).tables = s.tables := rfl
@[simp] theorem State.modGroup_link (s : State) (k : Nat) (f : Group → Group) : (s.modGroup k f).link = s.link := rfl
@[simp] theorem State.modGroup_net (s : State) (k : Nat) (f : Group → Group) : (s.modGroup k f).net = s.net := rfl
@[simp] theorem State.modGroup_buckets (s : State) (k : Nat) (f : Group → Group) : (s.modGroup k f).buckets = s.buckets := rfl
@[simp] theorem State.modGroup_heat (s : State) (k : Nat) (f : Group → Group) : (s.modGroup k f).heat = s.heat := rfl
@[simp] theorem State.modGroup_boot (s : State) (k : Nat) (f : Group → Group) : (s.modGroup k f).boot = s.boot := rfl
@[simp] theorem State.modGroup_recs (s : State) (k : Nat) (f : Group → Group) : (s.modGroup k f).recs = s.recs := rfl
@[simp] theorem State.modGroup_out (s : State) (k : Nat) (f : Group → Group) : (s.modGroup k f).out = s.out := rfl
@[simp] theorem State.modGroup_turns (s : State) (k : Nat) (f : Group → Group) : (s.modGroup k f).turns = s.turns := rfl
@[simp] theorem State.modGroup_cur (s : State) (k : Nat) (f : Group → Group) : (s.modGroup k f).cur = s.cur := rfl
@[simp] theorem State.modGroup_ctr (s : State) (k : Nat) (f : Group → Group) : (s.modGroup k f).ctr = s.ctr := rfl

@[simp] theorem State.modUnit_mem (s : State) (k : Nat) (f : WorkUnit → WorkUnit) : (s.modUnit k f).mem = s.mem := rfl
@[simp] theorem State.modUnit_waves (s : State) (k : Nat) (f : WorkUnit → WorkUnit) : (s.modUnit k f).waves = s.waves := rfl
@[simp] theorem State.modUnit_groups (s : State) (k : Nat) (f : WorkUnit → WorkUnit) : (s.modUnit k f).groups = s.groups := rfl
@[simp] theorem State.modUnit_units (s : State) (k : Nat) (f : WorkUnit → WorkUnit) : (s.modUnit k f).units = s.units.upd k f := rfl
@[simp] theorem State.modUnit_fresh (s : State) (k : Nat) (f : WorkUnit → WorkUnit) : (s.modUnit k f).fresh = s.fresh := rfl
@[simp] theorem State.modUnit_ops (s : State) (k : Nat) (f : WorkUnit → WorkUnit) : (s.modUnit k f).ops = s.ops := rfl
@[simp] theorem State.modUnit_cores (s : State) (k : Nat) (f : WorkUnit → WorkUnit) : (s.modUnit k f).cores = s.cores := rfl
@[simp] theorem State.modUnit_clusters (s : State) (k : Nat) (f : WorkUnit → WorkUnit) : (s.modUnit k f).clusters = s.clusters := rfl
@[simp] theorem State.modUnit_slices (s : State) (k : Nat) (f : WorkUnit → WorkUnit) : (s.modUnit k f).slices = s.slices := rfl
@[simp] theorem State.modUnit_dies (s : State) (k : Nat) (f : WorkUnit → WorkUnit) : (s.modUnit k f).dies = s.dies := rfl
@[simp] theorem State.modUnit_ctxs (s : State) (k : Nat) (f : WorkUnit → WorkUnit) : (s.modUnit k f).ctxs = s.ctxs := rfl
@[simp] theorem State.modUnit_time (s : State) (k : Nat) (f : WorkUnit → WorkUnit) : (s.modUnit k f).time = s.time := rfl
@[simp] theorem State.modUnit_wrapped (s : State) (k : Nat) (f : WorkUnit → WorkUnit) : (s.modUnit k f).wrapped = s.wrapped := rfl
@[simp] theorem State.modUnit_clk (s : State) (k : Nat) (f : WorkUnit → WorkUnit) : (s.modUnit k f).clk = s.clk := rfl
@[simp] theorem State.modUnit_trans (s : State) (k : Nat) (f : WorkUnit → WorkUnit) : (s.modUnit k f).trans = s.trans := rfl
@[simp] theorem State.modUnit_tables (s : State) (k : Nat) (f : WorkUnit → WorkUnit) : (s.modUnit k f).tables = s.tables := rfl
@[simp] theorem State.modUnit_link (s : State) (k : Nat) (f : WorkUnit → WorkUnit) : (s.modUnit k f).link = s.link := rfl
@[simp] theorem State.modUnit_net (s : State) (k : Nat) (f : WorkUnit → WorkUnit) : (s.modUnit k f).net = s.net := rfl
@[simp] theorem State.modUnit_buckets (s : State) (k : Nat) (f : WorkUnit → WorkUnit) : (s.modUnit k f).buckets = s.buckets := rfl
@[simp] theorem State.modUnit_heat (s : State) (k : Nat) (f : WorkUnit → WorkUnit) : (s.modUnit k f).heat = s.heat := rfl
@[simp] theorem State.modUnit_boot (s : State) (k : Nat) (f : WorkUnit → WorkUnit) : (s.modUnit k f).boot = s.boot := rfl
@[simp] theorem State.modUnit_recs (s : State) (k : Nat) (f : WorkUnit → WorkUnit) : (s.modUnit k f).recs = s.recs := rfl
@[simp] theorem State.modUnit_out (s : State) (k : Nat) (f : WorkUnit → WorkUnit) : (s.modUnit k f).out = s.out := rfl
@[simp] theorem State.modUnit_turns (s : State) (k : Nat) (f : WorkUnit → WorkUnit) : (s.modUnit k f).turns = s.turns := rfl
@[simp] theorem State.modUnit_cur (s : State) (k : Nat) (f : WorkUnit → WorkUnit) : (s.modUnit k f).cur = s.cur := rfl
@[simp] theorem State.modUnit_ctr (s : State) (k : Nat) (f : WorkUnit → WorkUnit) : (s.modUnit k f).ctr = s.ctr := rfl

@[simp] theorem State.modPart_mem (s : State) (p : PartRef) (f : Part → Part) : (s.modPart p f).mem = s.mem := rfl
@[simp] theorem State.modPart_waves (s : State) (p : PartRef) (f : Part → Part) : (s.modPart p f).waves = s.waves.upd p.wave fun w => { w with parts := w.parts.upd p.part f } := rfl
@[simp] theorem State.modPart_groups (s : State) (p : PartRef) (f : Part → Part) : (s.modPart p f).groups = s.groups := rfl
@[simp] theorem State.modPart_units (s : State) (p : PartRef) (f : Part → Part) : (s.modPart p f).units = s.units := rfl
@[simp] theorem State.modPart_fresh (s : State) (p : PartRef) (f : Part → Part) : (s.modPart p f).fresh = s.fresh := rfl
@[simp] theorem State.modPart_ops (s : State) (p : PartRef) (f : Part → Part) : (s.modPart p f).ops = s.ops := rfl
@[simp] theorem State.modPart_cores (s : State) (p : PartRef) (f : Part → Part) : (s.modPart p f).cores = s.cores := rfl
@[simp] theorem State.modPart_clusters (s : State) (p : PartRef) (f : Part → Part) : (s.modPart p f).clusters = s.clusters := rfl
@[simp] theorem State.modPart_slices (s : State) (p : PartRef) (f : Part → Part) : (s.modPart p f).slices = s.slices := rfl
@[simp] theorem State.modPart_dies (s : State) (p : PartRef) (f : Part → Part) : (s.modPart p f).dies = s.dies := rfl
@[simp] theorem State.modPart_ctxs (s : State) (p : PartRef) (f : Part → Part) : (s.modPart p f).ctxs = s.ctxs := rfl
@[simp] theorem State.modPart_time (s : State) (p : PartRef) (f : Part → Part) : (s.modPart p f).time = s.time := rfl
@[simp] theorem State.modPart_wrapped (s : State) (p : PartRef) (f : Part → Part) : (s.modPart p f).wrapped = s.wrapped := rfl
@[simp] theorem State.modPart_clk (s : State) (p : PartRef) (f : Part → Part) : (s.modPart p f).clk = s.clk := rfl
@[simp] theorem State.modPart_trans (s : State) (p : PartRef) (f : Part → Part) : (s.modPart p f).trans = s.trans := rfl
@[simp] theorem State.modPart_tables (s : State) (p : PartRef) (f : Part → Part) : (s.modPart p f).tables = s.tables := rfl
@[simp] theorem State.modPart_link (s : State) (p : PartRef) (f : Part → Part) : (s.modPart p f).link = s.link := rfl
@[simp] theorem State.modPart_net (s : State) (p : PartRef) (f : Part → Part) : (s.modPart p f).net = s.net := rfl
@[simp] theorem State.modPart_buckets (s : State) (p : PartRef) (f : Part → Part) : (s.modPart p f).buckets = s.buckets := rfl
@[simp] theorem State.modPart_heat (s : State) (p : PartRef) (f : Part → Part) : (s.modPart p f).heat = s.heat := rfl
@[simp] theorem State.modPart_boot (s : State) (p : PartRef) (f : Part → Part) : (s.modPart p f).boot = s.boot := rfl
@[simp] theorem State.modPart_recs (s : State) (p : PartRef) (f : Part → Part) : (s.modPart p f).recs = s.recs := rfl
@[simp] theorem State.modPart_out (s : State) (p : PartRef) (f : Part → Part) : (s.modPart p f).out = s.out := rfl
@[simp] theorem State.modPart_turns (s : State) (p : PartRef) (f : Part → Part) : (s.modPart p f).turns = s.turns := rfl
@[simp] theorem State.modPart_cur (s : State) (p : PartRef) (f : Part → Part) : (s.modPart p f).cur = s.cur := rfl
@[simp] theorem State.modPart_ctr (s : State) (p : PartRef) (f : Part → Part) : (s.modPart p f).ctr = s.ctr := rfl

@[simp] theorem State.modOp_mem (s : State) (k : Nat) (f : Op → Op) : (s.modOp k f).mem = s.mem := rfl
@[simp] theorem State.modOp_waves (s : State) (k : Nat) (f : Op → Op) : (s.modOp k f).waves = s.waves := rfl
@[simp] theorem State.modOp_groups (s : State) (k : Nat) (f : Op → Op) : (s.modOp k f).groups = s.groups := rfl
@[simp] theorem State.modOp_units (s : State) (k : Nat) (f : Op → Op) : (s.modOp k f).units = s.units := rfl
@[simp] theorem State.modOp_fresh (s : State) (k : Nat) (f : Op → Op) : (s.modOp k f).fresh = s.fresh := rfl
@[simp] theorem State.modOp_ops (s : State) (k : Nat) (f : Op → Op) : (s.modOp k f).ops = replaceFirst (fun o => o.id == k) f s.ops := rfl
@[simp] theorem State.modOp_cores (s : State) (k : Nat) (f : Op → Op) : (s.modOp k f).cores = s.cores := rfl
@[simp] theorem State.modOp_clusters (s : State) (k : Nat) (f : Op → Op) : (s.modOp k f).clusters = s.clusters := rfl
@[simp] theorem State.modOp_slices (s : State) (k : Nat) (f : Op → Op) : (s.modOp k f).slices = s.slices := rfl
@[simp] theorem State.modOp_dies (s : State) (k : Nat) (f : Op → Op) : (s.modOp k f).dies = s.dies := rfl
@[simp] theorem State.modOp_ctxs (s : State) (k : Nat) (f : Op → Op) : (s.modOp k f).ctxs = s.ctxs := rfl
@[simp] theorem State.modOp_time (s : State) (k : Nat) (f : Op → Op) : (s.modOp k f).time = s.time := rfl
@[simp] theorem State.modOp_wrapped (s : State) (k : Nat) (f : Op → Op) : (s.modOp k f).wrapped = s.wrapped := rfl
@[simp] theorem State.modOp_clk (s : State) (k : Nat) (f : Op → Op) : (s.modOp k f).clk = s.clk := rfl
@[simp] theorem State.modOp_trans (s : State) (k : Nat) (f : Op → Op) : (s.modOp k f).trans = s.trans := rfl
@[simp] theorem State.modOp_tables (s : State) (k : Nat) (f : Op → Op) : (s.modOp k f).tables = s.tables := rfl
@[simp] theorem State.modOp_link (s : State) (k : Nat) (f : Op → Op) : (s.modOp k f).link = s.link := rfl
@[simp] theorem State.modOp_net (s : State) (k : Nat) (f : Op → Op) : (s.modOp k f).net = s.net := rfl
@[simp] theorem State.modOp_buckets (s : State) (k : Nat) (f : Op → Op) : (s.modOp k f).buckets = s.buckets := rfl
@[simp] theorem State.modOp_heat (s : State) (k : Nat) (f : Op → Op) : (s.modOp k f).heat = s.heat := rfl
@[simp] theorem State.modOp_boot (s : State) (k : Nat) (f : Op → Op) : (s.modOp k f).boot = s.boot := rfl
@[simp] theorem State.modOp_recs (s : State) (k : Nat) (f : Op → Op) : (s.modOp k f).recs = s.recs := rfl
@[simp] theorem State.modOp_out (s : State) (k : Nat) (f : Op → Op) : (s.modOp k f).out = s.out := rfl
@[simp] theorem State.modOp_turns (s : State) (k : Nat) (f : Op → Op) : (s.modOp k f).turns = s.turns := rfl
@[simp] theorem State.modOp_cur (s : State) (k : Nat) (f : Op → Op) : (s.modOp k f).cur = s.cur := rfl
@[simp] theorem State.modOp_ctr (s : State) (k : Nat) (f : Op → Op) : (s.modOp k f).ctr = s.ctr := rfl

@[simp] theorem State.send_mem (s : State) (o : Out) : (s.send o).mem = s.mem := rfl
@[simp] theorem State.send_waves (s : State) (o : Out) : (s.send o).waves = s.waves := rfl
@[simp] theorem State.send_groups (s : State) (o : Out) : (s.send o).groups = s.groups := rfl
@[simp] theorem State.send_units (s : State) (o : Out) : (s.send o).units = s.units := rfl
@[simp] theorem State.send_fresh (s : State) (o : Out) : (s.send o).fresh = s.fresh := rfl
@[simp] theorem State.send_ops (s : State) (o : Out) : (s.send o).ops = s.ops := rfl
@[simp] theorem State.send_cores (s : State) (o : Out) : (s.send o).cores = s.cores := rfl
@[simp] theorem State.send_clusters (s : State) (o : Out) : (s.send o).clusters = s.clusters := rfl
@[simp] theorem State.send_slices (s : State) (o : Out) : (s.send o).slices = s.slices := rfl
@[simp] theorem State.send_dies (s : State) (o : Out) : (s.send o).dies = s.dies := rfl
@[simp] theorem State.send_ctxs (s : State) (o : Out) : (s.send o).ctxs = s.ctxs := rfl
@[simp] theorem State.send_time (s : State) (o : Out) : (s.send o).time = s.time := rfl
@[simp] theorem State.send_wrapped (s : State) (o : Out) : (s.send o).wrapped = s.wrapped := rfl
@[simp] theorem State.send_clk (s : State) (o : Out) : (s.send o).clk = s.clk := rfl
@[simp] theorem State.send_trans (s : State) (o : Out) : (s.send o).trans = s.trans := rfl
@[simp] theorem State.send_tables (s : State) (o : Out) : (s.send o).tables = s.tables := rfl
@[simp] theorem State.send_link (s : State) (o : Out) : (s.send o).link = s.link := rfl
@[simp] theorem State.send_net (s : State) (o : Out) : (s.send o).net = s.net := rfl
@[simp] theorem State.send_buckets (s : State) (o : Out) : (s.send o).buckets = s.buckets := rfl
@[simp] theorem State.send_heat (s : State) (o : Out) : (s.send o).heat = s.heat := rfl
@[simp] theorem State.send_boot (s : State) (o : Out) : (s.send o).boot = s.boot := rfl
@[simp] theorem State.send_recs (s : State) (o : Out) : (s.send o).recs = s.recs := rfl
@[simp] theorem State.send_out (s : State) (o : Out) : (s.send o).out = s.out ++ [o] := rfl
@[simp] theorem State.send_turns (s : State) (o : Out) : (s.send o).turns = s.turns := rfl
@[simp] theorem State.send_cur (s : State) (o : Out) : (s.send o).cur = s.cur := rfl
@[simp] theorem State.send_ctr (s : State) (o : Out) : (s.send o).ctr = s.ctr := rfl

@[simp] theorem State.tick_mem (s : State) : (s.tick).mem = s.mem := rfl
@[simp] theorem State.tick_waves (s : State) : (s.tick).waves = s.waves := rfl
@[simp] theorem State.tick_groups (s : State) : (s.tick).groups = s.groups := rfl
@[simp] theorem State.tick_units (s : State) : (s.tick).units = s.units := rfl
@[simp] theorem State.tick_fresh (s : State) : (s.tick).fresh = s.fresh := rfl
@[simp] theorem State.tick_ops (s : State) : (s.tick).ops = s.ops := rfl
@[simp] theorem State.tick_cores (s : State) : (s.tick).cores = s.cores := rfl
@[simp] theorem State.tick_clusters (s : State) : (s.tick).clusters = s.clusters := rfl
@[simp] theorem State.tick_slices (s : State) : (s.tick).slices = s.slices := rfl
@[simp] theorem State.tick_dies (s : State) : (s.tick).dies = s.dies := rfl
@[simp] theorem State.tick_ctxs (s : State) : (s.tick).ctxs = s.ctxs := rfl
@[simp] theorem State.tick_time (s : State) : (s.tick).time = s.time := rfl
@[simp] theorem State.tick_wrapped (s : State) : (s.tick).wrapped = s.wrapped := rfl
@[simp] theorem State.tick_clk (s : State) : (s.tick).clk = s.clk := rfl
@[simp] theorem State.tick_trans (s : State) : (s.tick).trans = s.trans := rfl
@[simp] theorem State.tick_tables (s : State) : (s.tick).tables = s.tables := rfl
@[simp] theorem State.tick_link (s : State) : (s.tick).link = s.link := rfl
@[simp] theorem State.tick_net (s : State) : (s.tick).net = s.net := rfl
@[simp] theorem State.tick_buckets (s : State) : (s.tick).buckets = s.buckets := rfl
@[simp] theorem State.tick_heat (s : State) : (s.tick).heat = s.heat := rfl
@[simp] theorem State.tick_boot (s : State) : (s.tick).boot = s.boot := rfl
@[simp] theorem State.tick_recs (s : State) : (s.tick).recs = s.recs := rfl
@[simp] theorem State.tick_out (s : State) : (s.tick).out = s.out := rfl
@[simp] theorem State.tick_turns (s : State) : (s.tick).turns = s.turns := rfl
@[simp] theorem State.tick_cur (s : State) : (s.tick).cur = s.cur := rfl
@[simp] theorem State.tick_ctr (s : State) : (s.tick).ctr = s.ctr + 1 := rfl

@[simp] theorem State.retire_mem (s : State) : (s.retire).mem = s.mem := rfl
@[simp] theorem State.retire_waves (s : State) : (s.retire).waves = s.waves := rfl
@[simp] theorem State.retire_groups (s : State) : (s.retire).groups = s.groups := rfl
@[simp] theorem State.retire_units (s : State) : (s.retire).units = s.units := rfl
@[simp] theorem State.retire_fresh (s : State) : (s.retire).fresh = s.fresh := rfl
@[simp] theorem State.retire_ops (s : State) : (s.retire).ops = retireFrom [] s.ops := rfl
@[simp] theorem State.retire_cores (s : State) : (s.retire).cores = s.cores := rfl
@[simp] theorem State.retire_clusters (s : State) : (s.retire).clusters = s.clusters := rfl
@[simp] theorem State.retire_slices (s : State) : (s.retire).slices = s.slices := rfl
@[simp] theorem State.retire_dies (s : State) : (s.retire).dies = s.dies := rfl
@[simp] theorem State.retire_ctxs (s : State) : (s.retire).ctxs = s.ctxs := rfl
@[simp] theorem State.retire_time (s : State) : (s.retire).time = s.time := rfl
@[simp] theorem State.retire_wrapped (s : State) : (s.retire).wrapped = s.wrapped := rfl
@[simp] theorem State.retire_clk (s : State) : (s.retire).clk = s.clk := rfl
@[simp] theorem State.retire_trans (s : State) : (s.retire).trans = s.trans := rfl
@[simp] theorem State.retire_tables (s : State) : (s.retire).tables = s.tables := rfl
@[simp] theorem State.retire_link (s : State) : (s.retire).link = s.link := rfl
@[simp] theorem State.retire_net (s : State) : (s.retire).net = s.net := rfl
@[simp] theorem State.retire_buckets (s : State) : (s.retire).buckets = s.buckets := rfl
@[simp] theorem State.retire_heat (s : State) : (s.retire).heat = s.heat := rfl
@[simp] theorem State.retire_boot (s : State) : (s.retire).boot = s.boot := rfl
@[simp] theorem State.retire_recs (s : State) : (s.retire).recs = s.recs := rfl
@[simp] theorem State.retire_out (s : State) : (s.retire).out = s.out := rfl
@[simp] theorem State.retire_turns (s : State) : (s.retire).turns = s.turns := rfl
@[simp] theorem State.retire_cur (s : State) : (s.retire).cur = s.cur := rfl
@[simp] theorem State.retire_ctr (s : State) : (s.retire).ctr = s.ctr := rfl

end Sys2Proof.Machine
end

