-- ==== Sys2Proof/Laws/Tables.lean ====
section
/-! SUPPORT. Tables and byte memories: read after write, and the canonical form that every operation keeps. -/

namespace Sys2Proof.Machine

/-! ### Reading a table -/

variable {α : Type}

@[simp] theorem Tbl.get_nil (k : Nat) : Tbl.get ([] : Tbl α) k = none := rfl

theorem Tbl.get_cons (k k' : Nat) (v : α) (r : Tbl α) :
    Tbl.get ((k', v) :: r) k = if k' = k then some v else Tbl.get r k := rfl

/-- Read after write of the same key. -/
@[simp] theorem Tbl.get_put_same (t : Tbl α) (k : Nat) (v : α) : (t.put k v).get k = some v := by
  induction t with
  | nil => simp [Tbl.put, Tbl.get]
  | cons e r ih =>
    obtain ⟨k', w⟩ := e
    by_cases h1 : k < k'
    · simp [Tbl.put, Tbl.get, h1]
    · by_cases h2 : k' = k <;> simp [Tbl.put, Tbl.get, h1, h2, ih]

/-- A write leaves the other keys alone. -/
theorem Tbl.get_put_other (t : Tbl α) {k j : Nat} (v : α) (h : j ≠ k) : (t.put k v).get j = t.get j := by
  induction t with
  | nil => simp [Tbl.put, Tbl.get, h.symm]
  | cons e r ih =>
    obtain ⟨k', w⟩ := e
    by_cases h1 : k < k'
    · simp [Tbl.put, Tbl.get, h1, h.symm]
    · by_cases h2 : k' = k
      · subst h2; simp [Tbl.put, Tbl.get, h.symm]
      · rw [Tbl.put, if_neg h1, if_neg h2, Tbl.get_cons, Tbl.get_cons, ih]

theorem Tbl.get_put (t : Tbl α) (k j : Nat) (v : α) :
    (t.put k v).get j = if j = k then some v else t.get j := by
  by_cases h : j = k
  · subst h; simp
  · simp [h, Tbl.get_put_other t v h]

theorem Tbl.get_upd (t : Tbl α) (k j : Nat) (f : α → α) :
    (t.upd k f).get j = if j = k then (t.get k).map f else t.get j := by
  unfold Tbl.upd
  cases h : t.get k with
  | none => by_cases hj : j = k <;> simp [hj, h]
  | some v => simp [Tbl.get_put]

@[simp] theorem Tbl.get_upd_same (t : Tbl α) (k : Nat) (f : α → α) : (t.upd k f).get k = (t.get k).map f := by
  simp [Tbl.get_upd]

theorem Tbl.get_upd_other (t : Tbl α) {k j : Nat} (f : α → α) (h : j ≠ k) : (t.upd k f).get j = t.get j := by
  simp [Tbl.get_upd, h]

/-- The last of two writes to one key stands. -/
@[simp] theorem Tbl.put_put (t : Tbl α) (k : Nat) (v u : α) : (t.put k v).put k u = t.put k u := by
  induction t with
  | nil => simp [Tbl.put]
  | cons e r ih =>
    obtain ⟨k', x⟩ := e
    by_cases h1 : k < k'
    · simp [Tbl.put, h1]
    · by_cases h2 : k' = k
      · simp [Tbl.put, h2]
      · simp [Tbl.put, h1, h2, ih]

/-- Two updates of one key are one. -/
@[simp] theorem Tbl.upd_upd (t : Tbl α) (k : Nat) (f g : α → α) : (t.upd k f).upd k g = t.upd k fun v => g (f v) := by
  unfold Tbl.upd
  cases h : t.get k with
  | none => simp [h]
  | some v => simp

/-- A key that a filter on keys keeps reads as before; one that it drops reads as nothing. -/
theorem Tbl.get_filter_key (t : Tbl α) (p : Nat → Bool) (k : Nat) :
    Tbl.get (t.filter fun e => p e.1) k = if p k then t.get k else none := by
  induction t with
  | nil => simp
  | cons e r ih =>
    obtain ⟨k', v⟩ := e
    by_cases hp : p k' <;> by_cases hk : k' = k <;> simp_all [Tbl.get]

@[simp] theorem Tbl.get_del_same (t : Tbl α) (k : Nat) : (t.del k).get k = none := by
  simpa [Tbl.del] using Tbl.get_filter_key t (fun j => j != k) k

theorem Tbl.get_del_other (t : Tbl α) {k j : Nat} (h : j ≠ k) : (t.del k).get j = t.get j := by
  simpa [Tbl.del, h] using Tbl.get_filter_key t (fun i => i != k) j

theorem Tbl.get_append (t u : Tbl α) (k : Nat) : Tbl.get (t ++ u) k = (t.get k).or (u.get k) := by
  induction t with
  | nil => simp
  | cons e r ih =>
    obtain ⟨k', v⟩ := e
    by_cases h : k' = k <;> simp [Tbl.get, h, ih]

theorem Tbl.get_number (vs : List α) (a k : Nat) :
    Tbl.get (Tbl.number a vs) k = if a ≤ k then vs[k - a]? else none := by
  induction vs generalizing a with
  | nil => simp [Tbl.number]
  | cons v r ih =>
    simp only [Tbl.number, Tbl.get, ih]
    by_cases h : a = k
    · subst h; simp
    · by_cases hle : a ≤ k
      · have : a + 1 ≤ k := by omega
        have e : k - a = (k - (a + 1)) + 1 := by omega
        simp [h, hle, this, e]
      · have : ¬ a + 1 ≤ k := by omega
        simp [h, hle, this]

/-- A run of values put at consecutive keys. -/
theorem Tbl.get_putRun (t : Tbl α) (a k : Nat) (vs : List α) :
    (t.putRun a vs).get k = if a ≤ k ∧ k < a + vs.length then vs[k - a]? else t.get k := by
  unfold Tbl.putRun
  rw [Tbl.get_append, Tbl.get_append, Tbl.get_filter_key t (fun j => decide (j < a)),
    Tbl.get_filter_key t (fun j => decide (a + vs.length ≤ j)), Tbl.get_number]
  by_cases h1 : a ≤ k
  · by_cases h2 : k < a + vs.length
    · have : k - a < vs.length := by omega
      simp [h1, h2, show ¬ k < a by omega, List.getElem?_eq_getElem this]
    · have : vs.length ≤ k - a := by omega
      simp [h1, h2, show ¬ k < a by omega, List.getElem?_eq_none this, show a + vs.length ≤ k by omega]
  · simp [h1, show k < a by omega, show ¬ a + vs.length ≤ k by omega]

/-! ### Keys in order -/

/-- Every key is at least `a`. -/
def Tbl.from (a : Nat) (t : Tbl α) : Prop := ∀ e ∈ t, a ≤ e.1

theorem Tbl.rising_cons (k : Nat) (v : α) (r : Tbl α) :
    Tbl.rising ((k, v) :: r) = true ↔ Tbl.from (k + 1) r ∧ Tbl.rising r = true := by
  induction r generalizing k v with
  | nil => simp [Tbl.rising, Tbl.from]
  | cons e r ih =>
    obtain ⟨k', w⟩ := e
    simp only [Tbl.rising, Bool.and_eq_true, decide_eq_true_eq]
    constructor
    · rintro ⟨h, hr⟩
      refine ⟨?_, hr⟩
      have := ((ih k' w).mp hr).1
      intro e he
      rcases List.mem_cons.mp he with rfl | he
      · exact h
      · have := this e he; omega
    · rintro ⟨h, hr⟩
      exact ⟨h (k', w) (by simp), hr⟩

theorem Tbl.rising_tail {k : Nat} {v : α} {r : Tbl α} (h : Tbl.rising ((k, v) :: r) = true) :
    Tbl.rising r = true := ((Tbl.rising_cons k v r).mp h).2

theorem Tbl.from_mono {a b : Nat} {t : Tbl α} (h : Tbl.from b t) (hab : a ≤ b) : Tbl.from a t :=
  fun e he => Nat.le_trans hab (h e he)

theorem Tbl.from_put {a k : Nat} {t : Tbl α} (v : α) (h : Tbl.from a t) (hk : a ≤ k) : Tbl.from a (t.put k v) := by
  induction t with
  | nil => intro e he; simp [Tbl.put] at he; subst he; exact hk
  | cons e r ih =>
    obtain ⟨k', w⟩ := e
    have hr : Tbl.from a r := fun e he => h e (by simp [he])
    have hk' : a ≤ k' := h (k', w) (by simp)
    unfold Tbl.put
    split
    · intro e he
      rcases List.mem_cons.mp he with rfl | he
      · exact hk
      · exact h e he
    · split
      · intro e he
        rcases List.mem_cons.mp he with rfl | he
        · exact hk
        · exact hr e he
      · intro e he
        rcases List.mem_cons.mp he with rfl | he
        · exact hk'
        · exact ih hr e he

/-- Entering a key keeps the order of the keys. -/
theorem Tbl.rising_put {t : Tbl α} (k : Nat) (v : α) (h : Tbl.rising t = true) : Tbl.rising (t.put k v) = true := by
  induction t with
  | nil => simp [Tbl.put, Tbl.rising]
  | cons e r ih =>
    obtain ⟨k', w⟩ := e
    obtain ⟨hf, hr⟩ := (Tbl.rising_cons k' w r).mp h
    unfold Tbl.put
    split
    · rename_i hlt
      refine (Tbl.rising_cons _ _ _).mpr ⟨?_, h⟩
      intro e he
      rcases List.mem_cons.mp he with rfl | he
      · exact hlt
      · have := hf e he; omega
    · split
      · rename_i _ he
        subst he
        exact (Tbl.rising_cons _ _ _).mpr ⟨hf, hr⟩
      · exact (Tbl.rising_cons _ _ _).mpr ⟨Tbl.from_put v hf (by omega), ih hr⟩

theorem Tbl.rising_upd {t : Tbl α} (k : Nat) (f : α → α) (h : Tbl.rising t = true) : Tbl.rising (t.upd k f) = true := by
  unfold Tbl.upd
  split
  · exact h
  · exact Tbl.rising_put _ _ h

theorem Tbl.rising_filter {t : Tbl α} (p : Nat × α → Bool) (h : Tbl.rising t = true) :
    Tbl.rising (t.filter p) = true := by
  induction t with
  | nil => simp [Tbl.rising]
  | cons e r ih =>
    obtain ⟨k, v⟩ := e
    obtain ⟨hf, hr⟩ := (Tbl.rising_cons k v r).mp h
    rw [List.filter_cons]
    split
    · refine (Tbl.rising_cons _ _ _).mpr ⟨?_, ih hr⟩
      intro e he
      exact hf e (List.mem_filter.mp he).1
    · exact ih hr

theorem Tbl.rising_del {t : Tbl α} (k : Nat) (h : Tbl.rising t = true) : Tbl.rising (t.del k) = true :=
  Tbl.rising_filter _ h

theorem Tbl.rising_append {t u : Tbl α} (ht : Tbl.rising t = true) (hu : Tbl.rising u = true)
    (h : ∀ e ∈ t, ∀ f ∈ u, e.1 < f.1) : Tbl.rising (t ++ u) = true := by
  induction t with
  | nil => simpa using hu
  | cons e r ih =>
    obtain ⟨k, v⟩ := e
    obtain ⟨hf, hr⟩ := (Tbl.rising_cons k v r).mp ht
    rw [List.cons_append]
    refine (Tbl.rising_cons _ _ _).mpr ⟨?_, ih hr fun e he f hfu => h e (by simp [he]) f hfu⟩
    intro e he
    rcases List.mem_append.mp he with he | he
    · exact hf e he
    · exact h (k, v) (by simp) e he

theorem Tbl.mem_number {vs : List α} {a : Nat} {e : Nat × α} (h : e ∈ Tbl.number a vs) :
    a ≤ e.1 ∧ e.1 < a + vs.length := by
  induction vs generalizing a with
  | nil => simp [Tbl.number] at h
  | cons v r ih =>
    rcases List.mem_cons.mp h with rfl | h
    · simp
    · have := ih h; simp; omega

theorem Tbl.rising_number (vs : List α) (a : Nat) : Tbl.rising (Tbl.number a vs) = true := by
  induction vs generalizing a with
  | nil => rfl
  | cons v r ih =>
    refine (Tbl.rising_cons _ _ _).mpr ⟨fun e he => (Tbl.mem_number he).1, ih _⟩

theorem Tbl.rising_putRun {t : Tbl α} (a : Nat) (vs : List α) (h : Tbl.rising t = true) :
    Tbl.rising (t.putRun a vs) = true := by
  unfold Tbl.putRun
  refine Tbl.rising_append (Tbl.rising_append (Tbl.rising_filter _ h) (Tbl.rising_number _ _) ?_)
    (Tbl.rising_filter _ h) ?_
  · intro e he f hf
    have h1 := (List.mem_filter.mp he).2
    have h2 := (Tbl.mem_number hf).1
    simp only [decide_eq_true_eq] at h1
    omega
  · intro e he f hf
    have h2 := (List.mem_filter.mp hf).2
    simp only [decide_eq_true_eq] at h2
    rcases List.mem_append.mp he with he | he
    · have h1 := (List.mem_filter.mp he).2
      simp only [decide_eq_true_eq] at h1
      omega
    · have h1 := (Tbl.mem_number he).2
      omega

/-! ### Byte memories -/

namespace Memory

theorem byte_filter_key (m : Memory) (p : Nat → Bool) (a : Nat) :
    byte (m.filter fun e => p e.1) a = if p a then m.byte a else 0 := by
  unfold byte
  rw [Tbl.get_filter_key]
  split <;> simp

theorem byte_filter_nonzero {m : Memory} (h : Tbl.rising m = true) (a : Nat) :
    byte (m.filter fun e => e.2 != 0) a = m.byte a := by
  induction m with
  | nil => rfl
  | cons e r ih =>
    obtain ⟨k, v⟩ := e
    obtain ⟨hf, hr⟩ := (Tbl.rising_cons k v r).mp h
    have hrest := ih hr
    have hn : k = a → Tbl.get r a = none := by
      rintro rfl
      clear hrest ih h hr
      induction r with
      | nil => rfl
      | cons e r ih =>
        obtain ⟨k', w⟩ := e
        have : k + 1 ≤ k' := hf (k', w) (by simp)
        rw [Tbl.get_cons, if_neg (by omega), ih fun e he => hf e (by simp [he])]
    unfold byte at hrest ⊢
    by_cases hv : v = 0
    · rw [List.filter_cons_of_neg (by simp [hv]), hrest, Tbl.get_cons]
      split
      · rename_i hk
        rw [hn hk, hv]
        rfl
      · rfl
    · rw [List.filter_cons_of_pos (by simpa using hv), Tbl.get_cons, Tbl.get_cons]
      split
      · rfl
      · exact hrest

/-- A key outside the range written is no key of the new entries. -/
theorem get_number_out (p : Host.Cell → Bool) {a b : Nat} {d : List Byte} (h : b < a ∨ a + d.length ≤ b) :
    Tbl.get ((Tbl.number a d).filter p) b = none := by
  have hne : ∀ e ∈ (Tbl.number a d).filter p, e.1 ≠ b := fun e he => by
    have := Tbl.mem_number (List.mem_filter.mp he).1
    omega
  generalize (Tbl.number a d).filter p = t at hne
  induction t with
  | nil => rfl
  | cons e r ih =>
    obtain ⟨k, v⟩ := e
    rw [Tbl.get_cons, if_neg (hne (k, v) (by simp)), ih fun e he => hne e (by simp [he])]

/-- READ AFTER WRITE: a byte of the range written reads as the byte written there, every other byte as before. -/
theorem byte_store (m : Memory) (a : Nat) (d : List Byte) (b : Nat) :
    (m.store a d).byte b = if a ≤ b ∧ b < a + d.length then d.getD (b - a) 0 else m.byte b := by
  have hn := byte_filter_nonzero (Tbl.rising_number d a) b
  unfold store
  unfold byte at hn ⊢
  rw [Tbl.get_number] at hn
  rw [Tbl.get_append, Tbl.get_append, Tbl.get_filter_key m (fun j => decide (j < a)),
    Tbl.get_filter_key m (fun j => decide (a + d.length ≤ j))]
  by_cases h : a ≤ b ∧ b < a + d.length
  · rw [if_pos h, if_neg (by simpa using h.1), if_neg (by simpa using h.2), Option.none_or, Option.or_none, hn, if_pos h.1]
    rfl
  · rw [if_neg h, get_number_out _ (by omega), Option.or_none]
    by_cases hb : b < a
    · rw [if_pos (by simpa using hb), if_neg (by simp; omega), Option.or_none]
    · rw [if_neg (by simpa using hb), Option.none_or, if_pos (by simp; omega)]

theorem byte_store_other {m : Memory} {a b : Nat} {d : List Byte} (h : b < a ∨ a + d.length ≤ b) :
    (m.store a d).byte b = m.byte b := by
  rw [byte_store, if_neg (by omega)]

/-- A write keeps the canonical form. -/
theorem wf_store {m : Memory} (a : Nat) (d : List Byte) (h : m.wf = true) : (m.store a d).wf = true := by
  unfold wf at h ⊢
  rw [Bool.and_eq_true] at h ⊢
  obtain ⟨hr, hz⟩ := h
  constructor
  · unfold store
    refine Tbl.rising_append (Tbl.rising_append (Tbl.rising_filter _ hr)
      (Tbl.rising_filter _ (Tbl.rising_number _ _)) ?_) (Tbl.rising_filter _ hr) ?_
    · intro e he f hf
      have h1 := (List.mem_filter.mp he).2
      have h2 := (Tbl.mem_number (List.mem_filter.mp hf).1).1
      simp only [decide_eq_true_eq] at h1
      omega
    · intro e he f hf
      have h2 := (List.mem_filter.mp hf).2
      simp only [decide_eq_true_eq] at h2
      rcases List.mem_append.mp he with he | he
      · have h1 := (List.mem_filter.mp he).2
        simp only [decide_eq_true_eq] at h1
        omega
      · have h1 := (Tbl.mem_number (List.mem_filter.mp he).1).2
        omega
  · rw [List.all_eq_true] at hz ⊢
    intro e he
    unfold store at he
    rcases List.mem_append.mp he with he | he
    · rcases List.mem_append.mp he with he | he
      · exact hz e (List.mem_filter.mp he).1
      · exact (List.mem_filter.mp he).2
    · exact hz e (List.mem_filter.mp he).1

@[simp] theorem wf_nil : wf [] = true := rfl

theorem wf_filter {m : Memory} (p : Host.Cell → Bool) (h : m.wf = true) : wf (m.filter p) = true := by
  unfold wf at h ⊢
  rw [Bool.and_eq_true] at h ⊢
  refine ⟨Tbl.rising_filter _ h.1, ?_⟩
  rw [List.all_eq_true] at h ⊢
  exact fun e he => h.2 e (List.mem_filter.mp he).1

end Memory

end Sys2Proof.Machine
end

