-- ==== Sys2Proof/Laws/Quiet.lean ====
section
/-! SUPPORT. What the saving of stopping parts, the logs and the queues of system software leave alone: everything of
a wave but its parts and its sequence counts, the operations, time, the turns, and the registers of links and tables. -/

namespace Sys2Proof.Machine

open Sys2Proof

/-- A wave without its parts and its sequence counts. -/
def Wave.held (w : Wave) : Wave := { w with parts := [], seqs := { dseq := 0, atom := 0, emit := 0 } }

/-- What stays while parts are saved and records are written: of the link's registers all but the accumulators of memory
that peers own, which an access resolves (R235). The buckets may be charged (R324). -/
structure Quiet (s t : State) : Prop where
  ops     : t.ops = s.ops
  fresh   : t.fresh = s.fresh
  time    : t.time = s.time
  wrapped : t.wrapped = s.wrapped
  clk     : t.clk = s.clk
  tables  : t.tables = s.tables
  link    : { t.link with fixed := [] } = { s.link with fixed := [] }
  heat    : t.heat = s.heat
  turns   : t.turns = s.turns
  cur     : t.cur = s.cur
  waves   : ∀ k, (t.waves.get k).map Wave.held = (s.waves.get k).map Wave.held

namespace Quiet

theorem refl (s : State) : Quiet s s := ⟨rfl, rfl, rfl, rfl, rfl, rfl, rfl, rfl, rfl, rfl, fun _ => rfl⟩

theorem trans {s t u : State} (h : Quiet s t) (g : Quiet t u) : Quiet s u :=
  ⟨g.ops.trans h.ops, g.fresh.trans h.fresh, g.time.trans h.time, g.wrapped.trans h.wrapped, g.clk.trans h.clk,
    g.tables.trans h.tables, g.link.trans h.link, g.heat.trans h.heat, g.turns.trans h.turns,
    g.cur.trans h.cur, fun k => (g.waves k).trans (h.waves k)⟩

/-- Carried through a fold. -/
theorem foldl {β : Type} {f : State → β → State} (h : ∀ s b, Quiet s (f s b)) (l : List β) (s : State) :
    Quiet s (l.foldl f s) := by
  induction l generalizing s with
  | nil => exact refl s
  | cons b r ih => exact (h s b).trans (ih _)

/-- A fold that carries something beside the state. -/
theorem foldlPair {α β : Type} {f : State × α → β → State × α} (h : ∀ a b, Quiet a.1 (f a b).1) (l : List β)
    (a : State × α) : Quiet a.1 (l.foldl f a).1 := by
  induction l generalizing a with
  | nil => exact refl _
  | cons b r ih => exact (h a b).trans (ih _)

/-- A wave update that keeps what `Wave.held` shows. -/
theorem modWave (s : State) (k : Nat) {f : Wave → Wave} (h : ∀ w, (f w).held = w.held) : Quiet s (s.modWave k f) := by
  refine ⟨rfl, rfl, rfl, rfl, rfl, rfl, rfl, rfl, rfl, rfl, fun j => ?_⟩
  rw [State.modWave_waves, Tbl.get_upd]
  split
  · rename_i hj
    subst hj
    cases s.waves.get j <;> simp [h]
  · rfl

theorem modPart (s : State) (p : PartRef) (f : Part → Part) : Quiet s (s.modPart p f) := modWave s _ fun _ => rfl

theorem modCore (s : State) (k : Nat) (f : Core → Core) : Quiet s (s.modCore k f) := ⟨rfl, rfl, rfl, rfl, rfl, rfl, rfl, rfl, rfl, rfl, fun _ => rfl⟩
theorem modCluster (s : State) (k : Nat) (f : Cluster → Cluster) : Quiet s (s.modCluster k f) := ⟨rfl, rfl, rfl, rfl, rfl, rfl, rfl, rfl, rfl, rfl, fun _ => rfl⟩
theorem modSlice (s : State) (k : Nat) (f : Slice → Slice) : Quiet s (s.modSlice k f) := ⟨rfl, rfl, rfl, rfl, rfl, rfl, rfl, rfl, rfl, rfl, fun _ => rfl⟩
theorem modDie (s : State) (k : Nat) (f : Assay → Assay) : Quiet s (s.modDie k f) := ⟨rfl, rfl, rfl, rfl, rfl, rfl, rfl, rfl, rfl, rfl, fun _ => rfl⟩
theorem modCtx (s : State) (k : Nat) (f : Context → Context) : Quiet s (s.modCtx k f) := ⟨rfl, rfl, rfl, rfl, rfl, rfl, rfl, rfl, rfl, rfl, fun _ => rfl⟩
theorem modGroup (s : State) (k : Nat) (f : Group → Group) : Quiet s (s.modGroup k f) := ⟨rfl, rfl, rfl, rfl, rfl, rfl, rfl, rfl, rfl, rfl, fun _ => rfl⟩
theorem modUnit (s : State) (k : Nat) (f : WorkUnit → WorkUnit) : Quiet s (s.modUnit k f) := ⟨rfl, rfl, rfl, rfl, rfl, rfl, rfl, rfl, rfl, rfl, fun _ => rfl⟩
theorem send (s : State) (o : Out) : Quiet s (s.send o) := ⟨rfl, rfl, rfl, rfl, rfl, rfl, rfl, rfl, rfl, rfl, fun _ => rfl⟩
theorem tick (s : State) : Quiet s s.tick := ⟨rfl, rfl, rfl, rfl, rfl, rfl, rfl, rfl, rfl, rfl, fun _ => rfl⟩
theorem setMem (s : State) (m : Store) : Quiet s { s with mem := m } := ⟨rfl, rfl, rfl, rfl, rfl, rfl, rfl, rfl, rfl, rfl, fun _ => rfl⟩
theorem setTrans (s : State) (m : TransRegs) : Quiet s { s with trans := m } := ⟨rfl, rfl, rfl, rfl, rfl, rfl, rfl, rfl, rfl, rfl, fun _ => rfl⟩
theorem setBoot (s : State) (m : Boot) : Quiet s { s with boot := m } := ⟨rfl, rfl, rfl, rfl, rfl, rfl, rfl, rfl, rfl, rfl, fun _ => rfl⟩
theorem setRecs (s : State) (m : List OpenRecord) : Quiet s { s with recs := m } := ⟨rfl, rfl, rfl, rfl, rfl, rfl, rfl, rfl, rfl, rfl, fun _ => rfl⟩
theorem setUnits (s : State) (m : Tbl WorkUnit) : Quiet s { s with units := m } := ⟨rfl, rfl, rfl, rfl, rfl, rfl, rfl, rfl, rfl, rfl, fun _ => rfl⟩

theorem modBucket (s : State) (k : Nat) (f : Bucket → Bucket) : Quiet s (s.modBucket k f) := ⟨rfl, rfl, rfl, rfl, rfl, rfl, rfl, rfl, rfl, rfl, fun _ => rfl⟩
theorem setNet (s : State) (m : Net) : Quiet s { s with net := m } := ⟨rfl, rfl, rfl, rfl, rfl, rfl, rfl, rfl, rfl, rfl, fun _ => rfl⟩
theorem setFixed (s : State) (m : Tbl FixedEntry) : Quiet s { s with link := { s.link with fixed := m } } := ⟨rfl, rfl, rfl, rfl, rfl, rfl, rfl, rfl, rfl, rfl, fun _ => rfl⟩

/-- A match on an answer. -/
theorem ite {s t u : State} {c : Prop} [Decidable c] (h : Quiet s t) (g : Quiet s u) : Quiet s (if c then t else u) := by
  split <;> assumption

end Quiet

namespace State

/-! ### Memory -/

theorem setBytes_quiet (s : State) (l : Loc) (d : List Byte) : Quiet s (s.setBytes l d) := by
  unfold setBytes
  have h : Quiet s (if s.mem.bad.isEmpty then s
      else { s with mem := { s.mem with bad := s.mem.bad.filter fun x => !((List.range d.length).any fun i => l.add i == x) } }) :=
    Quiet.ite (Quiet.refl _) (Quiet.setMem _ _)
  cases l
  · exact h.trans (Quiet.setMem _ _)
  · exact h.trans (Quiet.setMem _ _)
  · exact h.trans (Quiet.setMem _ _)
  · exact h
  · exact h.trans (Quiet.modGroup _ _ _)
  · exact h.trans (Quiet.setMem _ _)

theorem setNat_quiet (s : State) (l : Loc) (n v : Nat) : Quiet s (s.setNat l n v) := setBytes_quiet _ _ _

theorem blur_quiet (s : State) (a n : Nat) : Quiet s (s.blur a n) := (Quiet.tick s).trans (Quiet.setMem _ _)

theorem dropFixed_quiet (s : State) (l : Loc) : Quiet s (s.dropFixed l) := by
  unfold dropFixed
  split
  · exact Quiet.modSlice _ _ _
  · exact Quiet.setFixed _ _
  · exact Quiet.refl _

theorem resolveFixed_quiet (s : State) (l : Loc) : Quiet s (s.resolveFixed l) := by
  unfold resolveFixed
  split
  · exact Quiet.refl _
  · have h := dropFixed_quiet s l
    dsimp only
    generalize s.dropFixed l = u at h ⊢
    split
    · exact h.trans (setBytes_quiet _ _ _)
    · refine h.trans (Quiet.foldl (fun u x => ?_) _ _)
      split
      · exact Quiet.refl _
      · exact setBytes_quiet _ _ _

theorem settleFixed_quiet (s : State) (l : Loc) (n : Nat) : Quiet s (s.settleFixed l n) :=
  Quiet.foldl (fun s _ => resolveFixed_quiet s _) _ _

theorem readAt_quiet (s : State) (l : Loc) (n : Nat) : Quiet s (s.readAt l n).1 := settleFixed_quiet _ _ _

theorem writeAt_quiet (s : State) (l : Loc) (d : List Byte) : Quiet s (s.writeAt l d) :=
  (settleFixed_quiet _ _ _).trans (setBytes_quiet _ _ _)

theorem carry_quiet (s : State) (a : Nat) (g : Sig × Time) : Quiet s (s.carry a g) := Quiet.modSlice _ _ _

theorem inject_quiet (s : State) (p : Packet) : Quiet s (s.inject p) := by
  unfold inject
  dsimp only
  split
  · exact Quiet.modBucket _ _ _
  · exact (Quiet.modBucket _ _ _).trans (Quiet.setNet _ _)

theorem askBucket_quiet (s : State) (p : Packet) : Quiet s (s.askBucket p) := by
  unfold askBucket
  dsimp only
  split
  · exact inject_quiet _ _
  · exact Quiet.modBucket _ _ _

theorem account_quiet (s : State) (port cls flits back n : Nat) : Quiet s (s.account port cls flits back n) := by
  unfold account
  split
  · exact Quiet.refl _
  · exact Quiet.foldl (fun s _ => askBucket_quiet s _) _ _

theorem request_quiet (s : State) (id port cls : Nat) (write lines : Bool) (l : List Loc) :
    Quiet s (s.request id port cls write lines l) := by
  unfold request
  refine Quiet.foldl (fun s e => ?_) _ _
  split
  · exact askBucket_quiet _ _
  · exact account_quiet _ _ _ _ _ _

theorem ask_quiet (s : State) (port cls : Nat) (write : Bool) (l : Loc) (n : Nat) : Quiet s (s.ask port cls write l n) :=
  request_quiet _ _ _ _ _ _ _

theorem applySig_quiet (s : State) (k : Nat) (g : Sig × Time) (keep : Bool) : Quiet s (s.applySig k g keep) := by
  unfold applySig
  have h : Quiet s (if (s.core k).f < s.sane g.2 then (s.dropGlobal k).modCore k fun c => { c with f := s.time }
      else s.dropHashed k g.1) :=
    Quiet.ite ((Quiet.modCore _ _ _).trans (Quiet.modCore _ _ _)) (Quiet.modCore _ _ _)
  simp only
  generalize (if (s.core k).f < s.sane g.2 then (s.dropGlobal k).modCore k fun c => { c with f := s.time }
      else s.dropHashed k g.1) = t at h ⊢
  split
  · exact h
  · exact h.trans (Quiet.modCore _ _ _)

end State

/-! ### Translation -/

theorem walkFrom_quiet (n : Nat) (s : State) (va t lv : Nat) : Quiet s (walkFrom s va t lv n).1 := by
  induction n generalizing s t lv with
  | zero => exact Quiet.refl _
  | succ n ih =>
    unfold walkFrom
    simp only
    split
    · exact Quiet.refl _
    · refine (State.settleFixed_quiet s (.dev (field t 38 0 + 8 * (va / 2 ^ (48 - 9 * lv) % 512))) 8).trans ?_
      generalize s.settleFixed _ _ = s'
      split
      · exact Quiet.refl _
      · split
        · exact Quiet.refl _
        · split
          · exact Quiet.refl _
          · exact ih _ _ _

namespace State

theorem asidEntry_quiet (s : State) (asid : Nat) : Quiet s (s.asidEntry asid).1 := by
  unfold asidEntry
  split
  · exact Quiet.refl _
  · dsimp only
    split
    · exact Quiet.refl _
    · exact (settleFixed_quiet _ _ _).trans (Quiet.setTrans _ _)

theorem walk_quiet (s : State) (asid va : Nat) : Quiet s (s.walk asid va).1 := by
  unfold walk
  have h := asidEntry_quiet s asid
  split
  · rename_i heq; rw [heq] at h; exact h
  · rename_i s' e _ heq
    rw [heq] at h
    split
    · exact h
    · have h2 := walkFrom_quiet 5 s' va (field e 51 12 * 4096) 0
      split <;> (rename_i heq2; rw [heq2] at h2; exact h.trans h2)

theorem locate_quiet (s : State) (asid : Nat) (kind : XKind) (va : Dword) : Quiet s (s.locate asid kind va).1 := by
  unfold locate
  simp only
  split
  · split
    · exact Quiet.refl _
    · split <;> exact Quiet.refl _
  · split
    · exact Quiet.refl _
    · have h := walk_quiet s asid va.toNat
      split
      · rename_i heq; rw [heq] at h; exact h
      · rename_i heq; rw [heq] at h; exact h
      · rename_i heq
        rw [heq] at h
        split
        · exact h
        · exact h
        · split <;> exact h

theorem devWrite_quiet (n : Nat) (s : State) (asid : Nat) (va : Dword) (d : List Byte) :
    Quiet s (s.devWrite asid va d n).1 := by
  induction n generalizing s va d with
  | zero => exact Quiet.refl _
  | succ n ih =>
    unfold devWrite
    have h := locate_quiet s asid .write va
    split
    · rename_i heq; rw [heq] at h; exact h
    · rename_i heq
      rw [heq] at h
      split
      · exact h
      · exact (h.trans (writeAt_quiet _ _ _)).trans (ih _ _ _)

theorem devBlur_quiet (n : Nat) (s : State) (asid : Nat) (va : Dword) : Quiet s (s.devBlur asid va n).1 := by
  induction n generalizing s va with
  | zero => exact Quiet.refl _
  | succ n ih =>
    unfold devBlur
    have h := locate_quiet s asid .write va
    split
    · rename_i heq
      rw [heq] at h
      split
      · exact h
      · refine Quiet.trans (h.trans ?_) (ih _ _)
        split
        · exact blur_quiet _ _ _
        · exact Quiet.refl _
    · rename_i heq; rw [heq] at h; exact h

/-! ### Logs -/

theorem ringPut_quiet (s : State) (port : Option Nat) (base size : Nat) (r : List Byte) :
    Quiet s (s.ringPut port base size r) := by
  unfold ringPut
  split
  · exact Quiet.refl _
  · split
    · exact setNat_quiet _ _ _ _
    · refine Quiet.trans (Quiet.trans (Quiet.trans ?_ (setBytes_quiet _ _ _)) (setNat_quiet _ _ _ _)) (carry_quiet _ _ _)
      split
      · exact (ask_quiet _ _ _ _ _ _).trans (ask_quiet _ _ _ _ _ _)
      · exact Quiet.refl _

theorem nextSeq_quiet (s : State) (k : Nat) : Quiet s (s.nextSeq k).1 := by
  unfold nextSeq
  dsimp only
  exact Quiet.modCore s k _

theorem assay_quiet (s : State) (d : Nat) (r : List Byte) : Quiet s (s.assay d r) := Quiet.modDie _ _ _

theorem platform_quiet (s : State) (d code ctx data pc : Nat) : Quiet s (s.platform d code ctx data pc) := by
  unfold platform
  exact (assay_quiet _ _ _).trans (Quiet.modDie _ _ _)

theorem platformAll_quiet (s : State) (code ctx data : Nat) : Quiet s (s.platformAll code ctx data) :=
  Quiet.foldl (fun s d => platform_quiet s d code ctx data 0) _ _

theorem diverge_quiet (s : State) (u : WorkUnit) (k : Nat) (r : List Byte) : Quiet s (s.diverge u k r) := by
  unfold diverge
  exact (((nextSeq_quiet s k).trans (ringPut_quiet _ _ _ _ _)).trans (setNat_quiet _ _ _ _)).trans (Quiet.setUnits _ _)

theorem consume_quiet (s : State) (u : WorkUnit) (k place : Nat) : Quiet s (s.consume u k place) := by
  unfold consume
  exact (Quiet.modCore _ _ _).trans (setNat_quiet _ _ _ _)

theorem replayEvent_quiet (s : State) (k : Nat) (u : WorkUnit) (e : EvRec) : Quiet s (s.replayEvent k u e) := by
  unfold replayEvent
  split
  · exact Quiet.refl _
  · split
    · exact Quiet.refl _
    · split
      · exact consume_quiet _ _ _ _
      · exact diverge_quiet _ _ _ _

theorem event_quiet (s : State) (k : Nat) (u : WorkUnit) (e : EvRec) : Quiet s (s.event k u e) := by
  unfold event
  have h := replayEvent_quiet s k u e
  simp only
  generalize s.replayEvent k u e = t at h ⊢
  split
  · have hn := h.trans (nextSeq_quiet t k)
    generalize t.nextSeq k = r at hn ⊢
    have h1 : Quiet s (if writesEvent u e = true then
        r.1.ringPut (some (clusterOf k)) (u.ering k) u.esize (evBytes r.1.time.toNat r.2 k e) else r.1) := by
      split
      · exact hn.trans (ringPut_quiet _ _ _ _ _)
      · exact hn
    generalize (if writesEvent u e = true then
        r.1.ringPut (some (clusterOf k)) (u.ering k) u.esize (evBytes r.1.time.toNat r.2 k e) else r.1) = v at h1 ⊢
    have h2 : ∀ c : Prop, [Decidable c] → ∀ p, Quiet s (if c then v.consume u k p else v) := by
      intro c _ p
      split
      · exact h1.trans (consume_quiet _ _ _ _)
      · exact h1
    split
    · exact (h2 _ _).trans (assay_quiet _ _ _)
    · exact h2 _ _
  · exact h

theorem decide_quiet (s : State) (o : Who) (kind code part pc qmask data : Nat) :
    Quiet s (s.decide o kind code part pc qmask data) := by
  unfold decide
  refine Quiet.trans ?_ (event_quiet _ _ _ _)
  exact Quiet.modWave s _ (by intro w; rfl)

theorem waveEvent_quiet (s : State) (o : Who) (code : Nat) (q : QuadMask) (pc : Dword) : Quiet s (s.waveEvent o code q pc) :=
  decide_quiet _ _ _ _ _ _ _ _

/-! ### Queues of system software -/

theorem nextSerial_quiet (s : State) : Quiet s s.nextSerial.1 := Quiet.setTrans _ _

theorem queuePut_quiet (s : State) (cluster base lg size : Nat) (r : List Byte) :
    Quiet s (s.queuePut cluster base lg size r).1 := by
  unfold queuePut
  simp only
  split
  · exact Quiet.refl _
  · split
    · exact Quiet.refl _
    · split
      · exact Quiet.refl _
      · exact ((((ask_quiet _ _ _ _ _ _).trans (ask_quiet _ _ _ _ _ _)).trans (writeAt_quiet _ _ _)).trans
          (writeAt_quiet _ _ _)).trans (carry_quiet _ _ _)

theorem interrupt_quiet (s : State) (n : Nat) : Quiet s (s.interrupt n) := by
  unfold interrupt
  split
  · exact Quiet.send _ _
  · exact Quiet.refl _

theorem putTrap_quiet (s : State) (core n : Nat) (r : List Byte) : Quiet s (s.putTrap core n r).1 := by
  unfold putTrap
  have wait : Quiet s (if (s.cluster (clusterOf core)).tbuf.length < 32 then
      (s.modCluster (clusterOf core) fun c => { c with tbuf := c.tbuf ++ [(n, r)] }, Put.done) else (s, Put.full)).1 := by
    split
    · dsimp only
      exact Quiet.modCluster s _ _
    · exact Quiet.refl s
  simp only
  split
  · exact wait
  · rename_i base lg irq _
    have h := queuePut_quiet s (clusterOf core) base lg 128 r
    split
    · rename_i heq
      rw [heq] at h
      dsimp only
      split
      · exact h.trans (Quiet.send _ _)
      · exact h
    · exact wait
    · rename_i heq
      rw [heq] at h
      exact h

theorem putFault_quiet (s : State) (core n : Nat) (r : List Byte) : Quiet s (s.putFault core n r).1 := by
  unfold putFault
  have ha := asidEntry_quiet s n
  simp only
  generalize (s.asidEntry n).1 = v at ha ⊢
  have wait : Quiet s (if (v.cluster (clusterOf core)).fbuf.length < 32 then
      (v.modCluster (clusterOf core) fun c => { c with fbuf := c.fbuf ++ [(n, r)] }, Put.done) else (v, Put.full)).1 := by
    split
    · dsimp only
      exact ha.trans (Quiet.modCluster v _ _)
    · exact ha
  split
  · exact wait
  · rename_i base lg _
    have h := ha.trans (queuePut_quiet v (clusterOf core) base lg 64 r)
    split
    · rename_i heq
      rw [heq] at h
      exact h.trans (interrupt_quiet _ _)
    · exact wait
    · rename_i heq
      rw [heq] at h
      exact h

/-! ### Stopping -/

theorem flushSigs_quiet (s : State) (o : Who) : Quiet s (s.flushSigs o) := by
  unfold flushSigs
  split
  · exact Quiet.refl _
  · exact (applySig_quiet _ _ _ _).trans (Quiet.modPart _ _ _)

theorem unpin_quiet (s : State) (o : Who) : Quiet s (s.unpin o) := Quiet.modPart _ _ _

theorem fatal_quiet (s : State) : Quiet s s.fatal := (Quiet.setBoot _ _).trans (platformAll_quiet _ _ _ _)

theorem beginReset_quiet (s : State) (ctl : Bool) (n : Nat) : Quiet s (s.beginReset ctl n) := by
  unfold beginReset
  split
  · exact fatal_quiet _
  · exact Quiet.modCtx _ _ _

theorem freezeOnTrap_quiet (s : State) (o : Who) : Quiet s (s.freezeOnTrap o) := by
  unfold freezeOnTrap
  split
  · exact Quiet.modCore _ _ _
  · exact Quiet.refl _

theorem savePart_quiet (s : State) (o : Who) (state : Nat) (wait : Word) : Quiet s (s.savePart o state wait).1 := by
  unfold savePart
  have h0 := account_quiet s (clusterOf o.g.core) 0 3 1
    (saveLines o (o.w.parts.length ≤ 1 || state = 3))
  simp only
  generalize s.account (clusterOf o.g.core) 0 3 1 (saveLines o (o.w.parts.length ≤ 1 || state = 3)) = s0 at h0 ⊢
  have h1 := devWrite_quiet 8 s0 o.asid (o.frame + BitVec.ofNat 64 (128 * o.pr.part)) (headerBytes o state wait)
  have h2 := Quiet.foldlPair (f := fun (a : State × Bool) q =>
    let stack := if q = o.pr.part then o.p.stack else []
    let r := a.1.devWrite o.asid (o.frame + BitVec.ofNat 64 (4096 + q * quadBlock o.u))
      (quadBytes o.w o.u.valloc q stack) (quadBlock o.u / 16)
    (r.1, a.2 && r.2)) (fun a q => devWrite_quiet _ a.1 _ _ _) (maskBits o.p.quads)
    (s0.devWrite o.asid (o.frame + BitVec.ofNat 64 (128 * o.pr.part)) (headerBytes o state wait) 8)
  split
  · exact ((h0.trans h1).trans h2).trans (devBlur_quiet _ _ _ _)
  · exact (h0.trans h1).trans h2

theorem finishTrap_quiet (s : State) (o : Who) (t : TrapInfo) (time : Time) : Quiet s (s.finishTrap o t time) := by
  unfold finishTrap
  simp only
  generalize (if o.u.ctl = true then 0 else o.u.ctx) = n
  by_cases h1 : (o.u.ctl && (s.trapQueue 0).isNone) = true
  · rw [if_pos h1]
    exact fatal_quiet _
  · rw [if_neg h1]
    by_cases h2 : (!s.trapRoom o.g.core n || s.portWaits (clusterOf o.g.core) 0 10) = true
    · rw [if_pos h2]
      exact Quiet.modPart _ _ _
    · rw [if_neg h2]
      have h := (((flushSigs_quiet s o).trans (unpin_quiet _ o)).trans (nextSerial_quiet _)).trans
        (savePart_quiet ((s.flushSigs o).unpin o).nextSerial.1 o 2 ((s.flushSigs o).unpin o).nextSerial.2)
      generalize ((s.flushSigs o).unpin o).nextSerial = r at h ⊢
      generalize r.1.savePart o 2 r.2 = v at h ⊢
      by_cases h3 : (!v.2) = true
      · rw [if_pos h3]
        exact h.trans (beginReset_quiet _ _ _)
      · rw [if_neg h3]
        refine Quiet.trans ?_ (freezeOnTrap_quiet _ _)
        refine Quiet.trans ?_ (event_quiet _ _ _ _)
        refine Quiet.trans ?_ (decide_quiet _ _ _ _ _ _ _ _)
        refine Quiet.trans ?_ (Quiet.modPart _ _ _)
        refine Quiet.trans ?_ (Quiet.modCore _ _ _)
        have hp := (h.trans (nextSeq_quiet _ o.g.core)).trans
          (putTrap_quiet _ o.g.core n (trapBytes o t time r.2 (v.1.nextSeq o.g.core).2))
        split
        · exact hp.trans (beginReset_quiet _ _ _)
        · exact hp

theorem finishFault_quiet (s : State) (o : Who) (f : FarInfo) : Quiet s (s.finishFault o f) := by
  unfold finishFault
  simp only
  split
  · exact Quiet.modPart _ _ _
  · have h0 := (flushSigs_quiet s o).trans (unpin_quiet (s.flushSigs o) o)
    generalize (s.flushSigs o).unpin o = s1 at h0 ⊢
    have tail : ∀ (t : State) (id : Word) (new : Bool), Quiet s t → Quiet s
        (if !(t.savePart o 1 id).2 then (t.savePart o 1 id).1.beginReset o.u.ctl o.u.ctx
        else
          ((if new then
              match ({ (t.savePart o 1 id).1 with recs := (t.savePart o 1 id).1.recs ++
                  [OpenRecord.mk id o.asid (f.va.toNat / 4096) 0] } : State).putFault o.g.core o.asid
                (faultBytes 0 id f.va f.level f.acc o.u.launchix o.p.pc o.w.index o.pr.part o.p.quads.toNat o.g.core
                  f.time) with
              | (s, .bad) => s.beginReset o.u.ctl o.u.ctx
              | (s, _) => s
            else (t.savePart o 1 id).1).modPart o.pr fun p =>
              { p with status := .faulted id, sigs := none, stall := 25 }).decide o 3 2 o.pr.part o.p.pc.toNat
                o.p.quads.toNat id.toNat) := by
      intro t id new ht
      have h := ht.trans (savePart_quiet t o 1 id)
      generalize (t.savePart o 1 id) = r at h ⊢
      split
      · exact h.trans (beginReset_quiet _ _ _)
      · refine Quiet.trans (Quiet.trans ?_ (Quiet.modPart _ _ _)) (decide_quiet _ _ _ _ _ _ _ _)
        split
        · have hp := (h.trans (Quiet.setRecs _ _)).trans (putFault_quiet
            { r.1 with recs := r.1.recs ++ [OpenRecord.mk id o.asid (f.va.toNat / 4096) 0] } o.g.core o.asid
            (faultBytes 0 id f.va f.level f.acc o.u.launchix o.p.pc o.w.index o.pr.part o.p.quads.toNat o.g.core f.time))
          split
          · rename_i heq; rw [heq] at hp; exact hp.trans (beginReset_quiet _ _ _)
          · rename_i heq; rw [heq] at hp; exact hp
        · exact h
    split
    · exact tail s1 _ false h0
    · exact tail _ _ true (h0.trans (nextSerial_quiet _))

theorem finishPart_quiet (s : State) (pr : PartRef) : Quiet s (s.finishPart pr) := by
  unfold finishPart
  split
  · exact Quiet.refl _
  · split
    · split
      · exact Quiet.refl _
      · exact finishTrap_quiet _ _ _ _
    · split
      · exact Quiet.refl _
      · exact finishFault_quiet _ _ _
    · exact Quiet.refl _

theorem finishStops_quiet (s : State) : Quiet s s.finishStops := Quiet.foldl finishPart_quiet _ _

/-- Settling lands what retirement makes pending and changes the table of operations as retirement does, and otherwise
only what `Quiet` leaves open. -/
theorem settle_quiet (s : State) : Quiet s.landAll.retire s.settle := finishStops_quiet _

theorem takeTrap_quiet (s : State) (pr : PartRef) (t : TrapInfo) : Quiet s (s.takeTrap pr t) :=
  (Quiet.modPart _ _ _).trans (finishStops_quiet _)

theorem takeFar_quiet (s : State) (pr : PartRef) (f : FarInfo) : Quiet s (s.takeFar pr f) :=
  (Quiet.modPart _ _ _).trans (finishStops_quiet _)

theorem stallFor_quiet (s : State) (pr : PartRef) (r : Nat) : Quiet s (s.stallFor pr r) := Quiet.modPart _ _ _

theorem holdOn_quiet (s : State) (pr : PartRef) (i : Instr) (r : Nat) : Quiet s (s.holdOn pr i r) := Quiet.modPart _ _ _

theorem stopAt_quiet (s : State) (pr : PartRef) (e : Stop) : Quiet s (s.stopAt pr e) := by
  cases e
  · exact takeTrap_quiet _ _ _
  · exact takeFar_quiet _ _ _
  · exact stallFor_quiet _ _ _

/-- With no part stopping and no fault owed, settling is retirement. -/
theorem settle_eq_retire (s : State) (h : s.stoppers = []) (ho : s.landAll = s) : s.settle = s.retire := by
  have : s.retire.stoppers = [] := h
  simp [settle, finishStops, this, ho]

/-- No operation owes a fault: nothing is landed. -/
theorem landAll_eq (s : State) (h : ∀ x ∈ s.ops, x.owed = []) : s.landAll = s := by
  have : (s.ops.filter fun x => !x.owed.isEmpty) = [] := by
    rw [List.filter_eq_nil_iff]
    intro x hx
    simp [h x hx]
  simp [landAll, this]

end State

end Sys2Proof.Machine
end

