-- ==== Sys2Proof/Laws/Lanes.lean ====
section
/-! SUPPORT. Masks, and what writing a register of a wave leaves readable (R44, R45, R85). -/

namespace Sys2Proof.Machine

open Sys2Proof

/-! ### Masks -/

theorem sum_pow_lt (f : Nat → Bool) (n : Nat) :
    (List.range n).foldl (fun a i => if f i then a + 2 ^ i else a) 0 < 2 ^ n := by
  induction n with
  | zero => simp
  | succ n ih =>
    rw [List.range_succ, List.foldl_append]
    simp only [List.foldl_cons, List.foldl_nil]
    split <;> (rw [Nat.pow_succ]; omega)

theorem testBit_sum (f : Nat → Bool) (n i : Nat) :
    ((List.range n).foldl (fun a i => if f i then a + 2 ^ i else a) 0).testBit i = (decide (i < n) && f i) := by
  induction n with
  | zero => simp
  | succ n ih =>
    rw [List.range_succ, List.foldl_append]
    simp only [List.foldl_cons, List.foldl_nil]
    have hlt := sum_pow_lt f n
    generalize (List.range n).foldl (fun a i => if f i then a + 2 ^ i else a) 0 = a at ih hlt ⊢
    by_cases hi : i = n
    · subst hi
      have ha : a.testBit i = false := Nat.testBit_lt_two_pow hlt
      by_cases hf : f i
      · simp [hf, Nat.add_comm a, Nat.testBit_two_pow_add_eq, ha]
      · simp [hf, ha]
    · have hle : (i < n + 1) = (i < n) := by simp; omega
      simp only [hle]
      rw [← ih]
      by_cases hf : f n
      · simp only [hf, if_true]
        rcases Nat.lt_or_gt_of_ne hi with h | h
        · rw [Nat.add_comm a, Nat.testBit_two_pow_add_gt h]
        · have h1 : (a + 2 ^ n).testBit i = false := by
            apply Nat.testBit_lt_two_pow
            have : 2 ^ (n + 1) ≤ 2 ^ i := Nat.pow_le_pow_right (by omega) h
            rw [Nat.pow_succ] at this
            omega
          have h2 : a.testBit i = false := by
            apply Nat.testBit_lt_two_pow
            exact Nat.lt_of_lt_of_le hlt (Nat.pow_le_pow_right (by omega) (by omega))
          rw [h1, h2]
      · simp [hf]

/-- A mask holds the positions that its test names. -/
@[simp] theorem getLsbD_maskOf (n : Nat) (f : Nat → Bool) (i : Nat) :
    (maskOf n f).getLsbD i = (decide (i < n) && f i) := by
  unfold maskOf
  rw [BitVec.getLsbD_ofNat, testBit_sum]
  by_cases h : i < n <;> simp [h]

theorem mem_maskBits {n : Nat} {m : BitVec n} {i : Nat} : i ∈ maskBits m ↔ i < n ∧ m.getLsbD i = true := by
  simp [maskBits]

/-! ### Words of lanes and quads -/

theorem nth_lanesOf (f : Nat → Word) {l : Nat} (h : l < 64) : nth (lanesOf f) l = f l := by
  simp [nth, lanesOf, List.getD_eq_getElem?_getD, h]

theorem nth_quadsOf (f : Nat → Word) {q : Nat} (h : q < 16) : nth (quadsOf f) q = f q := by
  simp [nth, quadsOf, List.getD_eq_getElem?_getD, h]

namespace Wave

/-! ### V -/

@[simp] theorem setV_p (w : Wave) (r : Nat) (m : LaneMask) (f : Nat → Word) : (w.setV r m f).p = w.p := rfl
@[simp] theorem setV_s (w : Wave) (r : Nat) (m : LaneMask) (f : Nat → Word) : (w.setV r m f).s = w.s := rfl
@[simp] theorem setV_parts (w : Wave) (r : Nat) (m : LaneMask) (f : Nat → Word) : (w.setV r m f).parts = w.parts := rfl

/-- A V register after a write: the lanes of the mask hold the new words, the others what they held. -/
theorem vreg_setV (w : Wave) (r r' : Nat) (m : LaneMask) (f : Nat → Word) {l : Nat} (hl : l < 64) :
    (w.setV r m f).vreg r' l = if m.getLsbD l ∧ r' = r then f l else w.vreg r' l := by
  unfold setV vreg
  simp only [Tbl.get_put]
  by_cases hr : r' = r
  · subst hr
    by_cases hm : m.getLsbD l <;> simp [nth_lanesOf _ hl, hm]
  · simp [hr]

@[simp] theorem putV_p (w : Wave) (r : Nat) (wide : Bool) (m : LaneMask) (f : Nat → Nat) : (w.putV r wide m f).p = w.p := by
  unfold putV; split <;> rfl
@[simp] theorem putV_s (w : Wave) (r : Nat) (wide : Bool) (m : LaneMask) (f : Nat → Nat) : (w.putV r wide m f).s = w.s := by
  unfold putV; split <;> rfl

theorem vreg_putV (w : Wave) (r r' : Nat) (wide : Bool) (m : LaneMask) (f : Nat → Nat) {l : Nat} (hl : l < 64) :
    (w.putV r wide m f).vreg r' l =
      if m.getLsbD l ∧ wide = true ∧ r' = r + 1 then BitVec.ofNat 32 (f l / 2 ^ 32)
      else if m.getLsbD l ∧ r' = r then BitVec.ofNat 32 (f l) else w.vreg r' l := by
  unfold putV
  cases wide
  · simp [vreg_setV _ _ _ _ _ hl]
  · simp only [if_true, vreg_setV _ _ _ _ _ hl, true_and]

/-! ### S -/

@[simp] theorem setS_p (w : Wave) (r : Nat) (m : QuadMask) (x : Word) : (w.setS r m x).p = w.p := rfl
@[simp] theorem setS_v (w : Wave) (r : Nat) (m : QuadMask) (x : Word) : (w.setS r m x).v = w.v := rfl

/-- An S register after a write: the copies of the quads of the mask hold the new word. -/
theorem sreg_setS (w : Wave) (r r' : Nat) (m : QuadMask) (x : Word) {q : Nat} (hq : q < 16) :
    (w.setS r m x).sreg r' q = if m.getLsbD q ∧ r' = r then x else w.sreg r' q := by
  unfold setS sreg
  simp only [Tbl.get_put]
  by_cases hr : r' = r
  · subst hr
    by_cases hm : m.getLsbD q <;> simp [nth_quadsOf _ hq, hm]
  · simp [hr]

@[simp] theorem putS_p (w : Wave) (r : Nat) (wide : Bool) (m : QuadMask) (v : Nat) : (w.putS r wide m v).p = w.p := by
  unfold putS; split <;> rfl
@[simp] theorem putS_v (w : Wave) (r : Nat) (wide : Bool) (m : QuadMask) (v : Nat) : (w.putS r wide m v).v = w.v := by
  unfold putS; split <;> rfl

theorem sreg_putS (w : Wave) (r r' : Nat) (wide : Bool) (m : QuadMask) (v : Nat) {q : Nat} (hq : q < 16) :
    (w.putS r wide m v).sreg r' q =
      if m.getLsbD q ∧ wide = true ∧ r' = r + 1 then BitVec.ofNat 32 (v / 2 ^ 32)
      else if m.getLsbD q ∧ r' = r then BitVec.ofNat 32 v else w.sreg r' q := by
  unfold putS
  cases wide
  · simp [sreg_setS _ _ _ _ _ hq]
  · simp only [if_true, sreg_setS _ _ _ _ _ hq, true_and]

/-! ### P -/

@[simp] theorem setP_v (w : Wave) (r : Nat) (m : LaneMask) (f : Nat → Bool) : (w.setP r m f).v = w.v := by
  unfold setP; split <;> rfl
@[simp] theorem setP_s (w : Wave) (r : Nat) (m : LaneMask) (f : Nat → Bool) : (w.setP r m f).s = w.s := by
  unfold setP; split <;> rfl

/-- A predicate after a write; P7 stays true. -/
theorem preg_setP (w : Wave) (r r' : Nat) (m : LaneMask) (f : Nat → Bool) {l : Nat} (hl : l < 64) :
    ((w.setP r m f).preg r').getLsbD l = if m.getLsbD l ∧ r' = r ∧ r' ≠ 7 then f l else (w.preg r').getLsbD l := by
  unfold setP preg
  by_cases h7 : r = 7
  · subst h7
    by_cases hr : r' = 7 <;> simp [hr]
  · simp only [h7, if_false, Tbl.get_put]
    by_cases hr : r' = r
    · subst hr
      rw [if_pos rfl, if_neg h7, if_neg h7, Option.getD_some, getLsbD_maskOf]
      by_cases hm : m.getLsbD l = true
      · simp only [hl, hm, h7, decide_true, Bool.true_and, if_true, ne_eq, not_false_eq_true, and_self]
      · simp only [hl, hm, decide_true, Bool.true_and, false_and, if_false, Bool.false_eq_true]
    · simp [hr]

end Wave

/-! ### Destinations -/

/-- What the result of a per-lane instruction leaves in the wave that it is written to. -/
theorem State.writeDst_wave (s : State) (o : Who) (d : Dst) (wide : Bool) (m : LaneMask) (f : Nat → Nat) (k : Nat) :
    (s.writeDst o d wide m f).waves.get k = if k = o.pr.wave then
      (s.waves.get k).map (fun w => match d.cls with
        | .v => w.putV d.num.toNat wide m f
        | .s => w.putS d.num.toNat wide o.p.quads (f (4 * lowQuad o.p.quads))
        | .p => w.setP d.num.toNat m fun l => f l != 0
        | _ => w) else s.waves.get k := by
  unfold State.writeDst
  rw [State.modWave_waves, Tbl.get_upd]
  split
  · rename_i h; subst h; rfl
  · rfl

end Sys2Proof.Machine
end

