-- ==== Sys2Proof/Laws/Issue.lean ====
section
/-! SUPPORT. What an issue comes to under the conditions of R52, and what its beginning and its end leave of the
registers. -/

namespace Sys2Proof.Machine

open Sys2Proof

/-! ### The checks of R52 -/

/-- Under its conditions the checks let the instruction go. -/
theorem Clear.verdict {s : State} {o : Who} {i : Instr} {sl : List Nat} (h : Clear s o i sl) : s.verdict o i sl = .go := by
  have h1 : illegalHere o i (headOf i) = false := by
    simp [illegalHere, h.counted, h.body]
  have h2 : ((headOf i).pneg && decide ((headOf i).pred = 7)) = false := by
    have := h.asked
    simpa using this
  have h3 : (i.control && !o.u.ctl) = false := by
    have := h.mode
    cases hc : i.control <;> simp_all
  have h4 : (i.width != 6 && decide (o.w.nquads < needQuads o.w i.width)) = false := by
    rcases h.wide with hw | hw
    · simp [hw]
    · simp [Nat.not_lt.mpr hw]
  have h5 : widthShort o i = none := by
    simp [widthShort, Nat.not_lt.mpr h.quads]
  have h6 : ((lineCounter o.p (headOf i).csel).bind fun n =>
      if (maskBits o.p.quads).any fun q => decide (63 ≤ s.count o.pr.wave n q) then some n else none) = none := by
    cases hn : lineCounter o.p (headOf i).csel with
    | none => rfl
    | some n =>
      have : ((maskBits o.p.quads).any fun q => decide (63 ≤ s.count o.pr.wave n q)) = false := by
        rw [List.any_eq_false]
        intro q hq
        have := h.room n q hn hq
        simp; omega
      rw [Option.bind_some, this]
      rfl
  have h7 : (heldByAcquire i && s.acquiring o) = false := by
    have := h.order
    cases hc : heldByAcquire i <;> simp_all
  unfold State.verdict
  simp only [h1, h2, h3, h4, h5, h6, h7, h.regs, h.ready, h.charge, h.log, h.unbroken, h.sound, Bool.false_eq_true, if_false]

/-- An instruction that R52's checks let go meets the conditions of `Clear`. -/
theorem Clear.of_verdict {s : State} {o : Who} {i : Instr} {sl : List Nat} (hw : s.who s.cur = some o)
    (h : s.verdict o i sl = .go) : Clear s o i sl := by
  unfold State.verdict at h
  simp only at h
  split at h
  · cases h
  rename_i h1
  split at h
  · cases h
  rename_i h2
  split at h
  · cases h
  rename_i h3
  split at h
  · cases h
  rename_i h4
  split at h
  · cases h
  rename_i h5
  split at h
  · cases h
  rename_i h6
  split at h
  · cases h
  rename_i h7
  split at h
  · cases h
  rename_i h8
  split at h
  · cases h
  rename_i h9
  split at h
  · cases h
  rename_i h10
  split at h
  · cases h
  rename_i h11
  split at h
  · cases h
  rename_i h12
  split at h
  · cases h
  rename_i h13
  have hr : maskCount o.p.quads < needQuads o.w i.width → False := by
    intro hc
    unfold widthShort at h6
    simp only [hc, if_true] at h6
    cases h6
  unfold illegalHere at h1
  simp only [Bool.or_eq_true, decide_eq_true_eq, not_or, Bool.not_eq_true] at h1
  refine ⟨hw, h1.1, h1.2, by simpa using h2, ?_, h4, ?_, by by_contra hc; exact hr (by omega), ?_, by simpa using h8, ?_, by simpa using h10, h11, h12, h13⟩
  · intro hc; simpa [hc] using h3
  · by_cases hx : i.width = 6
    · exact .inl hx
    · right; have : ¬ (o.w.nquads < needQuads o.w i.width) := by simpa [hx] using h5
      omega
  · intro n q hn hq
    rw [hn] at h7
    simp only [Option.bind_some] at h7
    split at h7
    · cases h7
    · rename_i hh
      simp only [List.any_eq_true, not_exists, not_and, decide_eq_true_eq] at hh
      have := hh q hq
      omega
  · intro hc; simpa [hc] using h9

namespace State

variable {α : Type}

/-- An issue that the checks let go, and whose own checks pass, has its effect. -/
theorem issueCut_go {s s' : State} {o : Who} {i : Instr} {slices : Who → State → List Nat}
    {check : Who → State → State × Option (QuadMask × FarInfo) × Except Stop α} {act : α → Who → State → State} {a : α}
    (h : Clear s o i (inRecord o (slices o s))) (hc : check o s = (s', none, .ok a)) :
    s.issueCut i slices check act = .next (act a o (s'.begin o i)) := by
  have hv : s.verdict o i (if o.u.mode = 2 then slices o s else []) = .go := h.verdict
  unfold issueCut
  simp only [h.issuer, hv, hc]

theorem issueWith_go {s s' : State} {o : Who} {i : Instr} {slices : Who → State → List Nat}
    {check : Who → State → State × Except Stop α} {act : α → Who → State → State} {a : α}
    (h : Clear s o i (inRecord o (slices o s))) (hc : check o s = (s', .ok a)) :
    s.issueWith i slices check act = .next (act a o (s'.begin o i)) :=
  issueCut_go h (by simp only [hc])

/-- An issue whose own checks find a trap, a far fault or a wait. -/
theorem issueWith_stop {s s' : State} {o : Who} {i : Instr} {slices : Who → State → List Nat}
    {check : Who → State → State × Except Stop α} {act : α → Who → State → State} {e : Stop}
    (h : Clear s o i (inRecord o (slices o s))) (hc : check o s = (s', .error e)) :
    s.issueWith i slices check act = .next (s'.stopAt o.pr e) := by
  have hv : s.verdict o i (if o.u.mode = 2 then slices o s else []) = .go := h.verdict
  unfold issueWith issueCut
  simp only [h.issuer, hv, hc]

theorem inRecord_nil (o : Who) : inRecord o [] = [] := by
  unfold inRecord; split <;> rfl

theorem issue_go {s : State} {o : Who} {i : Instr} {act : Who → State → State} (h : Clear s o i []) :
    s.issue i act = .next (act o (s.begin o i)) := by
  unfold issue
  exact issueWith_go (by rw [inRecord_nil]; exact h) rfl

theorem issueIf_go {s : State} {o : Who} {i : Instr} {check : Who → State → Option TrapInfo} {act : Who → State → State}
    (h : Clear s o i []) (hc : check o s = none) : s.issueIf i check act = .next (act o (s.begin o i)) := by
  unfold issueIf
  exact issueWith_go (s' := s) (a := ()) (by rw [inRecord_nil]; exact h) (by simp only [hc])

theorem issueIf_trap {s : State} {o : Who} {i : Instr} {check : Who → State → Option TrapInfo} {act : Who → State → State}
    {t : TrapInfo} (h : Clear s o i []) (hc : check o s = some t) : s.issueIf i check act = .next (s.takeTrap o.pr t) := by
  unfold issueIf
  exact issueWith_stop (e := .trap t) (by rw [inRecord_nil]; exact h) (by simp only [hc])

theorem perLane_go {s : State} {o : Who} {i : Instr} {x : AluOp} {wide : Bool} {f : State → Who → Nat → Nat}
    (h : Clear s o i []) : s.perLane i x wide f =
      .next (((s.begin o i).writeDst o x.dst wide (o.lanes x.h) (f (s.begin o i) o)).finish o i) := issue_go h

/-- Whatever the checks answer, an issue by a part that is there answers a next state. -/
theorem issueCut_next {s : State} {o : Who} {i : Instr} {slices : Who → State → List Nat}
    {check : Who → State → State × Option (QuadMask × FarInfo) × Except Stop α} {act : α → Who → State → State}
    (h : s.who s.cur = some o) : ∃ t, s.issueCut i slices check act = .next t := by
  unfold issueCut
  rw [h]
  dsimp only
  split
  · split
    · exact ⟨_, rfl⟩
    · exact ⟨_, rfl⟩
    · split
      · exact ⟨_, rfl⟩
      · split <;> exact ⟨_, rfl⟩
  all_goals exact ⟨_, rfl⟩

/-! ### Beginning -/

theorem begin_quiet (s : State) (o : Who) (i : Instr) : Quiet s (s.begin o i) := by
  unfold State.begin
  exact (((Quiet.modCore _ _ _).trans (Quiet.modPart _ _ _)).trans (Quiet.modCore _ _ _)).trans (Quiet.modPart _ _ _)

@[simp] theorem begin_mem (s : State) (o : Who) (i : Instr) : (s.begin o i).mem = s.mem := rfl
@[simp] theorem begin_groups (s : State) (o : Who) (i : Instr) : (s.begin o i).groups = s.groups := rfl
@[simp] theorem begin_units (s : State) (o : Who) (i : Instr) : (s.begin o i).units = s.units := rfl
@[simp] theorem begin_ops (s : State) (o : Who) (i : Instr) : (s.begin o i).ops = s.ops := rfl
@[simp] theorem begin_fresh (s : State) (o : Who) (i : Instr) : (s.begin o i).fresh = s.fresh := rfl
@[simp] theorem begin_time (s : State) (o : Who) (i : Instr) : (s.begin o i).time = s.time := rfl
@[simp] theorem begin_cur (s : State) (o : Who) (i : Instr) : (s.begin o i).cur = s.cur := rfl

theorem modPart_core (s : State) (pr : PartRef) (f : Part → Part) (k : Nat) : (s.modPart pr f).core k = s.core k := rfl

theorem modCore_core (s : State) (j : Nat) (f : Core → Core) (k : Nat) :
    (s.modCore j f).core k = if k = j then f (s.core k) else s.core k := by
  unfold State.core
  rw [modCore_cores, Tbl.get_put]
  by_cases h : k = j
  · subst h; simp [State.core]
  · simp [h]

theorem noteIssue_clk (s : State) (o : Who) (i : Instr) (c k : Nat) :
    ((s.noteIssue o i c).core k).clk = (s.core k).clk := by
  unfold State.noteIssue
  rw [modPart_core, modCore_core]
  split <;> rfl

/-- The SEQCLK of every core is as before. -/
@[simp] theorem begin_seqclk (s : State) (o : Who) (i : Instr) (k : Nat) : (s.begin o i).seqclk k = s.seqclk k := by
  have h : ((s.begin o i).core k).clk = (s.core k).clk := by
    unfold State.begin
    dsimp only
    rw [modPart_core, modCore_core]
    split
    · rename_i hk; subst hk; exact noteIssue_clk _ _ _ _ _
    · exact noteIssue_clk _ _ _ _ _
  unfold State.seqclk
  rw [h]
  rfl

/-- Operands read as they did before the issue. -/
@[simp] theorem begin_operand (s : State) (o : Who) (i : Instr) (k : Read) (abs : Bool) (x : Src) (l : Nat) :
    (s.begin o i).operand o k abs x l = s.operand o k abs x l := by
  unfold operand rawBits specialBits
  simp only [begin_seqclk]

@[simp] theorem begin_scalar (s : State) (o : Who) (i : Instr) (x : Src) (imm : Word) :
    (s.begin o i).scalar o x imm = s.scalar o x imm := by
  unfold scalar rawBits specialBits
  simp only [begin_seqclk]

@[simp] theorem begin_intOperand (s : State) (o : Who) (i : Instr) (t : Ty) (x : Src) (l : Nat) :
    (s.begin o i).intOperand o t x l = s.intOperand o t x l := by
  unfold intOperand
  rw [begin_operand]

@[simp] theorem begin_bitsOf (s : State) (o : Who) (i : Instr) (t : Ty) (x : Src) (l : Nat) :
    (s.begin o i).bitsOf o t x l = s.bitsOf o t x l := begin_operand _ _ _ _ _ _ _

@[simp] theorem begin_ctlOf (s : State) (o : Who) (i : Instr) (x : Src) (l : Nat) :
    (s.begin o i).ctlOf o x l = s.ctlOf o x l := begin_operand _ _ _ _ _ _ _

end State

/-! ### Registers -/

/-- The registers of a wave. -/
def Wave.regfile (w : Wave) : Tbl (List Word) × Tbl LaneMask × Tbl (List Word) := (w.v, w.p, w.s)

theorem Quiet.regfile {s t : State} (h : Quiet s t) (k : Nat) :
    (t.waves.get k).map Wave.regfile = (s.waves.get k).map Wave.regfile := by
  have := congrArg (Option.map Wave.regfile) (h.waves k)
  rw [Option.map_map, Option.map_map] at this
  exact this

namespace State

theorem settlePart_regfile (s : State) (pr : PartRef) (k : Nat) :
    ((s.settlePart pr).waves.get k).map Wave.regfile = (s.waves.get k).map Wave.regfile := by
  unfold settlePart
  rw [modWave_waves, Tbl.get_upd]
  split
  · rename_i h
    subst h
    cases s.waves.get pr.wave with
    | none => rfl
    | some w =>
      simp only [Option.map_some]
      congr 1
      split
      · rfl
      · split <;> rfl
  · rfl

theorem advance_regfile (s : State) (pr : PartRef) (k : Nat) :
    ((s.advance pr).waves.get k).map Wave.regfile = (s.waves.get k).map Wave.regfile :=
  (settlePart_regfile _ _ _).trans ((Quiet.modPart _ _ _).regfile k)

theorem addOp_regfile (s : State) (o : Who) (x : Op) (k : Nat) :
    ((s.addOp o x).waves.get k).map Wave.regfile = (s.waves.get k).map Wave.regfile :=
  (Quiet.modPart _ _ _).regfile k

theorem countDone_regfile (s : State) (o : Who) (i : Instr) (k : Nat) :
    ((s.countDone o i).waves.get k).map Wave.regfile = (s.waves.get k).map Wave.regfile := by
  unfold countDone
  split
  · rfl
  · exact addOp_regfile _ _ _ _

theorem landFaults_regfile (s : State) (x : Op) (gone : QuadMask) (k : Nat) :
    ((s.landFaults x gone).waves.get k).map Wave.regfile = (s.waves.get k).map Wave.regfile := by
  unfold landFaults
  rw [modWave_waves, Tbl.get_upd]
  split
  · rename_i h
    subst h
    cases s.waves.get x.wave <;> rfl
  · rfl

theorem landAll_regfile (s : State) (k : Nat) :
    (s.landAll.waves.get k).map Wave.regfile = (s.waves.get k).map Wave.regfile := by
  unfold landAll
  generalize retireFrom [] s.ops = after
  generalize (s.ops.filter fun x => !x.owed.isEmpty) = l
  dsimp only
  induction l generalizing s with
  | nil => rfl
  | cons x r ih =>
    rw [List.foldl_cons]
    refine (ih _).trans ?_
    split
    · rfl
    · exact landFaults_regfile _ _ _ _

theorem settle_regfile (s : State) (k : Nat) :
    (s.settle.waves.get k).map Wave.regfile = (s.waves.get k).map Wave.regfile :=
  (s.settle_quiet.regfile k).trans (landAll_regfile s k)

/-- The end of an instruction that is complete at issue changes no register. -/
theorem finish_regfile (s : State) (o : Who) (i : Instr) (k : Nat) :
    ((s.finish o i).waves.get k).map Wave.regfile = (s.waves.get k).map Wave.regfile :=
  ((settle_regfile _ _).trans (advance_regfile _ _ _)).trans (countDone_regfile _ _ _ _)

theorem jumpTo_regfile (s : State) (pr : PartRef) (pc : Dword) (check : Bool) (k : Nat) :
    ((s.jumpTo pr pc check).waves.get k).map Wave.regfile = (s.waves.get k).map Wave.regfile :=
  (settlePart_regfile _ _ _).trans ((Quiet.modPart _ _ _).regfile k)

end State

/-- The part that a reference names is a part of its wave. -/
theorem State.who_wave {s : State} {pr : PartRef} {o : Who} (h : s.who pr = some o) :
    o.pr = pr ∧ s.waves.get pr.wave = some o.w := by
  unfold State.who at h
  split at h
  · cases h
  · rename_i w hw
    split at h
    · split at h
      · cases h; exact ⟨rfl, hw⟩
      · cases h
    · cases h

/-- `Wrote` looks at registers only. -/
theorem Wrote.of_regfile {w w1 w2 : Wave} {d : Dst} {wide : Bool} {m : LaneMask} {qs : QuadMask} {f : Nat → Nat}
    (h : Wrote w w1 d wide m qs f) (e : w2.regfile = w1.regfile) : Wrote w w2 d wide m qs f := by
  have hv : w2.v = w1.v := congrArg (·.1) e
  have hp : w2.p = w1.p := congrArg (·.2.1) e
  have hs : w2.s = w1.s := congrArg (·.2.2) e
  unfold Wrote Wave.vreg Wave.sreg Wave.preg at *
  rw [hv, hp, hs]
  exact h

/-- The update of `State.writeDst` writes as `Wrote` says. -/
theorem wrote_dst (w : Wave) (d : Dst) (wide : Bool) (m : LaneMask) (qs : QuadMask) (f : Nat → Nat) :
    Wrote w (match d.cls with
      | .v => w.putV d.num.toNat wide m f
      | .s => w.putS d.num.toNat wide qs (f (4 * lowQuad qs))
      | .p => w.setP d.num.toNat m fun l => f l != 0
      | _ => w) d wide m qs f := by
  unfold Wrote
  cases d.cls
  · exact ⟨by simp, by simp, fun r l hl => Wave.vreg_putV _ _ _ _ _ _ hl⟩
  · exact ⟨by simp, by simp, fun r q hq => Wave.sreg_putS _ _ _ _ _ _ hq⟩
  · refine ⟨by simp, by simp, fun r l hl => ?_⟩
    simp only
    rw [Wave.preg_setP _ _ _ _ _ hl]
  · exact ⟨rfl, rfl, rfl⟩
  · exact ⟨rfl, rfl, rfl⟩

/-- A result written by `State.writeDst` and completed. -/
theorem laneResult_of_exec {s : State} {o : Who} {i : Instr} {h : Hdr} {d : Dst} {wide : Bool} {f : Nat → Nat}
    (hw : s.who s.cur = some o)
    (he : exec i s = .next (((s.begin o i).writeDst o d wide (o.lanes h) f).finish o i)) :
    LaneResult s o i h d wide f := by
  obtain ⟨hpr, hwave⟩ := State.who_wave hw
  rw [← hpr] at hwave
  have hb := (State.begin_quiet s o i).regfile o.pr.wave
  rw [hwave] at hb
  obtain ⟨w1, hw1, hr1⟩ := Option.map_eq_some_iff.mp hb
  have hd := State.writeDst_wave (s.begin o i) o d wide (o.lanes h) f o.pr.wave
  rw [if_pos rfl, hw1, Option.map_some] at hd
  have hf := State.finish_regfile ((s.begin o i).writeDst o d wide (o.lanes h) f) o i o.pr.wave
  rw [hd, Option.map_some] at hf
  obtain ⟨w2, hw2, hr2⟩ := Option.map_eq_some_iff.mp hf
  refine ⟨_, w2, he, hw2, ?_⟩
  have hwr := (wrote_dst w1 d wide (o.lanes h) o.p.quads f).of_regfile hr2
  have hv : w1.v = o.w.v := congrArg (·.1) hr1
  have hp : w1.p = o.w.p := congrArg (·.2.1) hr1
  have hs : w1.s = o.w.s := congrArg (·.2.2) hr1
  unfold Wrote Wave.vreg Wave.sreg Wave.preg at *
  rw [hv, hp, hs] at hwr
  exact hwr

end Sys2Proof.Machine
end

