-- ==== Sys2Proof/Laws/Results.lean ====
section
/-! SUPPORT. Operands of the families read as before the issue, and the results of instructions of one shape. -/

namespace Sys2Proof.Machine

open Sys2Proof

namespace State

@[simp] theorem begin_fltOperand (s : State) (o : Who) (i : Instr) (f : FloatFmt) (abs : Bool) (x : Src) (l : Nat) :
    (s.begin o i).fltOperand o f abs x l = s.fltOperand o f abs x l := by
  unfold fltOperand; rw [begin_operand]

@[simp] theorem begin_fltBits (s : State) (o : Who) (i : Instr) (f : FloatFmt) (abs : Bool) (x : Src) (l : Nat) :
    (s.begin o i).fltBits o f abs x l = s.fltBits o f abs x l := by
  unfold fltBits; rw [begin_operand]

@[simp] theorem begin_half (s : State) (o : Who) (i : Instr) (f : FloatFmt) (abs : Bool) (x : Src) (l h : Nat) :
    (s.begin o i).half o f abs x l h = s.half o f abs x l h := by
  unfold half; rw [begin_operand]

@[simp] theorem begin_dotByte (s : State) (o : Who) (i : Instr) (g : Bool) (x : Src) (l n : Nat) :
    (s.begin o i).dotByte o g x l n = s.dotByte o g x l n := by
  unfold dotByte; rw [begin_operand]

@[simp] theorem begin_xval (s : State) (o : Who) (i : Instr) (t : Ty) (x : Src) (l : Nat) :
    (s.begin o i).xval o t x l = s.xval o t x l := begin_operand _ _ _ _ _ _ _

@[simp] theorem begin_addcSum (s : State) (o : Who) (i : Instr) (x : AluOp) (l : Nat) :
    addcSum x (s.begin o i) o l = addcSum x s o l := by
  unfold addcSum; simp only [begin_bitsOf]

@[simp] theorem begin_cellIndex (s : State) (o : Who) (i : Instr) (x : Src) (l : Nat) :
    (s.begin o i).cellIndex o x l = s.cellIndex o x l := by
  unfold cellIndex; rw [begin_ctlOf]

@[simp] theorem begin_tritByte (s : State) (o : Who) (i : Instr) (x : EngOp) (l : Nat) :
    (s.begin o i).tritByte o x l = s.tritByte o x l := by
  unfold tritByte; simp only [begin_ctlOf]

end State

/-- Results that agree in every lane are one result. -/
theorem LaneResult.congr {s : State} {o : Who} {i : Instr} {h : Hdr} {d : Dst} {wide : Bool} {f g : Nat → Nat}
    (r : LaneResult s o i h d wide f) (e : ∀ l, f l = g l) : LaneResult s o i h d wide g := by
  have : f = g := funext e
  rw [← this]; exact r

/-- The result of a per-lane instruction (R81, R85). -/
theorem perLane_result {s : State} {o : Who} {i : Instr} {x : AluOp} {wide : Bool} {f : State → Who → Nat → Nat}
    {g : Nat → Nat} (h : Clear s o i []) (he : exec i s = s.perLane i x wide f) (e : ∀ l, f (s.begin o i) o l = g l) :
    LaneResult s o i x.h x.dst wide g :=
  (laneResult_of_exec h.issuer (he.trans (State.perLane_go h))).congr e

/-- The result of a cross-lane instruction (R96). -/
theorem crossLane_result {s : State} {o : Who} {i : Instr} {x : XlOp} {wide : Bool} {f : State → Who → Nat → Nat}
    {g : Nat → Nat} (h : Clear s o i []) (he : exec i s = s.crossLane i x wide f) (e : ∀ l, f (s.begin o i) o l = g l) :
    LaneResult s o i x.h x.dst wide g :=
  (laneResult_of_exec h.issuer (he.trans (State.issue_go h))).congr e

/-- A wave that begins an instruction has the registers it had. -/
theorem State.begin_regfile (s : State) (o : Who) (i : Instr) (k : Nat) :
    ((s.begin o i).waves.get k).map Wave.regfile = (s.waves.get k).map Wave.regfile := (State.begin_quiet s o i).regfile k

/-- A next state whose registers are those of the state before but for an S register or pair of the part. -/
theorem partResult_of_regfile {s s1 t : State} {o : Who} {i : Instr} {d : Dst} {wide : Bool} {v : Nat}
    (hw : s.who s.cur = some o) (he : exec i s = .next t)
    (h1 : (s1.waves.get o.pr.wave).map Wave.regfile = (s.waves.get o.pr.wave).map Wave.regfile)
    (ht : (t.waves.get o.pr.wave).map Wave.regfile =
      ((s1.modWave o.pr.wave fun w => w.putS d.num.toNat wide o.p.quads v).waves.get o.pr.wave).map Wave.regfile) :
    PartResult s o i d wide v := by
  obtain ⟨hpr, hwave⟩ := State.who_wave hw
  rw [← hpr] at hwave
  rw [hwave] at h1
  obtain ⟨w1, hw1, hr1⟩ := Option.map_eq_some_iff.mp h1
  rw [State.modWave_waves, Tbl.get_upd, if_pos rfl, hw1, Option.map_some, Option.map_some] at ht
  obtain ⟨w2, hw2, hr2⟩ := Option.map_eq_some_iff.mp ht
  refine ⟨_, w2, he, hw2, ?_⟩
  have hwr := (wrote_dst w1 (sDst d) wide 0 o.p.quads (fun _ => v)).of_regfile (w2 := w2) hr2
  have hv : w1.v = o.w.v := congrArg (·.1) hr1
  have hp : w1.p = o.w.p := congrArg (·.2.1) hr1
  have hs : w1.s = o.w.s := congrArg (·.2.2) hr1
  unfold Wrote Wave.vreg Wave.sreg Wave.preg at *
  rw [hv, hp, hs] at hwr
  exact hwr

/-- A result for the part in an S register. -/
theorem partResult_writeS {s s1 : State} {o : Who} {i : Instr} {d : Dst} {v : Nat} (hw : s.who s.cur = some o)
    (h1 : (s1.waves.get o.pr.wave).map Wave.regfile = (s.waves.get o.pr.wave).map Wave.regfile)
    (he : exec i s = .next ((s1.writeS o d v).finish o i)) : PartResult s o i d false v :=
  partResult_of_regfile hw he h1 (by rw [State.finish_regfile]; rfl)

/-- A result for the part in an S pair. -/
theorem partResult_writeSS {s s1 : State} {o : Who} {i : Instr} {d : Dst} {v : Nat} (hw : s.who s.cur = some o)
    (h1 : (s1.waves.get o.pr.wave).map Wave.regfile = (s.waves.get o.pr.wave).map Wave.regfile)
    (he : exec i s = .next ((s1.writeSS o d v).finish o i)) : PartResult s o i d true v :=
  partResult_of_regfile hw he h1 (by rw [State.finish_regfile]; rfl)

/-- Results of equal value are one result. -/
theorem PartResult.congr {s : State} {o : Who} {i : Instr} {d : Dst} {wide : Bool} {v u : Nat}
    (h : PartResult s o i d wide v) (e : v = u) : PartResult s o i d wide u := e ▸ h

end Sys2Proof.Machine
end

