-- ==== Sys2Proof/Laws/Launch.lean ====
section
/-! SUPPORT. Translation and requests leave operations, time and registers as they are; what enters the table at an issue
and is not complete stays there. -/

namespace Sys2Proof.Machine

open Sys2Proof

namespace State

/-! ### Translation -/

theorem walkAsks_quiet (s : State) (cluster asid va : Nat) : Quiet s (s.walkAsks cluster asid va) := by
  unfold walkAsks
  split
  · exact Quiet.foldl (fun s l => ask_quiet s _ _ _ l 8) _ _
  · exact Quiet.refl _

theorem lookup_quiet (s : State) (k asid va : Nat) : Quiet s (s.lookup k asid va).1 := by
  unfold lookup
  split
  · exact Quiet.refl _
  · split
    · dsimp only; exact Quiet.modCore _ _ _
    · have h := walk_quiet s asid va
      split
      · rename_i heq; rw [heq] at h; exact h.trans (walkAsks_quiet _ _ _ _)
      · rename_i heq
        rw [heq] at h
        dsimp only at h ⊢
        exact ((h.trans (walkAsks_quiet _ _ _ _)).trans (Quiet.modCluster _ _ _)).trans (Quiet.modCore _ _ _)

theorem translate_quiet (s : State) (k asid : Nat) (kind : XKind) (va : Dword) :
    Quiet s (s.translate k asid kind va).1 := by
  unfold translate
  simp only
  split
  · split <;> exact Quiet.refl _
  · split
    · exact Quiet.refl _
    · have h := lookup_quiet s k asid va.toNat
      split <;> (rename_i heq; rw [heq] at h; exact h)

theorem look_quiet (s : State) (k asid : Nat) (va : Dword) (acc log : Nat) : Quiet s (s.look k asid va acc log) := by
  unfold look
  split
  · exact Quiet.refl _
  · dsimp only
    have h := Quiet.modCore s k fun c => { c with looks := (s.core k).looks + 1 }
    split
    · exact h
    · split
      · exact h.trans (Quiet.setTrans _ _)
      · split
        · exact (h.trans (writeAt_quiet _ _ _)).trans (Quiet.setTrans _ _)
        · exact h.trans (Quiet.setTrans _ _)

theorem translateRuns_quiet (o : Who) (kind : XKind) (acc : Nat) (l : List Run) (s : State) (seen : List Nat) :
    Quiet s (s.translateRuns o kind acc seen l).1 := by
  induction l generalizing s seen with
  | nil => exact Quiet.refl _
  | cons r rest ih =>
    unfold translateRuns
    have h := translate_quiet s o.g.core o.asid kind r.va
    generalize s.translate o.g.core o.asid kind r.va = e at h ⊢
    dsimp only
    refine h.trans (Quiet.trans ?_ (ih _ _))
    split
    · exact Quiet.refl _
    · exact (look_quiet _ _ _ _ _ _).trans (Quiet.modPart _ _ _)

theorem fillTlbs_quiet (l : List Dword) (s : State) (k asid : Nat) : Quiet s (s.fillTlbs k asid l).1 := by
  induction l generalizing s with
  | nil => exact Quiet.refl _
  | cons va r ih =>
    unfold fillTlbs
    split
    · exact ih _
    · split
      · exact Quiet.refl _
      · have h := lookup_quiet s k asid va.toNat
        split
        · rename_i heq; rw [heq] at h; exact h.trans (ih _)
        · rename_i heq; rw [heq] at h; exact h.trans (ih _)

theorem settleRuns_fst (s : State) (o : Who) (acc : Nat) (data : Run → List Byte) (l : List Found) :
    (s.settleRuns o acc data l).1 = s := by
  unfold settleRuns
  simp only
  split
  · rfl
  · split
    · rfl
    · split
      · rfl
      · split <;> rfl

/-- The checks of an access leave the wave's registers, the operations and time. -/
theorem checkAccess_quiet (s : State) (o : Who) (r : Request) (data : Run → List Byte) :
    Quiet s (s.checkAccess o r data).1 := by
  unfold checkAccess
  split
  · exact Quiet.refl _
  · split
    · exact Quiet.refl _
    · have h := fillTlbs_quiet ((runsOf o r).map fun x => x.va) s o.g.core o.asid
      split
      · rename_i heq; rw [heq] at h; exact h
      · simp only
        rw [settleRuns_fst]
        exact translateRuns_quiet _ _ _ _ _ _

theorem engineRuns_quiet (s : State) (o : Who) (reads writes : List Run) : Quiet s (s.engineRuns o reads writes).1 := by
  unfold engineRuns
  simp only
  refine ((translateRuns_quiet o .read 3 reads s []).trans (translateRuns_quiet o .write 3 writes _
    ((s.translateRuns o .read 3 [] reads).2.map fun f => pageKey f.run f.res))).trans ?_
  split
  · exact Quiet.refl _
  · split
    · split <;> exact Quiet.refl _
    · split <;> exact Quiet.refl _

theorem engineMap_quiet (s : State) (o : Who) (reads writes : List Run) : Quiet s (s.engineMap o reads writes).1 := by
  unfold engineMap
  have h := fillTlbs_quiet ((reads ++ writes).map fun r => r.va) s o.g.core o.asid
  split
  · rename_i heq; rw [heq] at h; exact h
  · exact engineRuns_quiet _ _ _ _

/-! ### Requests -/

/-- A fold of steps that keep operations, waves and fresh numbers. -/
theorem foldl_keeps {β γ : Type} (g : State → γ) {f : State → β → State} (h : ∀ s b, g (f s b) = g s) (l : List β)
    (s : State) : g (l.foldl f s) = g s := by
  induction l generalizing s with
  | nil => rfl
  | cons b r ih => rw [List.foldl_cons, ih, h]

theorem inject_keeps (s : State) (p : Packet) : (s.inject p).ops = s.ops ∧ (s.inject p).waves = s.waves := by
  unfold inject
  dsimp only
  split <;> exact ⟨rfl, rfl⟩

theorem askBucket_keeps (s : State) (p : Packet) : (s.askBucket p).ops = s.ops ∧ (s.askBucket p).waves = s.waves := by
  unfold askBucket
  dsimp only
  split
  · exact inject_keeps _ _
  · exact ⟨rfl, rfl⟩

theorem account_keeps (s : State) (port cls flits back n : Nat) :
    (s.account port cls flits back n).ops = s.ops ∧ (s.account port cls flits back n).waves = s.waves := by
  unfold account
  split
  · exact ⟨rfl, rfl⟩
  · exact ⟨foldl_keeps State.ops (fun _ _ => (askBucket_keeps _ _).1) _ _,
      foldl_keeps State.waves (fun _ _ => (askBucket_keeps _ _).2) _ _⟩

theorem request_keeps (s : State) (id port cls : Nat) (write lines : Bool) (l : List Loc) :
    (s.request id port cls write lines l).ops = s.ops ∧ (s.request id port cls write lines l).waves = s.waves := by
  unfold request
  constructor
  · refine foldl_keeps State.ops (fun s e => ?_) _ _
    split
    · exact (askBucket_keeps _ _).1
    · exact (account_keeps _ _ _ _ _ _).1
  · refine foldl_keeps State.waves (fun s e => ?_) _ _
    split
    · exact (askBucket_keeps _ _).2
    · exact (account_keeps _ _ _ _ _ _).2

@[simp] theorem sendRequests_ops (s : State) (o : Who) (x : Op) (load : Bool) (space : Nat) :
    (s.sendRequests o x load space).ops = s.ops := (request_keeps _ _ _ _ _ _ _).1

@[simp] theorem sendRequests_waves (s : State) (o : Who) (x : Op) (load : Bool) (space : Nat) :
    (s.sendRequests o x load space).waves = s.waves := (request_keeps _ _ _ _ _ _ _).2

@[simp] theorem sendPieces_ops (s : State) (o : Who) (x : Op) (r w : List Piece) :
    (s.sendPieces o x r w).ops = s.ops := (sendRequests_ops _ _ _ _ _).trans (sendRequests_ops _ _ _ _ _)

@[simp] theorem sendPieces_waves (s : State) (o : Who) (x : Op) (r w : List Piece) :
    (s.sendPieces o x r w).waves = s.waves := (sendRequests_waves _ _ _ _ _).trans (sendRequests_waves _ _ _ _ _)

@[simp] theorem recallLines_ops (s : State) (l : List Piece) : (s.recallLines l).ops = s.ops :=
  foldl_keeps State.ops (fun s b => by split <;> rfl) _ _

@[simp] theorem recallLines_waves (s : State) (l : List Piece) : (s.recallLines l).waves = s.waves :=
  foldl_keeps State.waves (fun s b => by split <;> rfl) _ _

@[simp] theorem recallFor_ops (s : State) (x : Op) : (s.recallFor x).ops = s.ops := by
  unfold recallFor; split <;> simp

@[simp] theorem recallFor_waves (s : State) (x : Op) : (s.recallFor x).waves = s.waves := by
  unfold recallFor; split <;> simp

@[simp] theorem advance_ops (s : State) (pr : PartRef) : (s.advance pr).ops = s.ops := rfl
@[simp] theorem addOp_ops (s : State) (o : Who) (x : Op) : (s.addOp o x).ops = s.ops ++ [{ x with start := s.time }] := rfl

end State

/-! ### Operations that are not complete -/

/-- Retirement keeps what is not complete. -/
theorem mem_retireFrom {y : Op} (hd : y.done = false) (l : List Op) (b : List (Nat × Nat × QuadMask)) (h : y ∈ l) :
    y ∈ retireFrom b l := by
  induction l generalizing b with
  | nil => cases h
  | cons x r ih =>
    unfold retireFrom
    rcases List.mem_cons.mp h with rfl | h
    · split
      · simp [hd]
      · simp only [hd, Bool.false_and, Bool.false_eq_true, if_false]
        refine List.mem_cons.mpr (.inl ?_)
        cases y
        cases hd
        rfl
    · split
      · split
        · exact ih _ h
        · exact List.mem_cons_of_mem _ (ih _ h)
      · dsimp only
        split <;> split <;> first | exact ih _ h | exact List.mem_cons_of_mem _ (ih _ h)

/-- What becomes pending changes no operation. -/
@[simp] theorem State.landAll_ops (s : State) : s.landAll.ops = s.ops :=
  foldl_keeps State.ops (fun s x => by dsimp only; split <;> rfl) _ _

theorem State.mem_settle {s : State} {y : Op} (hd : y.done = false) (h : y ∈ s.ops) : y ∈ s.settle.ops := by
  rw [s.settle_quiet.ops]
  exact mem_retireFrom hd _ _ (by rw [State.landAll_ops]; exact h)

/-- The issue of an operation: the table before the part goes on holds it and its counted entry. -/
theorem launches_of {s u : State} {o : Who} {i : Instr} {kind : OpKind} {P : Op → Prop} {R : Wave → Prop} {y : Op}
    {w : Wave} (he : exec i s = .next ((u.advance o.pr).settle)) (hy : y ∈ u.ops) (hp : P y) (hk : y.kind = kind)
    (hw : y.wave = o.pr.wave) (hpt : y.part = o.pr.part) (ha : y.all = o.p.quads) (hpc : y.pc = o.p.pc)
    (hd : y.done = false) (hu : (u.waves.get o.pr.wave).map Wave.regfile = some w.regfile)
    (hR : ∀ v : Wave, v.regfile = w.regfile → R v)
    (hc : ∀ n, lineCounter o.p (headOf i).csel = some n →
      ∃ z ∈ u.ops, z.wave = o.pr.wave ∧ z.ctr = some n ∧ z.quads = o.p.quads ∧ z.done = false ∧
        s.fresh ≤ z.id) :
    Launches s o i kind P R := by
  have hr : (((u.advance o.pr).settle).waves.get o.pr.wave).map Wave.regfile = some w.regfile := by
    rw [State.settle_regfile, State.advance_regfile, hu]
  obtain ⟨v, hv, hvr⟩ := Option.map_eq_some_iff.mp hr
  refine ⟨_, v, y, he, State.mem_settle hd hy, hp, hk, hw, hpt, ha, hpc, hd, hv, hR v hvr, fun n hn => ?_⟩
  obtain ⟨z, hz, h1, h2, h3, h4, h5⟩ := hc n hn
  exact ⟨z, State.mem_settle h4 hz, h1, h2, h3, h4, h5⟩

/-- The registers of a state that comes of a quiet one by the beginning of an instruction. -/
theorem launch_regs {s s' : State} {o : Who} (i : Instr) (hw : s.who s.cur = some o) (h : Quiet s s') :
    ((s'.begin o i).waves.get o.pr.wave).map Wave.regfile = some o.w.regfile := by
  obtain ⟨hpr, hwave⟩ := State.who_wave hw
  rw [State.begin_regfile, h.regfile, hpr, hwave]
  rfl

/-- A wave with the registers that the part's wave had. -/
theorem Kept.of_regfile {o : Who} {v : Wave} (h : v.regfile = o.w.regfile) : Kept o v :=
  ⟨congrArg (·.1) h, congrArg (·.2.1) h, congrArg (·.2.2) h⟩

/-- The issue of an operation of the normal path. -/
theorem launchOp_of {s u : State} {o : Who} {i : Instr} {y : Op} {load : Bool} {kind : OpKind} {P : Op → Prop}
    (hr : (u.waves.get o.pr.wave).map Wave.regfile = some o.w.regfile) (hf : s.fresh ≤ y.id)
    (he : exec i s = .next (u.launchOp o y load)) (hp : P { y with start := u.time }) (hk : y.kind = kind)
    (h1 : y.wave = o.pr.wave) (h2 : y.part = o.pr.part) (h3 : y.all = o.p.quads) (h4 : y.pc = o.p.pc)
    (h5 : y.done = false) (h6 : y.quads = o.p.quads) (h7 : y.ctr = lineCounter o.p (headOf i).csel) :
    Launches s o i kind P (Kept o) := by
  refine launches_of (y := { y with start := u.time }) (w := o.w) he (by simp) hp hk h1 h2 h3 h4 h5 ?_
    (fun _ => Kept.of_regfile) ?_
  · rw [State.recallFor_waves, State.sendRequests_waves, State.addOp_regfile, hr]
  · intro n hn
    exact ⟨{ y with start := u.time }, by simp, h1, h7.trans hn, h6, h5, hf⟩

/-- The issue of an engine operation that counts until it completes. -/
theorem launchEngine_of {s u : State} {o : Who} {i : Instr} {y : Op} {kind : OpKind} {P : Op → Prop}
    (hr : (u.waves.get o.pr.wave).map Wave.regfile = some o.w.regfile) (hf : s.fresh ≤ y.id)
    (he : exec i s = .next (u.launchEngine o y)) (hp : P { y with start := u.time }) (hk : y.kind = kind)
    (h1 : y.wave = o.pr.wave) (h2 : y.part = o.pr.part) (h3 : y.all = o.p.quads) (h4 : y.pc = o.p.pc)
    (h5 : y.done = false) (h6 : y.quads = o.p.quads) (h7 : y.ctr = lineCounter o.p (headOf i).csel) :
    Launches s o i kind P (Kept o) := by
  unfold State.launchEngine at he
  refine launches_of (y := { y with start := u.time }) (w := o.w) he ?_ hp hk h1 h2 h3 h4 h5 ?_
    (fun _ => Kept.of_regfile) ?_
  · split <;> simp
  · split
    · rw [State.addOp_regfile, hr]
    · rw [State.sendPieces_waves, State.addOp_regfile, hr]
  · intro n hn
    refine ⟨{ y with start := u.time }, ?_, h1, h7.trans hn, h6, h5, hf⟩
    split <;> simp

end Sys2Proof.Machine
end

