-- ==== Sys2Proof/Laws/Memory.lean ====
section
/-! SUPPORT. The bytes of every space: read after write, and the canonical form that every operation over memory keeps. -/

namespace Sys2Proof.Machine

open Sys2Proof

/-! ### Locations -/

theorem Loc.add_inj {l : Loc} {i j : Nat} (h : l.add i = l.add j) : i = j := by
  cases l <;> simp only [Loc.add] at h <;> injection h <;> omega

@[simp] theorem Loc.add_zero (l : Loc) : l.add 0 = l := by cases l <;> rfl

theorem Loc.add_add (l : Loc) (i j : Nat) : (l.add i).add j = l.add (i + j) := by
  cases l <;> simp [Loc.add, Nat.add_assoc]

/-- A location whose bytes are there to be written: not control space, and of a group that exists. -/
def Loc.plain (s : State) : Loc → Prop
  | .ctrl _ => False
  | .ls g _ => (s.groups.get g).isSome = true
  | _ => True

/-- The bytes of two states agree. -/
theorem State.byteAt_congr {s t : State} (h : t.mem.gddr = s.mem.gddr ∧ t.mem.l2 = s.mem.l2 ∧ t.mem.host = s.mem.host ∧
    t.mem.peer = s.mem.peer ∧ t.mem.ws = s.mem.ws ∧ t.mem.vague = s.mem.vague) (hg : t.groups = s.groups) (l : Loc) :
    t.byteAt l = s.byteAt l := by
  obtain ⟨h1, h2, h3, h4, h5, h6⟩ := h
  cases l <;> simp [State.byteAt, Store.devByte, h1, h2, h3, h4, h5, h6, hg]

theorem State.byteAt_of_mem {s t : State} (h : t.mem = s.mem) (hg : t.groups = s.groups) (l : Loc) :
    t.byteAt l = s.byteAt l := by
  cases l <;> simp [State.byteAt, h, hg]

/-! ### Read after write -/

/-- A byte of a run of `n` bytes at a location, by number. -/
theorem Loc.of_same {l m : Loc} (h : ∃ i, l.add i = m) : ∃ i, m = l.add i := by
  obtain ⟨i, rfl⟩ := h
  exact ⟨i, rfl⟩

/-- READ AFTER WRITE: the byte written reads as written. -/
theorem State.byteAt_setBytes_same (s : State) (l : Loc) (d : List Byte) (hp : l.plain s) {i : Nat} (hi : i < d.length) :
    (s.setBytes l d).byteAt (l.add i) = d.getD i 0 := by
  unfold State.setBytes
  generalize hs : (if s.mem.bad.isEmpty then s else { s with mem := { s.mem with bad := s.mem.bad.filter fun x =>
    !((List.range d.length).any fun i => l.add i == x) } }) = t
  have hg : t.groups = s.groups := by rw [← hs]; split <;> rfl
  cases l with
  | dev a =>
    simp [State.byteAt, Loc.add, Store.devByte, Tbl.get_putRun, hi, List.getD]
  | host a => simp [State.byteAt, Loc.add, Memory.byte_store, hi]
  | peer k a => simp [State.byteAt, Loc.add, Memory.byte_store, hi]
  | ctrl a => exact hp.elim
  | ls g a =>
    obtain ⟨gr, hgr⟩ := Option.isSome_iff_exists.mp hp
    simp [State.byteAt, Loc.add, State.modGroup, hg, hgr, Memory.byte_store, hi]
  | ws k a => simp [State.byteAt, Loc.add, Memory.byte_store, hi]

/-- Every byte that is not written reads as before. -/
theorem State.byteAt_setBytes_other (s : State) (l : Loc) (d : List Byte) (m : Loc) (h : ∀ i, i < d.length → l.add i ≠ m) :
    (s.setBytes l d).byteAt m = s.byteAt m := by
  unfold State.setBytes
  generalize hs : (if s.mem.bad.isEmpty then s else { s with mem := { s.mem with bad := s.mem.bad.filter fun x =>
    !((List.range d.length).any fun i => l.add i == x) } }) = t
  have hb : ∀ m, t.byteAt m = s.byteAt m := by
    intro m
    rw [← hs]
    split
    · rfl
    · exact State.byteAt_congr ⟨rfl, rfl, rfl, rfl, rfl, rfl⟩ rfl m
  rw [← hb m]
  have off : ∀ a b : Nat, (∀ i, i < d.length → a + i ≠ b) → ¬(a ≤ b ∧ b < a + d.length) := by
    intro a b h c
    exact h (b - a) (by omega) (by omega)
  cases l with
  | dev a =>
    cases m <;> try rfl
    rename_i b
    have := off a b fun i hi e => h i hi (by simp [Loc.add, e])
    simp [State.byteAt, Store.devByte, Tbl.get_putRun, this]
  | host a =>
    cases m <;> try rfl
    rename_i b
    have := off a b fun i hi e => h i hi (by simp [Loc.add, e])
    simp [State.byteAt, Memory.byte_store, this]
  | peer k a =>
    cases m <;> try rfl
    rename_i j b
    simp only [State.byteAt]
    by_cases hj : j = k
    · subst hj
      have := off a b fun i hi e => h i hi (by simp [Loc.add, e])
      simp [Memory.byte_store, this]
    · rw [Tbl.get_put_other _ _ hj]
  | ctrl a => rfl
  | ls g a =>
    cases m <;> try rfl
    rename_i j b
    simp only [State.byteAt, State.modGroup]
    by_cases hj : j = g
    · subst hj
      have := off a b fun i hi e => h i hi (by simp [Loc.add, e])
      rw [Tbl.get_upd_same]
      cases t.groups.get j with
      | none => rfl
      | some gr => simp [Memory.byte_store, this]
    · rw [Tbl.get_upd_other _ _ hj]
  | ws k a =>
    cases m <;> try rfl
    rename_i j b
    simp only [State.byteAt]
    by_cases hj : j = k
    · subst hj
      have := off a b fun i hi e => h i hi (by simp [Loc.add, e])
      simp [Memory.byte_store, this]
    · rw [Tbl.get_put_other _ _ hj]

/-! ### The canonical form -/

theorem Store.canonical_iff (m : Store) : m.canonical = true ↔
    m.gddr.wf = true ∧ Tbl.rising m.l2 = true ∧ m.host.wf = true ∧ m.flash.wf = true ∧ Tbl.rising m.peer = true ∧
    (∀ e ∈ m.peer, Memory.wf e.2 = true) ∧ Tbl.rising m.ws = true ∧ (∀ e ∈ m.ws, Memory.wf e.2 = true) := by
  simp [Store.canonical, and_assoc]

theorem Tbl.mem_put {α : Type} {t : Tbl α} {k : Nat} {v : α} {e : Nat × α} (h : e ∈ t.put k v) : e = (k, v) ∨ e ∈ t := by
  induction t with
  | nil => simpa [Tbl.put] using h
  | cons f r ih =>
    obtain ⟨j, w⟩ := f
    unfold Tbl.put at h
    split at h
    · simpa using h
    · split at h
      · rcases List.mem_cons.mp h with h | h
        · exact .inl h
        · exact .inr (by simp [h])
      · rcases List.mem_cons.mp h with h | h
        · exact .inr (by simp [h])
        · rcases ih h with h | h
          · exact .inl h
          · exact .inr (by simp [h])

theorem Tbl.mem_of_get {α : Type} {t : Tbl α} {k : Nat} {v : α} (h : t.get k = some v) : (k, v) ∈ t := by
  induction t with
  | nil => simp at h
  | cons f r ih =>
    obtain ⟨j, w⟩ := f
    rw [Tbl.get_cons] at h
    split at h
    · simp_all
    · simp [ih h]

/-- A memory of a table that is canonical, with bytes stored into it. -/
theorem wf_store_of {t : Tbl Memory} (h : ∀ e ∈ t, Memory.wf e.2 = true) (k a : Nat) (d : List Byte) :
    ∀ e ∈ t.put k (((t.get k).getD []).store a d), Memory.wf e.2 = true := by
  intro e he
  rcases Tbl.mem_put he with rfl | he
  · cases hk : t.get k with
    | none => exact Memory.wf_store a d rfl
    | some m => exact Memory.wf_store a d (h _ (Tbl.mem_of_get hk))
  · exact h e he

/-- A write keeps memory canonical. -/
theorem State.canonical_setBytes {s : State} (h : s.mem.canonical = true) (l : Loc) (d : List Byte) :
    (s.setBytes l d).mem.canonical = true := by
  unfold State.setBytes
  generalize hs : (if s.mem.bad.isEmpty then s else { s with mem := { s.mem with bad := s.mem.bad.filter fun x =>
    !((List.range d.length).any fun i => l.add i == x) } }) = t
  have ht : t.mem.canonical = true := by
    rw [← hs]
    split
    · exact h
    · rw [Store.canonical_iff] at h ⊢
      exact h
  clear hs h s
  have h' := ht
  rw [Store.canonical_iff] at ht
  obtain ⟨h1, h2, h3, h4, h5, h6, h7, h8⟩ := ht
  cases l with
  | dev a => exact (Store.canonical_iff _).mpr ⟨h1, Tbl.rising_putRun a d h2, h3, h4, h5, h6, h7, h8⟩
  | host a => exact (Store.canonical_iff _).mpr ⟨h1, h2, Memory.wf_store a d h3, h4, h5, h6, h7, h8⟩
  | peer k a => exact (Store.canonical_iff _).mpr ⟨h1, h2, h3, h4, Tbl.rising_put _ _ h5, wf_store_of h6 k a d, h7, h8⟩
  | ctrl a => exact h'
  | ls g a => exact h'
  | ws k a => exact (Store.canonical_iff _).mpr ⟨h1, h2, h3, h4, h5, h6, Tbl.rising_put _ _ h7, wf_store_of h8 k a d⟩

/-- A write keeps the local store of every group canonical. -/
theorem State.wf_ls_setBytes {s : State} (h : ∀ e ∈ s.groups, e.2.ls.wf = true) (l : Loc) (d : List Byte) :
    ∀ e ∈ (s.setBytes l d).groups, e.2.ls.wf = true := by
  unfold State.setBytes
  generalize hs : (if s.mem.bad.isEmpty then s else { s with mem := { s.mem with bad := s.mem.bad.filter fun x =>
    !((List.range d.length).any fun i => l.add i == x) } }) = t
  have ht : ∀ e ∈ t.groups, e.2.ls.wf = true := by
    rw [← hs]
    split <;> exact h
  cases l with
  | ls g a =>
    intro e he
    simp only [State.modGroup, Tbl.upd] at he
    split at he
    · exact ht e he
    · rename_i v hv
      rcases Tbl.mem_put he with rfl | he
      · exact Memory.wf_store a d (ht _ (Tbl.mem_of_get hv))
      · exact ht e he
  | _ => exact ht

/-- Dirty bytes that go to GDDR7 leave memory canonical. -/
theorem State.canonical_writeBack {s : State} (h : s.mem.canonical = true) (a n : Nat) :
    (s.writeBack a n).mem.canonical = true := by
  rw [Store.canonical_iff] at h ⊢
  obtain ⟨h1, h2, h3⟩ := h
  have hf : ∀ (l : List (Nat × Byte)) (m : Memory), m.wf = true →
      (l.foldl (fun m e => Memory.store m e.1 [e.2]) m).wf = true := by
    intro l
    induction l with
    | nil => exact fun m h => h
    | cons e r ih => exact fun m h => ih _ (Memory.wf_store _ _ h)
  exact ⟨hf _ _ h1, Tbl.rising_filter _ h2, h3⟩

/-- An area that loses its layout leaves memory canonical. -/
theorem State.canonical_blur {s : State} (h : s.mem.canonical = true) (a n : Nat) : (s.blur a n).mem.canonical = true := by
  rw [Store.canonical_iff] at h ⊢
  exact ⟨h.1, Tbl.rising_filter _ h.2.1, h.2.2⟩

@[simp] theorem State.modSlice_canonical (s : State) (k : Nat) (f : Slice → Slice) :
    (s.modSlice k f).mem.canonical = s.mem.canonical := rfl

theorem State.dropFixed_mem (s : State) (l : Loc) : (s.dropFixed l).mem = s.mem := by
  unfold State.dropFixed
  split <;> rfl

/-- A fold of steps that leave memory canonical. -/
theorem State.canonical_foldl {β : Type} {f : State → β → State}
    (hf : ∀ s b, s.mem.canonical = true → (f s b).mem.canonical = true) (l : List β) {s : State}
    (h : s.mem.canonical = true) : (l.foldl f s).mem.canonical = true := by
  induction l generalizing s with
  | nil => exact h
  | cons b r ih => exact ih (hf s b h)

theorem State.canonical_resolveFixed {s : State} (h : s.mem.canonical = true) (l : Loc) :
    (s.resolveFixed l).mem.canonical = true := by
  unfold State.resolveFixed
  split
  · exact h
  · have h1 : (s.dropFixed l).mem.canonical = true := by rw [State.dropFixed_mem]; exact h
    dsimp only
    split
    · exact State.canonical_setBytes h1 _ _
    · refine State.canonical_foldl (fun s b hs => ?_) _ h1
      split
      · exact hs
      · exact State.canonical_setBytes hs _ _

theorem State.canonical_settleFixed {s : State} (h : s.mem.canonical = true) (l : Loc) (n : Nat) :
    (s.settleFixed l n).mem.canonical = true :=
  State.canonical_foldl (fun _ _ hs => State.canonical_resolveFixed hs _) _ h

theorem State.canonical_readAt {s : State} (h : s.mem.canonical = true) (l : Loc) (n : Nat) :
    (s.readAt l n).1.mem.canonical = true := State.canonical_settleFixed h l n

theorem State.canonical_writeAt {s : State} (h : s.mem.canonical = true) (l : Loc) (d : List Byte) :
    (s.writeAt l d).mem.canonical = true := State.canonical_setBytes (State.canonical_settleFixed h l _) l d

/-- A line that leaves L2 leaves memory canonical. -/
theorem State.canonical_dropSliceLine {s : State} (h : s.mem.canonical = true) (a : Nat) :
    (s.dropSliceLine a).mem.canonical = true := by
  unfold State.dropSliceLine
  rw [State.modSlice_canonical]
  exact State.canonical_writeBack h _ _

/-- What is asked of the network leaves memory as it is. -/
theorem State.askBucket_mem (s : State) (p : Packet) : (s.askBucket p).mem = s.mem := by
  unfold State.askBucket State.inject
  dsimp only
  split
  · split <;> rfl
  · rfl

theorem State.ioAsk_mem (s : State) : s.ioAsk.mem = s.mem := by
  unfold State.ioAsk State.account
  split
  · rfl
  · simp only [List.range_one, List.foldl_cons, List.foldl_nil]
    exact State.askBucket_mem _ _

/-- What comes from outside leaves memory canonical. -/
theorem State.canonical_outside {s : State} (h : s.mem.canonical = true) (e : Ext) :
    (s.outside e).mem.canonical = true := by
  have h' := h
  rw [Store.canonical_iff] at h
  obtain ⟨h1, h2, h3, h4, h5, h6, h7, h8⟩ := h
  cases e with
  | host a d => exact (Store.canonical_iff _).mpr ⟨h1, h2, Memory.wf_store a d h3, h4, h5, h6, h7, h8⟩
  | peer k a d =>
    obtain ⟨g1, g2, g3, g4, g5, g6, g7, g8⟩ :=
      (Store.canonical_iff _).mp (State.canonical_settleFixed h' (.peer k a) d.length)
    exact (Store.canonical_iff _).mpr ⟨g1, g2, g3, g4, Tbl.rising_put _ _ g5, wf_store_of g6 k a d, g7, g8⟩
  | flash a d => exact (Store.canonical_iff _).mpr ⟨h1, h2, h3, Memory.wf_store a d h4, h5, h6, h7, h8⟩
  | bad l =>
    rw [Store.canonical_iff]
    exact ⟨h1, h2, h3, h4, h5, h6, h7, h8⟩
  | badAcc g k => exact h'
  | badTacc g k => exact h'
  | l2 line =>
    show (if !s.heat.powered || s.lineStays line then s else s.dropSliceLine (128 * line)).mem.canonical = true
    split
    · exact h'
    · exact State.canonical_dropSliceLine h' _
  | hdm k base size =>
    show (s.setDecoder k base size).mem.canonical = true
    unfold State.setDecoder
    dsimp only
    split <;> exact h'
  | bar0 off len =>
    show (s.readBar0 off len).mem.canonical = true
    unfold State.readBar0
    split
    · exact h'
    · show s.ioAsk.mem.canonical = true
      rw [State.ioAsk_mem]; exact h'
  | bar2 off len =>
    show (s.readBar2 off len).mem.canonical = true
    unfold State.readBar2
    dsimp only
    split
    · exact h'
    · show s.ioAsk.mem.canonical = true
      rw [State.ioAsk_mem]; exact h'
  | cdat e =>
    show (s.readCdat e).mem.canonical = true
    unfold State.readCdat
    split <;> exact h'

/-- A cold reset leaves memory canonical. -/
theorem State.canonical_coldStart {s : State} (h : s.mem.canonical = true) : s.coldStart.mem.canonical = true := by
  rw [Store.canonical_iff] at h ⊢
  obtain ⟨h1, _, h3, h4, h5, h6, h7, h8⟩ := h
  exact ⟨h1, rfl, h3, h4, h5, h6, h7, h8⟩

/-- A warm reset leaves memory canonical. -/
theorem State.canonical_warmStart {s : State} (h : s.mem.canonical = true) (kind : BitVec 4) (written : List Nat) :
    (s.warmStart kind written).mem.canonical = true := by
  have hf : ∀ (l : List Nat) (s : State), s.mem.canonical = true →
      (l.foldl (fun s l => s.writeBack (128 * l) 128) s).mem.canonical = true := by
    intro l
    induction l with
    | nil => exact fun s h => h
    | cons a r ih => exact fun s h => ih _ (State.canonical_writeBack h _ _)
  have := hf written s h
  rw [Store.canonical_iff] at this ⊢
  exact ⟨this.1, rfl, this.2.2⟩

/-- Reset memory is canonical. -/
theorem State.canonical_reset : State.reset.mem.canonical = true := by decide

end Sys2Proof.Machine
end

