-- ==== Sys2Proof/Laws/Stores.lean ====
section
/-! SUPPORT. What the pieces of a store do to memory, and what they leave (R182, R218, R219). -/

namespace Sys2Proof.Machine

open Sys2Proof

/-- What a store's pieces leave: which groups exist, the waves, the operations, and that no fixed-order sector is pending. -/
structure Same (s t : State) : Prop where
  groups : ∀ k, (t.groups.get k).isSome = (s.groups.get k).isSome
  waves : t.waves = s.waves
  fixed : (∀ k, (s.slice k).fixed = []) → ∀ k, (t.slice k).fixed = []
  link : t.link = s.link
  ops : t.ops = s.ops

theorem Same.trans {s t u : State} (h : Same s t) (g : Same t u) : Same s u :=
  ⟨fun k => (g.groups k).trans (h.groups k), g.waves.trans h.waves, fun a => g.fixed (h.fixed a), g.link.trans h.link, g.ops.trans h.ops⟩

theorem slice_modSlice (s : State) (k j : Nat) (f : Slice → Slice) : (s.modSlice k f).slice j =
    if j = k then f (s.slice k) else s.slice j := by
  unfold State.modSlice State.slice
  simp only [Tbl.get_put]
  split <;> rfl

theorem same_modCore (s : State) (k : Nat) (f : Core → Core) : Same s (s.modCore k f) :=
  ⟨fun _ => rfl, rfl, fun h => h, rfl, rfl⟩
theorem same_modSlice (s : State) (k : Nat) (f : Slice → Slice) (h : ∀ x, (f x).fixed = x.fixed) :
    Same s (s.modSlice k f) :=
  ⟨fun _ => rfl, rfl, fun hh j => by rw [slice_modSlice]; split; rw [h, hh]; exact hh j, rfl, rfl⟩
theorem same_carry (s : State) (a : Nat) (g : Sig × Time) : Same s (s.carry a g) := by
  apply same_modSlice
  intro x; dsimp only; split <;> rfl
theorem same_noteWrite (s : State) (k : Nat) (l : Loc) : Same s (s.noteWrite k l) := by
  unfold State.noteWrite; split
  · exact ⟨fun _ => rfl, rfl, fun h => h, rfl, rfl⟩
  · exact same_modCore _ _ _
theorem same_l1Update (s : State) (k a : Nat) (d : List Byte) : Same s (s.l1Update k a d) := by
  unfold State.l1Update; split
  · exact ⟨fun _ => rfl, rfl, fun h => h, rfl, rfl⟩
  · exact same_modCore _ _ _
theorem same_noteKeep (s : State) (c a h : Nat) : Same s (s.noteKeep c a h) := by
  unfold State.noteKeep
  have r : Same s s := ⟨fun _ => rfl, rfl, fun h => h, rfl, rfl⟩
  dsimp only
  split
  · split
    · exact same_modSlice _ _ _ fun _ => rfl
    · exact r
  · split
    · exact same_modSlice _ _ _ fun _ => rfl
    · exact r
theorem same_setBytes (s : State) (l : Loc) (d : List Byte) : Same s (s.setBytes l d) := by
  unfold State.setBytes
  generalize hs : (if s.mem.bad.isEmpty then s else { s with mem := { s.mem with bad := s.mem.bad.filter fun x =>
    !((List.range d.length).any fun i => l.add i == x) } }) = t
  have : Same s t := by rw [← hs]; split <;> exact ⟨fun _ => rfl, rfl, fun h => h, rfl, rfl⟩
  refine this.trans ?_
  cases l <;> try exact ⟨fun _ => rfl, rfl, fun h => h, rfl, rfl⟩
  refine ⟨fun k => ?_, rfl, fun h => h, rfl, rfl⟩
  simp only [State.modGroup, Tbl.get_upd]
  split
  · rename_i h; subst h; simp
  · rfl

/-- No accumulator of fixed-order mode is pending, here or for memory that a peer owns. -/
def NoFixed (s : State) : Prop := (∀ k, (s.slice k).fixed = []) ∧ s.link.fixed = []

theorem settleFixed_none {s : State} (h : NoFixed s) (l : Loc) (n : Nat) : s.settleFixed l n = s := by
  have h1 : ∀ m : Loc, s.resolveFixed m = s := by
    intro m
    unfold State.resolveFixed State.fixedAt
    cases m <;> simp [h.1, h.2]
  unfold State.settleFixed
  generalize List.range ((l.off % 32 + n + 31) / 32) = r
  induction r with
  | nil => rfl
  | cons i r ih => rw [List.foldl_cons, h1, ih]

theorem Same.noFixed {s t : State} (h : Same s t) (hf : NoFixed s) : NoFixed t :=
  ⟨h.fixed hf.1, by rw [h.link]; exact hf.2⟩

theorem same_send (s : State) (o : Out) : Same s (s.send o) := ⟨fun _ => rfl, rfl, fun h => h, rfl, rfl⟩

/-- Telling the fabric leaves all but what has gone out. -/
theorem tellFabric_spec (u : WorkUnit) (x : Op) (b : Bool) (l : List Piece) (s : State) :
    (s.tellFabric u x b l).mem = s.mem ∧ (s.tellFabric u x b l).groups = s.groups ∧ Same s (s.tellFabric u x b l) := by
  unfold State.tellFabric
  induction l generalizing s with
  | nil => exact ⟨rfl, rfl, ⟨fun _ => rfl, rfl, fun h => h, rfl, rfl⟩⟩
  | cons p r ih =>
    rw [List.foldl_cons]
    obtain ⟨h1, h2, h3⟩ := ih (match p.loc with
      | .peer d _ => s.send (.fabric (Config.fabricPort d) s.link.devid.toNat (field (nth u.desc 1).toNat 15 0)
          (if u.ctl then 0 else u.ctx) (if u.ctl then 0 else field (nth u.desc 0).toNat 5 4) p.loc x.kind
          (match x.kind with
           | .atom => some x.code
           | .red => some x.code
           | .mred => some x.code
           | _ => none) x.id (if b then some s.allSigs.1 else none))
      | _ => s)
    cases hp : p.loc <;> simp only [hp] at h1 h2 h3 ⊢ <;>
      first | exact ⟨h1, h2, h3⟩ | exact ⟨h1, h2, (same_send _ _).trans h3⟩

/-- One piece: a write of its bytes where they stand. -/
theorem writePiece_spec {s : State} (hf : NoFixed s) (core space : Nat) (carry : Bool) (p : Piece)
    (hs : space ≠ 2)
    (hp : p.loc.plain s) : Same s (s.writePiece core space carry p) ∧
    ∃ u, (∀ l, u.byteAt l = s.byteAt l) ∧ (p.loc.plain u) ∧
      ∀ l, (s.writePiece core space carry p).byteAt l = (u.setBytes p.loc p.data).byteAt l := by
  have hn : ∀ (t : State) (l m : Loc), (t.noteWrite core m).byteAt l = t.byteAt l := by
    intro t l m
    apply State.byteAt_of_mem <;>
    · unfold State.noteWrite
      split <;> rfl
  unfold State.writePiece
  split
  · rename_i a h; rw [h] at hp; exact hp.elim
  · rename_i a h
    rw [if_neg hs]
    dsimp only
    generalize hu : (if carry = true then s.carry a ((s.core core).sig, (s.core core).z) else s) = u
    have hsu : Same s u := by
      rw [← hu]; split
      · exact same_carry _ _ _
      · exact ⟨fun _ => rfl, rfl, fun h => h, rfl, rfl⟩
    have hm : u.mem = s.mem ∧ u.groups = s.groups := by rw [← hu]; split <;> exact ⟨rfl, rfl⟩
    have hw : u.writeAt p.loc p.data = u.setBytes p.loc p.data := by
      unfold State.writeAt; rw [settleFixed_none (hsu.noFixed hf)]
    rw [hw]
    refine ⟨((hsu.trans (same_setBytes _ _ _)).trans (same_l1Update _ _ _ _)).trans (same_noteWrite _ _ _), u, ?_, ?_, ?_⟩
    · exact State.byteAt_of_mem hm.1 hm.2
    · rw [h]; trivial
    · intro l
      rw [hn]
      apply State.byteAt_of_mem <;>
      · unfold State.l1Update
        split <;> rfl
  · rw [State.writeAt, settleFixed_none hf]
    exact ⟨(same_setBytes _ _ _).trans (same_noteWrite _ _ _), s, fun _ => rfl, hp, fun l => hn _ _ _⟩

/-- A run of pieces: every byte outside them stays, and where they are apart each has its bytes. -/
theorem writeFrom_spec (g : Group) (u : WorkUnit) (x : Op) (hm : u.mode < 2) (hx : x.misc ≠ 2) (l : List (Nat × Piece)) :
    ∀ s : State, NoFixed s → (∀ e ∈ l, e.2.loc.plain s) →
    NoFixed (s.writeFrom g u x l) ∧ (s.writeFrom g u x l).waves = s.waves ∧
      (s.writeFrom g u x l).ops = l.foldl (fun o e => replaceFirst (fun z => z.id == x.id) (fun y =>
        { y with seen := y.seen.put e.1 [] }) o) s.ops ∧
      (∀ m, (∀ e ∈ l, ∀ i, i < e.2.data.length → e.2.loc.add i ≠ m) →
        (s.writeFrom g u x l).byteAt m = s.byteAt m) ∧
      ((l.map (·.2)).Pairwise (fun p q =>
          ∀ i j, i < p.data.length → j < q.data.length → p.loc.add i ≠ q.loc.add j) →
        ∀ e ∈ l, ∀ i, i < e.2.data.length → (s.writeFrom g u x l).byteAt (e.2.loc.add i) = e.2.data.getD i 0) := by
  induction l with
  | nil => intro s hf hp; exact ⟨hf, rfl, rfl, fun _ _ => rfl, fun _ e he => by simp at he⟩
  | cons e r ih =>
    intro s hf hp
    obtain ⟨n, p⟩ := e
    obtain ⟨f1, f2, f3⟩ := tellFabric_spec u x x.carries [p] s
    have hfb := State.byteAt_of_mem f1 f2
    generalize hs0 : s.tellFabric u x x.carries [p] = s0 at *
    have hp0 : p.loc.plain s0 := by
      have := hp (n, p) (by simp)
      have hg : ∀ k, (s0.groups.get k).isSome = (s.groups.get k).isSome := f3.groups
      revert this
      cases p.loc <;> simp [Loc.plain, hg]
    obtain ⟨h1, v, h2, h3, h4⟩ := writePiece_spec (f3.noFixed hf) g.core x.misc x.carries p hx hp0
    generalize hw : s0.writePiece g.core x.misc x.carries p = w at *
    have hrun : w.noteRun g u x p true = w := by
      unfold State.noteRun State.runPlace
      simp [hm]
    generalize hk : w.noteHint u.ctx x.hint p = k
    have hsk : Same w k := by
      rw [← hk]; unfold State.noteHint; split
      · exact same_noteKeep _ _ _ _
      · exact ⟨fun _ => rfl, rfl, fun h => h, rfl, rfl⟩
    have hbk : ∀ l, k.byteAt l = w.byteAt l := by
      rw [← hk]; intro l; unfold State.noteHint; split
      · apply State.byteAt_of_mem <;>
        · unfold State.noteKeep
          dsimp only
          repeat' split
          all_goals rfl
      · rfl
    have hs := (f3.trans h1).trans hsk
    let t := k.modOp x.id fun y => { y with seen := y.seen.put n [] }
    have ht : s.writeFrom g u x ((n, p) :: r) = t.writeFrom g u x r := by
      show _ = (k.modOp x.id _).writeFrom g u x r
      rw [← hk]; simp only [State.writeFrom, hs0, hw, hrun]
    have hbt : ∀ l, t.byteAt l = (v.setBytes p.loc p.data).byteAt l := fun l => by
      rw [← h4 l, ← hbk l]; exact State.byteAt_of_mem rfl rfl l
    have h2 : ∀ l, v.byteAt l = s.byteAt l := fun l => (h2 l).trans (hfb l)
    obtain ⟨i1, i2, i4, i5, i6⟩ := ih t (hs.noFixed hf) (by
      intro e he
      have := hp e (by simp [he])
      have hg : ∀ k, (t.groups.get k).isSome = (s.groups.get k).isSome := hs.groups
      revert this
      cases e.2.loc <;> simp [Loc.plain, hg])
    rw [ht]
    refine ⟨i1, i2.trans hs.waves, ?_, ?_, ?_⟩
    · rw [i4]; simp only [List.foldl_cons]; congr 1; show replaceFirst _ _ k.ops = _; rw [hs.ops]
    · intro m h
      rw [i5 m fun e he => h e (by simp [he]), hbt, State.byteAt_setBytes_other _ _ _ _ (h (n, p) (by simp)), h2]
    · intro hd e he i hi
      simp only [List.map_cons, List.pairwise_cons] at hd
      rcases List.mem_cons.mp he with rfl | he
      · rw [i5, hbt]
        · exact State.byteAt_setBytes_same _ _ _ h3 hi
        · intro e he j hj h
          exact hd.1 e.2 (List.mem_map.mpr ⟨e, he, rfl⟩) i j hi hj h.symm
      · exact i6 hd.2 e he i hi

end Sys2Proof.Machine
end

