-- ==== Sys2Proof/Laws/Verdict.lean ====
section
/-! SUPPORT. Every instruction of the programs issues through the checks of R52: one lemma for each, and the one that
joins them. -/

namespace Sys2Proof.Machine

open Sys2Proof

/-- The instruction issues through R52's checks, then its own, and has its effect; record mode asks room of the rings of the
home slices that it would touch. -/
def Issues (i : Instr) (s : State) : Prop :=
  ∃ (α : Type) (check : Who → State → State × Option (QuadMask × FarInfo) × Except Stop α) (act : α → Who → State → State),
    exec i s = s.issueCut i (recordSlices i) check act

theorem issues_issueCut {α : Type} {s : State} {i : Instr} {sl sl' : Who → State → List Nat}
    {c : Who → State → State × Option (QuadMask × FarInfo) × Except Stop α} {a : α → Who → State → State} (h : sl = sl') :
    ∃ (α : Type) (check : Who → State → State × Option (QuadMask × FarInfo) × Except Stop α) (act : α → Who → State → State),
      s.issueCut i sl c a = s.issueCut i sl' check act := by
  subst h
  exact ⟨_, _, _, rfl⟩

theorem issues_issueWith {α : Type} {s : State} {i : Instr} {sl sl' : Who → State → List Nat}
    {c : Who → State → State × Except Stop α} {a : α → Who → State → State} (h : sl = sl') :
    ∃ (α : Type) (check : Who → State → State × Option (QuadMask × FarInfo) × Except Stop α) (act : α → Who → State → State),
      s.issueWith i sl c a = s.issueCut i sl' check act := by
  subst h
  exact ⟨_, _, _, rfl⟩

theorem issues_issue {s : State} {i : Instr} {sl : Who → State → List Nat} {a : Who → State → State}
    (h : (fun _ _ => []) = sl) :
    ∃ (α : Type) (check : Who → State → State × Option (QuadMask × FarInfo) × Except Stop α) (act : α → Who → State → State),
      s.issue i a = s.issueCut i sl check act := by
  unfold State.issue
  exact issues_issueWith h

theorem issues_issueIf {s : State} {i : Instr} {sl : Who → State → List Nat} {c : Who → State → Option TrapInfo}
    {a : Who → State → State} (h : (fun _ _ => []) = sl) :
    ∃ (α : Type) (check : Who → State → State × Option (QuadMask × FarInfo) × Except Stop α) (act : α → Who → State → State),
      s.issueIf i c a = s.issueCut i sl check act := by
  unfold State.issueIf
  exact issues_issueWith h

/-- An instruction that its part does not wait in starts with its first check. -/
theorem resume_first {s : State} {i : Instr} {o : Who} {m : Who → State → State} {f : Host.Outcome State Fault Refusal}
    (h : s.who s.cur = some o) (hh : o.p.hold ≠ .instr i) : s.resume i m f = f := by
  unfold State.resume
  rw [h]
  exact if_neg hh

theorem issues_nop (x : NopOp) (s : State) : Issues (.nop x) s := by
  unfold Issues
  rw [exec_nop]
  unfold execNop
  exact issues_issue rfl

theorem issues_mov (x : AluOp) (s : State) : Issues (.mov x) s := by
  unfold Issues
  rw [exec_mov]
  unfold execMov State.perLane
  exact issues_issue rfl

theorem issues_movi (x : LitOp) (s : State) : Issues (.movi x) s := by
  unfold Issues
  rw [exec_movi]
  unfold execMovi
  exact issues_issue rfl

theorem issues_sel (x : AluOp) (s : State) : Issues (.sel x) s := by
  unfold Issues
  rw [exec_sel]
  unfold execSel State.perLane
  exact issues_issue rfl

theorem issues_iadd (x : AluOp) (s : State) : Issues (.iadd x) s := by
  unfold Issues
  rw [exec_iadd]
  unfold execIadd State.perLane
  exact issues_issue rfl

theorem issues_isub (x : AluOp) (s : State) : Issues (.isub x) s := by
  unfold Issues
  rw [exec_isub]
  unfold execIsub State.perLane
  exact issues_issue rfl

theorem issues_imul (x : AluOp) (s : State) : Issues (.imul x) s := by
  unfold Issues
  rw [exec_imul]
  unfold execImul State.perLane
  exact issues_issue rfl

theorem issues_imulh (x : AluOp) (s : State) : Issues (.imulh x) s := by
  unfold Issues
  rw [exec_imulh]
  unfold execImulh State.perLane
  exact issues_issue rfl

theorem issues_imad (x : AluOp) (s : State) : Issues (.imad x) s := by
  unfold Issues
  rw [exec_imad]
  unfold execImad State.perLane
  exact issues_issue rfl

theorem issues_imin (x : AluOp) (s : State) : Issues (.imin x) s := by
  unfold Issues
  rw [exec_imin]
  unfold execImin State.perLane
  exact issues_issue rfl

theorem issues_imax (x : AluOp) (s : State) : Issues (.imax x) s := by
  unfold Issues
  rw [exec_imax]
  unfold execImax State.perLane
  exact issues_issue rfl

theorem issues_iabs (x : AluOp) (s : State) : Issues (.iabs x) s := by
  unfold Issues
  rw [exec_iabs]
  unfold execIabs State.perLane
  exact issues_issue rfl

theorem issues_and (x : AluOp) (s : State) : Issues (.and x) s := by
  unfold Issues
  rw [exec_and]
  unfold execAnd State.perLane
  exact issues_issue rfl

theorem issues_or (x : AluOp) (s : State) : Issues (.or x) s := by
  unfold Issues
  rw [exec_or]
  unfold execOr State.perLane
  exact issues_issue rfl

theorem issues_xor (x : AluOp) (s : State) : Issues (.xor x) s := by
  unfold Issues
  rw [exec_xor]
  unfold execXor State.perLane
  exact issues_issue rfl

theorem issues_not (x : AluOp) (s : State) : Issues (.not x) s := by
  unfold Issues
  rw [exec_not]
  unfold execNot State.perLane
  exact issues_issue rfl

theorem issues_shl (x : AluOp) (s : State) : Issues (.shl x) s := by
  unfold Issues
  rw [exec_shl]
  unfold execShl State.perLane
  exact issues_issue rfl

theorem issues_shr (x : AluOp) (s : State) : Issues (.shr x) s := by
  unfold Issues
  rw [exec_shr]
  unfold execShr State.perLane
  exact issues_issue rfl

theorem issues_rot (x : AluOp) (s : State) : Issues (.rot x) s := by
  unfold Issues
  rw [exec_rot]
  unfold execRot State.perLane
  exact issues_issue rfl

theorem issues_bfx (x : AluOp) (s : State) : Issues (.bfx x) s := by
  unfold Issues
  rw [exec_bfx]
  unfold execBfx State.perLane
  exact issues_issue rfl

theorem issues_bfi (x : AluOp) (s : State) : Issues (.bfi x) s := by
  unfold Issues
  rw [exec_bfi]
  unfold execBfi State.perLane
  exact issues_issue rfl

theorem issues_popc (x : AluOp) (s : State) : Issues (.popc x) s := by
  unfold Issues
  rw [exec_popc]
  unfold execPopc State.perLane
  exact issues_issue rfl

theorem issues_clz (x : AluOp) (s : State) : Issues (.clz x) s := by
  unfold Issues
  rw [exec_clz]
  unfold execClz State.perLane
  exact issues_issue rfl

theorem issues_brev (x : AluOp) (s : State) : Issues (.brev x) s := by
  unfold Issues
  rw [exec_brev]
  unfold execBrev State.perLane
  exact issues_issue rfl

theorem issues_icmp (x : AluOp) (s : State) : Issues (.icmp x) s := by
  unfold Issues
  rw [exec_icmp]
  unfold execIcmp State.perLane
  exact issues_issue rfl

theorem issues_addc (x : AluOp) (s : State) : Issues (.addc x) s := by
  unfold Issues
  rw [exec_addc]
  unfold execAddc
  exact issues_issue rfl

theorem issues_lea (x : LitOp) (s : State) : Issues (.lea x) s := by
  unfold Issues
  rw [exec_lea]
  unfold execLea
  exact issues_issue rfl

theorem issues_iadd3 (x : AluOp) (s : State) : Issues (.iadd3 x) s := by
  unfold Issues
  rw [exec_iadd3]
  unfold execIadd3 State.perLane
  exact issues_issue rfl

theorem issues_sati (x : AluOp) (s : State) : Issues (.sati x) s := by
  unfold Issues
  rw [exec_sati]
  unfold execSati State.perLane
  exact issues_issue rfl

theorem issues_fadd (x : AluOp) (s : State) : Issues (.fadd x) s := by
  unfold Issues
  rw [exec_fadd]
  unfold execFadd State.perLane
  exact issues_issue rfl

theorem issues_fsub (x : AluOp) (s : State) : Issues (.fsub x) s := by
  unfold Issues
  rw [exec_fsub]
  unfold execFsub State.perLane
  exact issues_issue rfl

theorem issues_fmul (x : AluOp) (s : State) : Issues (.fmul x) s := by
  unfold Issues
  rw [exec_fmul]
  unfold execFmul State.perLane
  exact issues_issue rfl

theorem issues_ffma (x : AluOp) (s : State) : Issues (.ffma x) s := by
  unfold Issues
  rw [exec_ffma]
  unfold execFfma State.perLane
  exact issues_issue rfl

theorem issues_fmin (x : AluOp) (s : State) : Issues (.fmin x) s := by
  unfold Issues
  rw [exec_fmin]
  unfold execFmin State.perLane
  exact issues_issue rfl

theorem issues_fmax (x : AluOp) (s : State) : Issues (.fmax x) s := by
  unfold Issues
  rw [exec_fmax]
  unfold execFmax State.perLane
  exact issues_issue rfl

theorem issues_fcmp (x : AluOp) (s : State) : Issues (.fcmp x) s := by
  unfold Issues
  rw [exec_fcmp]
  unfold execFcmp State.perLane
  exact issues_issue rfl

theorem issues_fclass (x : AluOp) (s : State) : Issues (.fclass x) s := by
  unfold Issues
  rw [exec_fclass]
  unfold execFclass State.perLane
  exact issues_issue rfl

theorem issues_frnd (x : AluOp) (s : State) : Issues (.frnd x) s := by
  unfold Issues
  rw [exec_frnd]
  unfold execFrnd State.perLane
  exact issues_issue rfl

theorem issues_fcvt (x : AluOp) (s : State) : Issues (.fcvt x) s := by
  unfold Issues
  rw [exec_fcvt]
  unfold execFcvt State.perLane
  exact issues_issue rfl

theorem issues_ftoi (x : AluOp) (s : State) : Issues (.ftoi x) s := by
  unfold Issues
  rw [exec_ftoi]
  unfold execFtoi State.perLane
  exact issues_issue rfl

theorem issues_itof (x : AluOp) (s : State) : Issues (.itof x) s := by
  unfold Issues
  rw [exec_itof]
  unfold execItof State.perLane
  exact issues_issue rfl

theorem issues_exp2 (x : AluOp) (s : State) : Issues (.exp2 x) s := by
  unfold Issues
  rw [exec_exp2]
  unfold execExp2 State.perLane
  exact issues_issue rfl

theorem issues_log2 (x : AluOp) (s : State) : Issues (.log2 x) s := by
  unfold Issues
  rw [exec_log2]
  unfold execLog2 State.perLane
  exact issues_issue rfl

theorem issues_rcp (x : AluOp) (s : State) : Issues (.rcp x) s := by
  unfold Issues
  rw [exec_rcp]
  unfold execRcp State.perLane
  exact issues_issue rfl

theorem issues_rsq (x : AluOp) (s : State) : Issues (.rsq x) s := by
  unfold Issues
  rw [exec_rsq]
  unfold execRsq State.perLane
  exact issues_issue rfl

theorem issues_sqrt (x : AluOp) (s : State) : Issues (.sqrt x) s := by
  unfold Issues
  rw [exec_sqrt]
  unfold execSqrt State.perLane
  exact issues_issue rfl

theorem issues_sin (x : AluOp) (s : State) : Issues (.sin x) s := by
  unfold Issues
  rw [exec_sin]
  unfold execSin State.perLane
  exact issues_issue rfl

theorem issues_cos (x : AluOp) (s : State) : Issues (.cos x) s := by
  unfold Issues
  rw [exec_cos]
  unfold execCos State.perLane
  exact issues_issue rfl

theorem issues_fdot2 (x : AluOp) (s : State) : Issues (.fdot2 x) s := by
  unfold Issues
  rw [exec_fdot2]
  unfold execFdot2 State.perLane
  exact issues_issue rfl

theorem issues_fpk2 (x : AluOp) (s : State) : Issues (.fpk2 x) s := by
  unfold Issues
  rw [exec_fpk2]
  unfold execFpk2 State.perLane
  exact issues_issue rfl

theorem issues_fscale (x : AluOp) (s : State) : Issues (.fscale x) s := by
  unfold Issues
  rw [exec_fscale]
  unfold execFscale State.perLane
  exact issues_issue rfl

theorem issues_fmed3 (x : AluOp) (s : State) : Issues (.fmed3 x) s := by
  unfold Issues
  rw [exec_fmed3]
  unfold execFmed3 State.perLane
  exact issues_issue rfl

theorem issues_ffrac (x : AluOp) (s : State) : Issues (.ffrac x) s := by
  unfold Issues
  rw [exec_ffrac]
  unfold execFfrac State.perLane
  exact issues_issue rfl

theorem issues_hfma2 (x : AluOp) (s : State) : Issues (.hfma2 x) s := by
  unfold Issues
  rw [exec_hfma2]
  unfold execHfma2 State.perLane
  exact issues_issue rfl

theorem issues_hadd2 (x : AluOp) (s : State) : Issues (.hadd2 x) s := by
  unfold Issues
  rw [exec_hadd2]
  unfold execHadd2 State.perLane
  exact issues_issue rfl

theorem issues_hmul2 (x : AluOp) (s : State) : Issues (.hmul2 x) s := by
  unfold Issues
  rw [exec_hmul2]
  unfold execHmul2 State.perLane
  exact issues_issue rfl

theorem issues_qdot4 (x : AluOp) (s : State) : Issues (.qdot4 x) s := by
  unfold Issues
  rw [exec_qdot4]
  unfold execQdot4 State.perLane
  exact issues_issue rfl

theorem issues_qswz (x : XlOp) (s : State) : Issues (.qswz x) s := by
  unfold Issues
  rw [exec_qswz]
  unfold execQswz State.crossLane
  exact issues_issue rfl

theorem issues_ballot (x : XlOp) (s : State) : Issues (.ballot x) s := by
  unfold Issues
  rw [exec_ballot]
  unfold execBallot State.crossLane
  exact issues_issue rfl

theorem issues_vote (x : XlOp) (s : State) : Issues (.vote x) s := by
  unfold Issues
  rw [exec_vote]
  unfold execVote State.crossLane
  exact issues_issue rfl

theorem issues_shfl (x : XlOp) (s : State) : Issues (.shfl x) s := by
  unfold Issues
  rw [exec_shfl]
  unfold execShfl State.crossLane
  exact issues_issue rfl

theorem issues_bcast (x : XlOp) (s : State) : Issues (.bcast x) s := by
  unfold Issues
  rw [exec_bcast]
  unfold execBcast State.crossLane
  exact issues_issue rfl

theorem issues_redux (x : XlOp) (s : State) : Issues (.redux x) s := by
  unfold Issues
  rw [exec_redux]
  unfold execRedux
  exact issues_issue rfl

theorem issues_scanx (x : XlOp) (s : State) : Issues (.scanx x) s := by
  unfold Issues
  rw [exec_scanx]
  unfold execScanx
  exact issues_issue rfl

theorem issues_match (x : XlOp) (s : State) : Issues (.match x) s := by
  unfold Issues
  rw [exec_match]
  unfold execMatch State.crossLane
  exact issues_issue rfl

theorem issues_readlane (x : XlOp) (s : State) : Issues (.readlane x) s := by
  unfold Issues
  rw [exec_readlane]
  unfold execReadlane State.crossLane
  exact issues_issue rfl

theorem issues_writelane (x : XlOp) (s : State) : Issues (.writelane x) s := by
  unfold Issues
  rw [exec_writelane]
  unfold execWritelane
  exact issues_issue rfl

theorem issues_xshuf (x : XlOp) (s : State) : Issues (.xshuf x) s := by
  unfold Issues
  rw [exec_xshuf]
  unfold execXshuf
  exact issues_issue rfl

theorem issues_br (x : FlowOp) (s : State) (hb : s.targetFirst (.br x) = none) : Issues (.br x) s := by
  unfold Issues
  rw [exec_br]
  unfold execBr State.issueBranch
  rw [hb]
  exact issues_issueWith rfl

theorem issues_brc (x : FlowOp) (s : State) (hb : s.targetFirst (.brc x) = none) : Issues (.brc x) s := by
  unfold Issues
  rw [exec_brc]
  unfold execBrc State.issueBranch
  rw [hb]
  exact issues_issueWith rfl

theorem issues_brx (x : JumpOp) (s : State) (hb : s.targetFirst (.brx x) = none) : Issues (.brx x) s := by
  unfold Issues
  rw [exec_brx]
  unfold execBrx jumpPair State.issueBranch
  rw [hb]
  exact issues_issueWith rfl

theorem issues_call (x : FlowOp) (s : State) (hb : s.targetFirst (.call x) = none) : Issues (.call x) s := by
  unfold Issues
  rw [exec_call]
  unfold execCall State.issueBranch
  rw [hb]
  exact issues_issueWith rfl

theorem issues_ret (x : JumpOp) (s : State) (hb : s.targetFirst (.ret x) = none) : Issues (.ret x) s := by
  unfold Issues
  rw [exec_ret]
  unfold execRet jumpPair State.issueBranch
  rw [hb]
  exact issues_issueWith rfl

theorem issues_knit (x : CtlOp) (s : State) : Issues (.knit x) s := by
  unfold Issues
  rw [exec_knit]
  unfold execKnit
  exact issues_issueWith rfl

theorem issues_cutctl (x : CtlOp) (s : State) : Issues (.cutctl x) s := by
  unfold Issues
  rw [exec_cutctl]
  unfold execCutctl
  exact issues_issue rfl

theorem issues_rep (x : FlowOp) (s : State) : Issues (.rep x) s := by
  unfold Issues
  rw [exec_rep]
  unfold execRep
  exact issues_issueWith rfl

theorem issues_lpin (x : FlowOp) (s : State) : Issues (.lpin x) s := by
  unfold Issues
  rw [exec_lpin]
  unfold execLpin
  exact issues_issueWith rfl

theorem issues_exit (x : CtlOp) (s : State) : Issues (.exit x) s := by
  unfold Issues
  rw [exec_exit]
  unfold execExit
  exact issues_issueWith rfl

theorem issues_waitn (x : CtlOp) (s : State) : Issues (.waitn x) s := by
  unfold Issues
  rw [exec_waitn]
  unfold execWaitn
  exact issues_issue rfl

theorem issues_yield (x : CtlOp) (s : State) : Issues (.yield x) s := by
  unfold Issues
  rw [exec_yield]
  unfold execYield
  exact issues_issue rfl

theorem issues_setfmt (x : CtlOp) (s : State) : Issues (.setfmt x) s := by
  unfold Issues
  rw [exec_setfmt]
  unfold execSetfmt
  exact issues_issueIf rfl

theorem issues_getst (x : CtlOp) (s : State) : Issues (.getst x) s := by
  unfold Issues
  rw [exec_getst]
  unfold execGetst
  exact issues_issue rfl

theorem issues_sleep (x : CtlOp) (s : State) : Issues (.sleep x) s := by
  unfold Issues
  rw [exec_sleep]
  unfold execSleep
  exact issues_issue rfl

theorem issues_ld (x : MemOp) (s : State) : Issues (.ld x) s := by
  unfold Issues
  rw [exec_ld]
  unfold execLd State.loadInstr
  exact issues_issueCut rfl

theorem issues_st (x : MemOp) (s : State) : Issues (.st x) s := by
  unfold Issues
  rw [exec_st]
  unfold execSt State.storeInstr
  exact issues_issueCut rfl

theorem issues_lds (x : MemOp) (s : State) : Issues (.lds x) s := by
  unfold Issues
  rw [exec_lds]
  unfold execLds State.loadInstr
  exact issues_issueCut rfl

theorem issues_ldx (x : MemOp) (s : State) : Issues (.ldx x) s := by
  unfold Issues
  rw [exec_ldx]
  unfold execLdx State.loadInstr
  exact issues_issueCut rfl

theorem issues_stx (x : MemOp) (s : State) : Issues (.stx x) s := by
  unfold Issues
  rw [exec_stx]
  unfold execStx State.storeInstr
  exact issues_issueCut rfl

theorem issues_ldw (x : MemOp) (s : State) : Issues (.ldw x) s := by
  unfold Issues
  rw [exec_ldw]
  unfold execLdw
  exact issues_issueCut rfl

theorem issues_prf (x : MemOp) (s : State) : Issues (.prf x) s := by
  unfold Issues
  rw [exec_prf]
  unfold execPrf
  exact issues_issue rfl

theorem issues_invl (x : MemOp) (s : State) : Issues (.invl x) s := by
  unfold Issues
  rw [exec_invl]
  unfold execInvl
  exact issues_issueCut rfl

theorem issues_invlAll (x : MemOp) (s : State) : Issues (.invlAll x) s := by
  unfold Issues
  rw [exec_invlAll]
  unfold execInvlAll
  exact issues_issue rfl

theorem issues_wbl (x : MemOp) (s : State) : Issues (.wbl x) s := by
  unfold Issues
  rw [exec_wbl]
  unfold execWbl
  exact issues_issueCut rfl

theorem issues_wblAll (x : MemOp) (s : State) : Issues (.wblAll x) s := by
  unfold Issues
  rw [exec_wblAll]
  unfold execWblAll
  exact issues_issueWith rfl

theorem issues_fence (x : CtlOp) (s : State) : Issues (.fence x) s := by
  unfold Issues
  rw [exec_fence]
  unfold execFence
  exact issues_issue rfl

theorem issues_fencex (x : CtlOp) (s : State) : Issues (.fencex x) s := by
  unfold Issues
  rw [exec_fencex]
  unfold execFencex
  exact issues_issue rfl

theorem issues_monw (x : MemOp) (s : State) : Issues (.monw x) s := by
  unfold Issues
  rw [exec_monw]
  unfold execMonw
  exact issues_issueWith rfl

theorem issues_atom (x : MemOp) (s : State) : Issues (.atom x) s := by
  unfold Issues
  rw [exec_atom]
  unfold execAtom State.atomInstr
  exact issues_issueCut rfl

theorem issues_atomc (x : MemOp) (s : State) : Issues (.atomc x) s := by
  unfold Issues
  rw [exec_atomc]
  unfold execAtomc State.atomInstr
  exact issues_issueCut rfl

theorem issues_red (x : MemOp) (s : State) : Issues (.red x) s := by
  unfold Issues
  rw [exec_red]
  unfold execRed State.atomInstr
  exact issues_issueCut rfl

theorem issues_bcopy (x : EngOp) (s : State) : Issues (.bcopy x) s := by
  unfold Issues
  rw [exec_bcopy]
  unfold execBcopy
  exact issues_issueWith rfl

theorem issues_gcopy (x : EngOp) (s : State) : Issues (.gcopy x) s := by
  unfold Issues
  rw [exec_gcopy]
  unfold execGcopy
  exact issues_issueWith rfl

theorem issues_scopy (x : EngOp) (s : State) : Issues (.scopy x) s := by
  unfold Issues
  rw [exec_scopy]
  unfold execScopy
  exact issues_issueWith rfl

theorem issues_wswrite (x : EngOp) (s : State) : Issues (.wswrite x) s := by
  unfold Issues
  rw [exec_wswrite]
  unfold execWswrite
  exact issues_issueWith rfl

theorem issues_wswin (x : EngOp) (s : State) : Issues (.wswin x) s := by
  unfold Issues
  rw [exec_wswin]
  unfold execWswin
  exact issues_issue rfl

theorem issues_cpoll (x : EngOp) (s : State) : Issues (.cpoll x) s := by
  unfold Issues
  rw [exec_cpoll]
  unfold execCpoll
  exact issues_issueWith rfl

theorem issues_mcst (x : MemOp) (s : State) : Issues (.mcst x) s := by
  unfold Issues
  rw [exec_mcst]
  unfold execMcst
  exact issues_issueWith rfl

theorem issues_mred (x : MemOp) (s : State) : Issues (.mred x) s := by
  unfold Issues
  rw [exec_mred]
  unfold execMred
  exact issues_issueWith rfl

theorem issues_macq (x : EngOp) (s : State) : Issues (.macq x) s := by
  unfold Issues
  rw [exec_macq]
  unfold execMacq
  exact issues_issue rfl

theorem issues_mrel (x : EngOp) (s : State) : Issues (.mrel x) s := by
  unfold Issues
  rw [exec_mrel]
  unfold execMrel
  exact issues_issueIf rfl

theorem issues_mma (x : EngOp) (s : State) : Issues (.mma x) s := by
  unfold Issues
  rw [exec_mma]
  unfold execMma
  exact issues_issueWith rfl

theorem issues_mmas (x : EngOp) (s : State) : Issues (.mmas x) s := by
  unfold Issues
  rw [exec_mmas]
  unfold execMmas
  exact issues_issueWith rfl

theorem issues_mfence (x : EngOp) (s : State) : Issues (.mfence x) s := by
  unfold Issues
  rw [exec_mfence]
  unfold execMfence
  exact issues_issueWith rfl

theorem issues_mwait (x : EngOp) (s : State) : Issues (.mwait x) s := by
  unfold Issues
  rw [exec_mwait]
  unfold execMwait
  exact issues_issueWith rfl

theorem issues_mrd (x : EngOp) (s : State) : Issues (.mrd x) s := by
  unfold Issues
  rw [exec_mrd]
  unfold execMrd
  exact issues_issueIf rfl

theorem issues_mwr (x : EngOp) (s : State) : Issues (.mwr x) s := by
  unfold Issues
  rw [exec_mwr]
  unfold execMwr
  exact issues_issueIf rfl

theorem issues_mdrain (x : EngOp) (s : State) : Issues (.mdrain x) s := by
  unfold Issues
  rw [exec_mdrain]
  unfold execMdrain
  exact issues_issueWith rfl

theorem issues_twld (x : EngOp) (s : State) : Issues (.twld x) s := by
  unfold Issues
  rw [exec_twld]
  unfold execTwld
  exact issues_issueWith rfl

theorem issues_tmac (x : EngOp) (s : State) : Issues (.tmac x) s := by
  unfold Issues
  rw [exec_tmac]
  unfold execTmac
  exact issues_issueWith rfl

theorem issues_tdrain (x : EngOp) (s : State) : Issues (.tdrain x) s := by
  unfold Issues
  rw [exec_tdrain]
  unfold execTdrain
  exact issues_issueWith rfl

theorem issues_tzero (x : EngOp) (s : State) : Issues (.tzero x) s := by
  unfold Issues
  rw [exec_tzero]
  unfold execTzero zeroInstr
  exact issues_issueWith rfl

theorem issues_tzeroPlane (x : EngOp) (s : State) : Issues (.tzeroPlane x) s := by
  unfold Issues
  rw [exec_tzeroPlane]
  unfold execTzeroPlane zeroInstr
  exact issues_issueWith rfl

theorem issues_tpack (x : EngOp) (s : State) : Issues (.tpack x) s := by
  unfold Issues
  rw [exec_tpack]
  unfold execTpack
  exact issues_issue rfl

theorem issues_tunpk (x : EngOp) (s : State) : Issues (.tunpk x) s := by
  unfold Issues
  rw [exec_tunpk]
  unfold execTunpk
  exact issues_issueIf rfl

theorem issues_tqnt (x : EngOp) (s : State) : Issues (.tqnt x) s := by
  unfold Issues
  rw [exec_tqnt]
  unfold execTqnt
  exact issues_issue rfl

theorem issues_tstat (x : EngOp) (s : State) : Issues (.tstat x) s := by
  unfold Issues
  rw [exec_tstat]
  unfold execTstat
  exact issues_issueIf rfl

theorem issues_smp (x : EngOp) (s : State) : Issues (.smp x) s := by
  unfold Issues
  rw [exec_smp]
  unfold execSmp sampleInstr
  exact issues_issueIf rfl

theorem issues_smpl (x : EngOp) (s : State) : Issues (.smpl x) s := by
  unfold Issues
  rw [exec_smpl]
  unfold execSmpl sampleInstr
  exact issues_issueIf rfl

theorem issues_smpg (x : EngOp) (s : State) : Issues (.smpg x) s := by
  unfold Issues
  rw [exec_smpg]
  unfold execSmpg sampleInstr
  exact issues_issueIf rfl

theorem issues_gath4 (x : EngOp) (s : State) : Issues (.gath4 x) s := by
  unfold Issues
  rw [exec_gath4]
  unfold execGath4 sampleInstr
  exact issues_issueIf rfl

theorem issues_txld (x : EngOp) (s : State) : Issues (.txld x) s := by
  unfold Issues
  rw [exec_txld]
  unfold execTxld sampleInstr
  exact issues_issueIf rfl

theorem issues_ldec (x : EngOp) (s : State) : Issues (.ldec x) s := by
  unfold Issues
  rw [exec_ldec]
  unfold execLdec
  exact issues_issueIf rfl

theorem issues_edge (x : EngOp) (s : State) : Issues (.edge x) s := by
  unfold Issues
  rw [exec_edge]
  unfold execEdge
  exact issues_issue rfl

theorem issues_tileq (x : EngOp) (s : State) : Issues (.tileq x) s := by
  unfold Issues
  rw [exec_tileq]
  unfold execTileq
  exact issues_issueIf rfl

theorem issues_emit (x : EngOp) (s : State) : Issues (.emit x) s := by
  unfold Issues
  rw [exec_emit]
  unfold execEmit
  exact issues_issueWith rfl

theorem issues_rtrace (x : EngOp) (s : State) : Issues (.rtrace x) s := by
  unfold Issues
  rw [exec_rtrace]
  unfold execRtrace
  exact issues_issueIf rfl

theorem issues_rhit (x : EngOp) (s : State) : Issues (.rhit x) s := by
  unfold Issues
  rw [exec_rhit]
  unfold execRhit
  exact issues_issueWith rfl

theorem issues_imgst (x : EngOp) (s : State) : Issues (.imgst x) s := by
  unfold Issues
  rw [exec_imgst]
  unfold execImgst
  exact issues_issueWith rfl

theorem issues_rninv (x : CtlOp) (s : State) : Issues (.rninv x) s := by
  unfold Issues
  rw [exec_rninv]
  unfold execRninv
  exact issues_issueWith rfl

theorem issues_rninvAll (x : CtlOp) (s : State) : Issues (.rninvAll x) s := by
  unfold Issues
  rw [exec_rninvAll]
  unfold execRninvAll
  exact issues_issueWith rfl

theorem issues_bari (x : CtlOp) (s : State) : Issues (.bari x) s := by
  unfold Issues
  rw [exec_bari]
  unfold execBari
  exact issues_issueWith rfl

theorem issues_bariGroup (x : CtlOp) (s : State) : Issues (.bariGroup x) s := by
  unfold Issues
  rw [exec_bariGroup]
  unfold execBariGroup
  exact issues_issueWith rfl

theorem issues_arrive (x : CtlOp) (s : State) : Issues (.arrive x) s := by
  unfold Issues
  rw [exec_arrive]
  unfold execArrive
  exact issues_issueWith rfl

theorem issues_arrdrop (x : CtlOp) (s : State) : Issues (.arrdrop x) s := by
  unfold Issues
  rw [exec_arrdrop]
  unfold execArrdrop
  exact issues_issueWith rfl

theorem issues_bwait (x : CtlOp) (s : State) : Issues (.bwait x) s := by
  unfold Issues
  rw [exec_bwait]
  unfold execBwait
  exact issues_issueWith rfl

theorem issues_bexpect (x : CtlOp) (s : State) : Issues (.bexpect x) s := by
  unfold Issues
  rw [exec_bexpect]
  unfold execBexpect
  exact issues_issueWith rfl

theorem issues_qpush (x : CtlOp) (s : State) : Issues (.qpush x) s := by
  unfold Issues
  rw [exec_qpush]
  unfold execQpush
  exact issues_issueWith rfl

theorem issues_qpop (x : CtlOp) (s : State) : Issues (.qpop x) s := by
  unfold Issues
  rw [exec_qpop]
  unfold execQpop
  exact issues_issueWith rfl

theorem issues_qtry (x : CtlOp) (s : State) : Issues (.qtry x) s := by
  unfold Issues
  rw [exec_qtry]
  unfold execQtry
  exact issues_issueWith rfl

theorem issues_qallow (x : CtlOp) (s : State) : Issues (.qallow x) s := by
  unfold Issues
  rw [exec_qallow]
  unfold execQallow
  exact issues_issueWith rfl

theorem issues_qallowInit (x : CtlOp) (s : State) : Issues (.qallowInit x) s := by
  unfold Issues
  rw [exec_qallowInit]
  unfold execQallowInit
  exact issues_issueIf rfl

theorem issues_gbar (x : CtlOp) (s : State) : Issues (.gbar x) s := by
  unfold Issues
  rw [exec_gbar]
  unfold execGbar
  exact issues_issueWith rfl

theorem issues_launch (x : CtlOp) (s : State) : Issues (.launch x) s := by
  unfold Issues
  rw [exec_launch]
  unfold execLaunch
  exact issues_issueWith rfl

theorem issues_grun (x : CtlOp) (s : State) : Issues (.grun x) s := by
  unfold Issues
  rw [exec_grun]
  unfold execGrun
  exact issues_issueWith rfl

theorem issues_cancelHandle (x : CtlOp) (s : State) : Issues (.cancelHandle x) s := by
  unfold Issues
  rw [exec_cancelHandle]
  unfold execCancelHandle State.cancelInstr
  exact issues_issue rfl

theorem issues_cancelLaunch (x : CtlOp) (s : State) : Issues (.cancelLaunch x) s := by
  unfold Issues
  rw [exec_cancelLaunch]
  unfold execCancelLaunch State.cancelInstr
  exact issues_issue rfl

theorem issues_cancelPhase (x : CtlOp) (s : State) : Issues (.cancelPhase x) s := by
  unfold Issues
  rw [exec_cancelPhase]
  unfold execCancelPhase State.cancelInstr
  exact issues_issue rfl

theorem issues_cancelJob (x : CtlOp) (s : State) : Issues (.cancelJob x) s := by
  unfold Issues
  rw [exec_cancelJob]
  unfold execCancelJob State.cancelInstr
  exact issues_issue rfl

theorem issues_ccwait (x : CtlOp) (s : State) : Issues (.ccwait x) s := by
  unfold Issues
  rw [exec_ccwait]
  unfold execCcwait
  exact issues_issueWith rfl

theorem issues_rosb (x : CtlOp) (s : State) : Issues (.rosb x) s := by
  unfold Issues
  rw [exec_rosb]
  unfold execRosb
  exact issues_issueIf rfl

theorem issues_rose (x : CtlOp) (s : State) : Issues (.rose x) s := by
  unfold Issues
  rw [exec_rose]
  unfold execRose
  exact issues_issueWith rfl

theorem issues_trap (x : CtlOp) (s : State) : Issues (.trap x) s := by
  unfold Issues
  rw [exec_trap]
  unfold execTrap
  exact issues_issueIf rfl

theorem issues_brk (x : CtlOp) (s : State) : Issues (.brk x) s := by
  unfold Issues
  rw [exec_brk]
  unfold execBrk
  exact issues_issueIf rfl

theorem issues_rettReissue (x : CtlOp) (s : State) : Issues (.rettReissue x) s := by
  unfold Issues
  rw [exec_rettReissue]
  unfold execRettReissue State.rett
  exact issues_issueWith rfl

theorem issues_rettSkip (x : CtlOp) (s : State) : Issues (.rettSkip x) s := by
  unfold Issues
  rw [exec_rettSkip]
  unfold execRettSkip State.rett
  exact issues_issueWith rfl

theorem issues_rettPc (x : CtlOp) (s : State) : Issues (.rettPc x) s := by
  unfold Issues
  rw [exec_rettPc]
  unfold execRettPc State.rett
  exact issues_issueWith rfl

theorem issues_rettEnd (x : CtlOp) (s : State) : Issues (.rettEnd x) s := by
  unfold Issues
  rw [exec_rettEnd]
  unfold execRettEnd State.rett
  exact issues_issueWith rfl

theorem issues_rdsr (x : CtlOp) (s : State) : Issues (.rdsr x) s := by
  unfold Issues
  rw [exec_rdsr]
  unfold execRdsr
  exact issues_issueIf rfl

theorem issues_wrsr (x : CtlOp) (s : State) : Issues (.wrsr x) s := by
  unfold Issues
  rw [exec_wrsr]
  unfold execWrsr
  exact issues_issueIf rfl

theorem issues_tlbinvAll (x : CtlOp) (s : State) (o : Who) (h : s.who s.cur = some o)
    (hh : o.p.hold ≠ .instr (.tlbinvAll x)) :
    Issues (.tlbinvAll x) s := by
  unfold Issues
  rw [exec_tlbinvAll]
  unfold execTlbinvAll State.tlbinv
  dsimp only
  rw [resume_first h hh]
  exact issues_issueWith rfl

theorem issues_tlbinvAsid (x : CtlOp) (s : State) (o : Who) (h : s.who s.cur = some o)
    (hh : o.p.hold ≠ .instr (.tlbinvAsid x)) :
    Issues (.tlbinvAsid x) s := by
  unfold Issues
  rw [exec_tlbinvAsid]
  unfold execTlbinvAsid State.tlbinv
  dsimp only
  rw [resume_first h hh]
  exact issues_issueWith rfl

theorem issues_tlbinvPage (x : CtlOp) (s : State) (o : Who) (h : s.who s.cur = some o)
    (hh : o.p.hold ≠ .instr (.tlbinvPage x)) :
    Issues (.tlbinvPage x) s := by
  unfold Issues
  rw [exec_tlbinvPage]
  unfold execTlbinvPage State.tlbinv
  dsimp only
  rw [resume_first h hh]
  exact issues_issueWith rfl

theorem issues_assayPut (x : CtlOp) (s : State) : Issues (.assayPut x) s := by
  unfold Issues
  rw [exec_assayPut]
  unfold execAssayPut
  exact issues_issue rfl

theorem issues_assayFrz (x : CtlOp) (s : State) : Issues (.assayFrz x) s := by
  unfold Issues
  rw [exec_assayFrz]
  unfold execAssayFrz
  exact issues_issue rfl

theorem issues_assayRun (x : CtlOp) (s : State) : Issues (.assayRun x) s := by
  unfold Issues
  rw [exec_assayRun]
  unfold execAssayRun
  exact issues_issue rfl

theorem issues_mark (x : CtlOp) (s : State) : Issues (.mark x) s := by
  unfold Issues
  rw [exec_mark]
  unfold execMark
  exact issues_issueWith rfl

theorem issues_logctl (x : CtlOp) (s : State) : Issues (.logctl x) s := by
  unfold Issues
  rw [exec_logctl]
  unfold execLogctl
  exact issues_issue rfl

theorem issues_seqrdTime (x : CtlOp) (s : State) : Issues (.seqrdTime x) s := by
  unfold Issues
  rw [exec_seqrdTime]
  unfold execSeqrdTime
  exact issues_issue rfl

theorem issues_seqrdDseq (x : CtlOp) (s : State) : Issues (.seqrdDseq x) s := by
  unfold Issues
  rw [exec_seqrdDseq]
  unfold execSeqrdDseq
  exact issues_issue rfl

theorem issues_seqrdOrd (x : CtlOp) (s : State) : Issues (.seqrdOrd x) s := by
  unfold Issues
  rw [exec_seqrdOrd]
  unfold execSeqrdOrd
  exact issues_issue rfl

theorem issues_dvreq (x : CtlOp) (s : State) : Issues (.dvreq x) s := by
  unfold Issues
  rw [exec_dvreq]
  unfold execDvreq
  exact issues_issue rfl

theorem issues_haltSave (x : CtlOp) (s : State) (o : Who) (h : s.who s.cur = some o)
    (hh : o.p.hold ≠ .instr (.haltSave x)) :
    Issues (.haltSave x) s := by
  unfold Issues
  rw [exec_haltSave]
  unfold execHaltSave State.halt
  dsimp only
  rw [resume_first h hh]
  exact issues_issue rfl

theorem issues_haltGo (x : CtlOp) (s : State) (o : Who) (h : s.who s.cur = some o)
    (hh : o.p.hold ≠ .instr (.haltGo x)) :
    Issues (.haltGo x) s := by
  unfold Issues
  rw [exec_haltGo]
  unfold execHaltGo State.halt
  dsimp only
  rw [resume_first h hh]
  exact issues_issue rfl

theorem issues_haltReset (x : CtlOp) (s : State) (o : Who) (h : s.who s.cur = some o)
    (hh : o.p.hold ≠ .instr (.haltReset x)) :
    Issues (.haltReset x) s := by
  unfold Issues
  rw [exec_haltReset]
  unfold execHaltReset State.halt
  dsimp only
  rw [resume_first h hh]
  exact issues_issue rfl

theorem issues_haltDevice (x : CtlOp) (s : State) (o : Who) (h : s.who s.cur = some o)
    (hh : o.p.hold ≠ .instr (.haltDevice x)) :
    Issues (.haltDevice x) s := by
  unfold Issues
  rw [exec_haltDevice]
  unfold execHaltDevice State.halt
  dsimp only
  rw [resume_first h hh]
  exact issues_issue rfl

/-- EVERY INSTRUCTION OF THE PROGRAMS issues through the checks, unless its part waits in it already, or its target stops it
(R52, R267). -/
theorem issues_all : ∀ (i : Instr), isEvent i = false → ∀ (s : State) (o : Who), s.who s.cur = some o → o.p.hold ≠ .instr i →
    s.targetFirst i = none → Issues i s
  | .nop x, _, s, _, _, _, _ => issues_nop x s
  | .mov x, _, s, _, _, _, _ => issues_mov x s
  | .movi x, _, s, _, _, _, _ => issues_movi x s
  | .sel x, _, s, _, _, _, _ => issues_sel x s
  | .iadd x, _, s, _, _, _, _ => issues_iadd x s
  | .isub x, _, s, _, _, _, _ => issues_isub x s
  | .imul x, _, s, _, _, _, _ => issues_imul x s
  | .imulh x, _, s, _, _, _, _ => issues_imulh x s
  | .imad x, _, s, _, _, _, _ => issues_imad x s
  | .imin x, _, s, _, _, _, _ => issues_imin x s
  | .imax x, _, s, _, _, _, _ => issues_imax x s
  | .iabs x, _, s, _, _, _, _ => issues_iabs x s
  | .and x, _, s, _, _, _, _ => issues_and x s
  | .or x, _, s, _, _, _, _ => issues_or x s
  | .xor x, _, s, _, _, _, _ => issues_xor x s
  | .not x, _, s, _, _, _, _ => issues_not x s
  | .shl x, _, s, _, _, _, _ => issues_shl x s
  | .shr x, _, s, _, _, _, _ => issues_shr x s
  | .rot x, _, s, _, _, _, _ => issues_rot x s
  | .bfx x, _, s, _, _, _, _ => issues_bfx x s
  | .bfi x, _, s, _, _, _, _ => issues_bfi x s
  | .popc x, _, s, _, _, _, _ => issues_popc x s
  | .clz x, _, s, _, _, _, _ => issues_clz x s
  | .brev x, _, s, _, _, _, _ => issues_brev x s
  | .icmp x, _, s, _, _, _, _ => issues_icmp x s
  | .addc x, _, s, _, _, _, _ => issues_addc x s
  | .lea x, _, s, _, _, _, _ => issues_lea x s
  | .iadd3 x, _, s, _, _, _, _ => issues_iadd3 x s
  | .sati x, _, s, _, _, _, _ => issues_sati x s
  | .fadd x, _, s, _, _, _, _ => issues_fadd x s
  | .fsub x, _, s, _, _, _, _ => issues_fsub x s
  | .fmul x, _, s, _, _, _, _ => issues_fmul x s
  | .ffma x, _, s, _, _, _, _ => issues_ffma x s
  | .fmin x, _, s, _, _, _, _ => issues_fmin x s
  | .fmax x, _, s, _, _, _, _ => issues_fmax x s
  | .fcmp x, _, s, _, _, _, _ => issues_fcmp x s
  | .fclass x, _, s, _, _, _, _ => issues_fclass x s
  | .frnd x, _, s, _, _, _, _ => issues_frnd x s
  | .fcvt x, _, s, _, _, _, _ => issues_fcvt x s
  | .ftoi x, _, s, _, _, _, _ => issues_ftoi x s
  | .itof x, _, s, _, _, _, _ => issues_itof x s
  | .exp2 x, _, s, _, _, _, _ => issues_exp2 x s
  | .log2 x, _, s, _, _, _, _ => issues_log2 x s
  | .rcp x, _, s, _, _, _, _ => issues_rcp x s
  | .rsq x, _, s, _, _, _, _ => issues_rsq x s
  | .sqrt x, _, s, _, _, _, _ => issues_sqrt x s
  | .sin x, _, s, _, _, _, _ => issues_sin x s
  | .cos x, _, s, _, _, _, _ => issues_cos x s
  | .fdot2 x, _, s, _, _, _, _ => issues_fdot2 x s
  | .fpk2 x, _, s, _, _, _, _ => issues_fpk2 x s
  | .fscale x, _, s, _, _, _, _ => issues_fscale x s
  | .fmed3 x, _, s, _, _, _, _ => issues_fmed3 x s
  | .ffrac x, _, s, _, _, _, _ => issues_ffrac x s
  | .hfma2 x, _, s, _, _, _, _ => issues_hfma2 x s
  | .hadd2 x, _, s, _, _, _, _ => issues_hadd2 x s
  | .hmul2 x, _, s, _, _, _, _ => issues_hmul2 x s
  | .qdot4 x, _, s, _, _, _, _ => issues_qdot4 x s
  | .qswz x, _, s, _, _, _, _ => issues_qswz x s
  | .ballot x, _, s, _, _, _, _ => issues_ballot x s
  | .vote x, _, s, _, _, _, _ => issues_vote x s
  | .shfl x, _, s, _, _, _, _ => issues_shfl x s
  | .bcast x, _, s, _, _, _, _ => issues_bcast x s
  | .redux x, _, s, _, _, _, _ => issues_redux x s
  | .scanx x, _, s, _, _, _, _ => issues_scanx x s
  | .match x, _, s, _, _, _, _ => issues_match x s
  | .readlane x, _, s, _, _, _, _ => issues_readlane x s
  | .writelane x, _, s, _, _, _, _ => issues_writelane x s
  | .xshuf x, _, s, _, _, _, _ => issues_xshuf x s
  | .xshufMatch _ _, hi, _, _, _, _, _ => nomatch hi
  | .xshufTimeout _, hi, _, _, _, _, _ => nomatch hi
  | .br x, _, s, _, _, _, hb => issues_br x s hb
  | .brc x, _, s, _, _, _, hb => issues_brc x s hb
  | .stackSpillDone _, hi, _, _, _, _, _ => nomatch hi
  | .brx x, _, s, _, _, _, hb => issues_brx x s hb
  | .call x, _, s, _, _, _, hb => issues_call x s hb
  | .ret x, _, s, _, _, _, hb => issues_ret x s hb
  | .knit x, _, s, _, _, _, _ => issues_knit x s
  | .knitFuse _ _, hi, _, _, _, _, _ => nomatch hi
  | .knitTimeout _ _, hi, _, _, _, _, _ => nomatch hi
  | .implicitKnitFuse _ _, hi, _, _, _, _, _ => nomatch hi
  | .implicitKnitTimeout _ _, hi, _, _, _, _, _ => nomatch hi
  | .cutctl x, _, s, _, _, _, _ => issues_cutctl x s
  | .rep x, _, s, _, _, _, _ => issues_rep x s
  | .lpin x, _, s, _, _, _, _ => issues_lpin x s
  | .exit x, _, s, _, _, _, _ => issues_exit x s
  | .lastExitResume _, hi, _, _, _, _, _ => nomatch hi
  | .waitn x, _, s, _, _, _, _ => issues_waitn x s
  | .waitnRelease _, hi, _, _, _, _, _ => nomatch hi
  | .missCut _, hi, _, _, _, _, _ => nomatch hi
  | .lineWaitRelease _, hi, _, _, _, _, _ => nomatch hi
  | .lineRefetch _, hi, _, _, _, _, _ => nomatch hi
  | .yield x, _, s, _, _, _, _ => issues_yield x s
  | .setfmt x, _, s, _, _, _, _ => issues_setfmt x s
  | .getst x, _, s, _, _, _, _ => issues_getst x s
  | .sleep x, _, s, _, _, _, _ => issues_sleep x s
  | .sleepExpiry _, hi, _, _, _, _, _ => nomatch hi
  | .ld x, _, s, _, _, _, _ => issues_ld x s
  | .st x, _, s, _, _, _, _ => issues_st x s
  | .lds x, _, s, _, _, _, _ => issues_lds x s
  | .ldx x, _, s, _, _, _, _ => issues_ldx x s
  | .stx x, _, s, _, _, _, _ => issues_stx x s
  | .ldw x, _, s, _, _, _, _ => issues_ldw x s
  | .prf x, _, s, _, _, _, _ => issues_prf x s
  | .invl x, _, s, _, _, _, _ => issues_invl x s
  | .invlAll x, _, s, _, _, _, _ => issues_invlAll x s
  | .wbl x, _, s, _, _, _, _ => issues_wbl x s
  | .wblAll x, _, s, _, _, _, _ => issues_wblAll x s
  | .fence x, _, s, _, _, _, _ => issues_fence x s
  | .fenceWaitDone _, hi, _, _, _, _, _ => nomatch hi
  | .fencex x, _, s, _, _, _, _ => issues_fencex x s
  | .fencexWaitDone _, hi, _, _, _, _, _ => nomatch hi
  | .monw x, _, s, _, _, _, _ => issues_monw x s
  | .monwWake _, hi, _, _, _, _, _ => nomatch hi
  | .monwPollExpiry _, hi, _, _, _, _, _ => nomatch hi
  | .atom x, _, s, _, _, _, _ => issues_atom x s
  | .atomc x, _, s, _, _, _, _ => issues_atomc x s
  | .red x, _, s, _, _, _, _ => issues_red x s
  | .atomicStep _ _, hi, _, _, _, _, _ => nomatch hi
  | .fixedOrderResolve _, hi, _, _, _, _, _ => nomatch hi
  | .bcopy x, _, s, _, _, _, _ => issues_bcopy x s
  | .gcopy x, _, s, _, _, _, _ => issues_gcopy x s
  | .scopy x, _, s, _, _, _, _ => issues_scopy x s
  | .copyWritePerformed _ _, hi, _, _, _, _, _ => nomatch hi
  | .copyComplete _, hi, _, _, _, _, _ => nomatch hi
  | .wswrite x, _, s, _, _, _, _ => issues_wswrite x s
  | .wswriteComplete _, hi, _, _, _, _, _ => nomatch hi
  | .wswin x, _, s, _, _, _, _ => issues_wswin x s
  | .wsWindowEnd _ _, hi, _, _, _, _, _ => nomatch hi
  | .cpoll x, _, s, _, _, _, _ => issues_cpoll x s
  | .mcst x, _, s, _, _, _, _ => issues_mcst x s
  | .mred x, _, s, _, _, _, _ => issues_mred x s
  | .mcstDeliveryPerformed _ _ _, hi, _, _, _, _, _ => nomatch hi
  | .macq x, _, s, _, _, _, _ => issues_macq x s
  | .macqGrant _, hi, _, _, _, _, _ => nomatch hi
  | .macqTimeout _, hi, _, _, _, _, _ => nomatch hi
  | .mrel x, _, s, _, _, _, _ => issues_mrel x s
  | .mma x, _, s, _, _, _, _ => issues_mma x s
  | .mmas x, _, s, _, _, _, _ => issues_mmas x s
  | .fmuOperandsConsumed _ _, hi, _, _, _, _, _ => nomatch hi
  | .fmuOpComplete _ _, hi, _, _, _, _, _ => nomatch hi
  | .mfence x, _, s, _, _, _, _ => issues_mfence x s
  | .mwait x, _, s, _, _, _, _ => issues_mwait x s
  | .mwaitRelease _, hi, _, _, _, _, _ => nomatch hi
  | .mrd x, _, s, _, _, _, _ => issues_mrd x s
  | .mwr x, _, s, _, _, _, _ => issues_mwr x s
  | .mdrain x, _, s, _, _, _, _ => issues_mdrain x s
  | .twld x, _, s, _, _, _, _ => issues_twld x s
  | .tmac x, _, s, _, _, _, _ => issues_tmac x s
  | .tdrain x, _, s, _, _, _, _ => issues_tdrain x s
  | .tzero x, _, s, _, _, _, _ => issues_tzero x s
  | .tzeroPlane x, _, s, _, _, _, _ => issues_tzeroPlane x s
  | .taOperandsConsumed _ _, hi, _, _, _, _, _ => nomatch hi
  | .taOpStart _, hi, _, _, _, _, _ => nomatch hi
  | .twldComplete _, hi, _, _, _, _, _ => nomatch hi
  | .tmacComplete _, hi, _, _, _, _, _ => nomatch hi
  | .tdrainComplete _ _, hi, _, _, _, _, _ => nomatch hi
  | .tzeroComplete _, hi, _, _, _, _, _ => nomatch hi
  | .tpack x, _, s, _, _, _, _ => issues_tpack x s
  | .tunpk x, _, s, _, _, _, _ => issues_tunpk x s
  | .tqnt x, _, s, _, _, _, _ => issues_tqnt x s
  | .tstat x, _, s, _, _, _, _ => issues_tstat x s
  | .smp x, _, s, _, _, _, _ => issues_smp x s
  | .smpl x, _, s, _, _, _, _ => issues_smpl x s
  | .smpg x, _, s, _, _, _, _ => issues_smpg x s
  | .gath4 x, _, s, _, _, _, _ => issues_gath4 x s
  | .txld x, _, s, _, _, _, _ => issues_txld x s
  | .ldec x, _, s, _, _, _, _ => issues_ldec x s
  | .samplerComplete _ _, hi, _, _, _, _, _ => nomatch hi
  | .edge x, _, s, _, _, _, _ => issues_edge x s
  | .tileq x, _, s, _, _, _, _ => issues_tileq x s
  | .tileRecordHandout _ _, hi, _, _, _, _, _ => nomatch hi
  | .emit x, _, s, _, _, _, _ => issues_emit x s
  | .rasterAccept _, hi, _, _, _, _, _ => nomatch hi
  | .rtrace x, _, s, _, _, _, _ => issues_rtrace x s
  | .rtraceComplete _ _, hi, _, _, _, _, _ => nomatch hi
  | .rhit x, _, s, _, _, _, _ => issues_rhit x s
  | .imgst x, _, s, _, _, _, _ => issues_imgst x s
  | .imgstComplete _ _, hi, _, _, _, _, _ => nomatch hi
  | .rninv x, _, s, _, _, _, _ => issues_rninv x s
  | .rninvAll x, _, s, _, _, _, _ => issues_rninvAll x s
  | .bari x, _, s, _, _, _, _ => issues_bari x s
  | .bariGroup x, _, s, _, _, _, _ => issues_bariGroup x s
  | .arrive x, _, s, _, _, _, _ => issues_arrive x s
  | .arrdrop x, _, s, _, _, _, _ => issues_arrdrop x s
  | .bwait x, _, s, _, _, _, _ => issues_bwait x s
  | .bwaitPass _, hi, _, _, _, _, _ => nomatch hi
  | .bexpect x, _, s, _, _, _, _ => issues_bexpect x s
  | .qpush x, _, s, _, _, _, _ => issues_qpush x s
  | .qpushResume _, hi, _, _, _, _, _ => nomatch hi
  | .qpop x, _, s, _, _, _, _ => issues_qpop x s
  | .qpopResume _, hi, _, _, _, _, _ => nomatch hi
  | .qtry x, _, s, _, _, _, _ => issues_qtry x s
  | .qallow x, _, s, _, _, _, _ => issues_qallow x s
  | .qallowInit x, _, s, _, _, _, _ => issues_qallowInit x s
  | .gbar x, _, s, _, _, _, _ => issues_gbar x s
  | .gbarComplete _, hi, _, _, _, _, _ => nomatch hi
  | .launch x, _, s, _, _, _, _ => issues_launch x s
  | .grun x, _, s, _, _, _, _ => issues_grun x s
  | .cancelHandle x, _, s, _, _, _, _ => issues_cancelHandle x s
  | .cancelLaunch x, _, s, _, _, _, _ => issues_cancelLaunch x s
  | .cancelPhase x, _, s, _, _, _, _ => issues_cancelPhase x s
  | .cancelJob x, _, s, _, _, _, _ => issues_cancelJob x s
  | .ccwait x, _, s, _, _, _, _ => issues_ccwait x s
  | .ccwaitWake _, hi, _, _, _, _, _ => nomatch hi
  | .ccwaitPollExpiry _, hi, _, _, _, _, _ => nomatch hi
  | .rosb x, _, s, _, _, _, _ => issues_rosb x s
  | .rosbAdmit _, hi, _, _, _, _, _ => nomatch hi
  | .rose x, _, s, _, _, _, _ => issues_rose x s
  | .trap x, _, s, _, _, _, _ => issues_trap x s
  | .brk x, _, s, _, _, _, _ => issues_brk x s
  | .rettReissue x, _, s, _, _, _, _ => issues_rettReissue x s
  | .rettSkip x, _, s, _, _, _, _ => issues_rettSkip x s
  | .rettPc x, _, s, _, _, _, _ => issues_rettPc x s
  | .rettEnd x, _, s, _, _, _, _ => issues_rettEnd x s
  | .rdsr x, _, s, _, _, _, _ => issues_rdsr x s
  | .wrsr x, _, s, _, _, _, _ => issues_wrsr x s
  | .bootctlReadyWrite, hi, _, _, _, _, _ => nomatch hi
  | .tlbinvAll x, _, s, o, h, hh, _ => issues_tlbinvAll x s o h hh
  | .tlbinvAsid x, _, s, o, h, hh, _ => issues_tlbinvAsid x s o h hh
  | .tlbinvPage x, _, s, o, h, hh, _ => issues_tlbinvPage x s o h hh
  | .assayPut x, _, s, _, _, _, _ => issues_assayPut x s
  | .assayFrz x, _, s, _, _, _, _ => issues_assayFrz x s
  | .assayRun x, _, s, _, _, _, _ => issues_assayRun x s
  | .mark x, _, s, _, _, _, _ => issues_mark x s
  | .logctl x, _, s, _, _, _, _ => issues_logctl x s
  | .seqrdTime x, _, s, _, _, _, _ => issues_seqrdTime x s
  | .seqrdDseq x, _, s, _, _, _, _ => issues_seqrdDseq x s
  | .seqrdOrd x, _, s, _, _, _, _ => issues_seqrdOrd x s
  | .dvreq x, _, s, _, _, _, _ => issues_dvreq x s
  | .haltSave x, _, s, o, h, hh, _ => issues_haltSave x s o h hh
  | .haltGo x, _, s, o, h, hh, _ => issues_haltGo x s o h hh
  | .haltReset x, _, s, o, h, hh, _ => issues_haltReset x s o h hh
  | .haltDevice x, _, s, o, h, hh, _ => issues_haltDevice x s o h hh
  | .contextReset _, hi, _, _, _, _, _ => nomatch hi
  | .loadComplete _ _, hi, _, _, _, _, _ => nomatch hi
  | .storePerformed _ _, hi, _, _, _, _, _ => nomatch hi
  | .ldwComplete _ _, hi, _, _, _, _, _ => nomatch hi
  | .prefetchPlaced _ _, hi, _, _, _, _, _ => nomatch hi
  | .l1Evict _ _, hi, _, _, _, _, _ => nomatch hi
  | .pageWalk _ _ _, hi, _, _, _, _, _ => nomatch hi
  | .fltdoneWrite _, hi, _, _, _, _, _ => nomatch hi
  | .partRestore _, hi, _, _, _, _, _ => nomatch hi
  | .faultBufferDrain _, hi, _, _, _, _, _ => nomatch hi
  | .trapBufferDrain _, hi, _, _, _, _, _ => nomatch hi
  | .jobaddrWrite _ _ _, hi, _, _, _, _, _ => nomatch hi
  | .jobIntake _, hi, _, _, _, _, _ => nomatch hi
  | .unitLeaveWaiting _, hi, _, _, _, _, _ => nomatch hi
  | .unitChecking _, hi, _, _, _, _, _ => nomatch hi
  | .phaseStart _, hi, _, _, _, _, _ => nomatch hi
  | .graphNodeStart _ _, hi, _, _, _, _, _ => nomatch hi
  | .weightStage _, hi, _, _, _, _, _ => nomatch hi
  | .groupDispatch _ _, hi, _, _, _, _, _ => nomatch hi
  | .waveDispatch _, hi, _, _, _, _, _ => nomatch hi
  | .groupEnd _, hi, _, _, _, _, _ => nomatch hi
  | .unitEnd _, hi, _, _, _, _, _ => nomatch hi
  | .partSwap _ _, hi, _, _, _, _, _ => nomatch hi
  | .forcedSwap _ _, hi, _, _, _, _, _ => nomatch hi
  | .preempt _, hi, _, _, _, _, _ => nomatch hi
  | .groupRestore _ _, hi, _, _, _, _, _ => nomatch hi
  | .drawWatchdog _, hi, _, _, _, _, _ => nomatch hi
  | .freezeAttach _, hi, _, _, _, _, _ => nomatch hi
  | .freezeRelease _, hi, _, _, _, _, _ => nomatch hi
  | .freezeLimitExpiry _, hi, _, _, _, _, _ => nomatch hi
  | .bpBroadcastWrite _ _ _, hi, _, _, _, _, _ => nomatch hi
  | .hpctlWrite _, hi, _, _, _, _, _ => nomatch hi
  | .profileSample _ _, hi, _, _, _, _, _ => nomatch hi
  | .bucketWindow, hi, _, _, _, _, _ => nomatch hi
  | .qbktWrite _ _ _, hi, _, _, _, _, _ => nomatch hi
  | .requestInject _ _, hi, _, _, _, _, _ => nomatch hi
  | .hostMemRequest _ _ _, hi, _, _, _, _, _ => nomatch hi
  | .backInvalidate _ _, hi, _, _, _, _, _ => nomatch hi
  | .domainRequestIn _, hi, _, _, _, _, _ => nomatch hi
  | .fabricLossResponse _, hi, _, _, _, _, _ => nomatch hi
  | .fabricTimeout _, hi, _, _, _, _, _ => nomatch hi
  | .collOpen _, hi, _, _, _, _, _ => nomatch hi
  | .collClose _, hi, _, _, _, _, _ => nomatch hi
  | .collDeliveryIn _ _, hi, _, _, _, _, _ => nomatch hi
  | .rstreqWrite _ _, hi, _, _, _, _, _ => nomatch hi
  | .coldReset _, hi, _, _, _, _, _ => nomatch hi
  | .warmResetHost _, hi, _, _, _, _, _ => nomatch hi
  | .warmResetFatal _, hi, _, _, _, _, _ => nomatch hi
  | .planisherWindow _, hi, _, _, _, _, _ => nomatch hi
  | .lowRailWindow _ _ _ _, hi, _, _, _, _, _ => nomatch hi
  | .lowRailWake _ _, hi, _, _, _, _, _ => nomatch hi
  | .lowRailWakeDone _ _, hi, _, _, _, _, _ => nomatch hi
  | .dvfsRampEnd _, hi, _, _, _, _, _ => nomatch hi
  | .thermalSample _, hi, _, _, _, _, _ => nomatch hi
  | .tripChange _, hi, _, _, _, _, _ => nomatch hi
  | .trip4PowerOff, hi, _, _, _, _, _ => nomatch hi
  | .deviceTimeWrap, hi, _, _, _, _, _ => nomatch hi
  | .registerWrite _ _, hi, _, _, _, _, _ => nomatch hi
  | .spdmRequest _, hi, _, _, _, _, _ => nomatch hi
  | .configRequest _ _, hi, _, _, _, _, _ => nomatch hi

end Sys2Proof.Machine
end

