-- ==== Sys2Proof/Tests/Slice0.lean ====
section
/-! SUPPORT. Tests of one step or one word, with expected results from the spec's own text and examples; the refusals of
WellFormed; and for every statement with hypotheses a state and operands that meet them. -/

namespace Sys2Proof.Tests

open Sys2Proof Sys2Proof.Machine

set_option Elab.async false

/-! ### Terms -/

def h7 : Hdr := { pneg := false, pred := 7, csel := .uncounted }
/-- Counted by SETA. -/
def hA : Hdr := { h7 with csel := .setA }
def vR (n : Nat) : Src := { neg := false, blane := 0, lmod := 0, cls := .v, num := BitVec.ofNat 8 n }
def sR (n : Nat) : Src := { vR n with cls := .s }
def pR (n : Nat) : Src := { vR n with cls := .p }
def cR (n : Nat) : Src := { vR n with cls := .const }
def dV (n : Nat) : Dst := { cls := .v, num := BitVec.ofNat 8 n }
def dS (n : Nat) : Dst := { dV n with cls := .s }
def dP (n : Nat) : Dst := { dV n with cls := .p }
def dA (n : Nat) : Dst := { dV n with cls := .acc }
def dT (n : Nat) : Dst := { dV n with cls := .tacc }

def alu (t : Ty) : AluOp :=
  { h := h7, sub := 0, dst := dV 2, a := vR 4, b := vR 6, c := vR 8, ty := t, rnd := .rn, sat := false, abs0 := false,
    abs1 := false, aux := 0 }
def alu1 (t : Ty) : AluOp := { alu t with b := Src.none, c := Src.none }
def alu2 (t : Ty) : AluOp := { alu t with c := Src.none }
def lit (t : Ty) : LitOp := { h := h7, ty := t, dst := dV 2, a := Src.none, b := Src.none, imm := 0x1234 }
def xl (c : Nat) : XlOp :=
  { h := h7, sub := 0, dst := dV 2, a := vR 4, b := Src.none, c := Src.none, ctl := BitVec.ofNat 8 c, ty := .i32, minw := 0 }
def flow : FlowOp :=
  { h := h7, link := Dst.none, cond := Src.none, offs := 0, slot := 0, nocut := false, hint := 0 }
def jump : JumpOp := { h := h7, a := sR 8 }
def ctl (imm : Nat) : CtlOp := { h := h7, dst := Dst.none, a := Src.none, b := Src.none, imm := BitVec.ofNat 32 imm }
def eng (m : Nat) : EngOp :=
  { h := h7, dst := Dst.none, a := Src.none, b := Src.none, c := Src.none, mod := BitVec.ofNat 13 m, minw := 0 }
/-- 32 bits at the address in V10 and V11. -/
def mem : MemOp :=
  { h := h7, reg := dV 12, addr := vR 10, off := 0, ord := 0, scope := 0, evict := 0, space := 0, szty := 4 }

/-! ### States -/

/-- One wave of one quad, in control mode, at slot 0 of a line with SETA 0 and SETB 1; eight accumulators and the ternary
array granted; S8 and S9 hold the line's own PC, S10 and S11 the address 0x20_0000, V10 and V11 the same in every lane. -/
def base : State :=
  let s := State.reset.withFetchWord 96 0x1C00
  let s := s.modPart s.cur fun p =>
    { p with line := some { base := 0x100000, bits := lineWith 0x1C00 }, check := false }
  let s := s.modUnit 1 fun u => { u with words := u.words.set 17 0x18 }
  let s := s.modWave s.cur.wave fun w =>
    [(4, 0x100), (6, 1), (8, 0x100004), (10, 0x200000), (12, 0x200100)].foldl
      (fun w e => w.setS e.1 1 (BitVec.ofNat 32 e.2)) (w.setV 10 15 fun _ => 0x200000)
  { s with turns := [] }

def reg (s : State) (f : Wave → Wave) : State := s.modWave s.cur.wave f
def setS (s : State) (r v : Nat) : State := reg s fun w => w.setS r 1 (BitVec.ofNat 32 v)
def setV (s : State) (r : Nat) (f : Nat → Nat) : State := reg s fun w => w.setV r 15 fun l => BitVec.ofNat 32 (f l)
/-- The same in user mode, context 1. -/
def user (s : State) : State := s.modUnit 1 fun u => { u with ctl := false, ctx := 1 }
/-- The state after an instruction or an event. -/
def after (i : Instr) (s : State) : State := match exec i s with | .next t => t | _ => s
/-- The same once the torus has delivered every request. -/
def sent (i : Instr) (s : State) : State := { after i s with net := Net.reset, buckets := [] }

/-- The part that a state names meets `Clear` for an instruction, and `p` holds of it. -/
def ok (s : State) (i : Instr) (slices : Who → List Nat) (p : Who → Bool) : Bool :=
  match s.who s.cur with
  | some o => (match s.verdict o i (inRecord o (slices o)) with | .go => true | _ => false) && p o
  | none => false

theorem ok_clear {s : State} {i : Instr} {sl : Who → List Nat} {p : Who → Bool} (h : ok s i sl p = true) :
    ∃ o, Clear s o i (inRecord o (sl o)) ∧ p o = true := by
  unfold ok at h
  split at h
  · rename_i o ho
    refine ⟨o, Clear.of_verdict ho ?_, by revert h; split <;> simp⟩
    revert h
    split
    · intro _; assumption
    · simp
  · cases h

/-- For instructions without checks of their own. -/
def okAll (s : State) (l : List Instr) : Bool := l.all fun i => ok s i (fun _ => []) fun _ => true

/-- A resident part waits in an instruction, and `p` holds of it. -/
def waits (s : State) (pr : PartRef) (i : Instr) (p : Who → Bool) : Bool :=
  match s.who pr with
  | some o => o.p.hold == .instr i && o.p.status == .resident && p o
  | none => false

theorem waits_spec {s : State} {pr : PartRef} {i : Instr} {p : Who → Bool} (h : waits s pr i p = true) :
    ∃ o, Waits s pr o i ∧ p o = true := by
  unfold waits at h
  split at h
  · rename_i o ho
    simp only [Bool.and_eq_true, beq_iff_eq] at h
    exact ⟨o, ⟨ho, h.1.1, h.1.2⟩, h.2⟩
  · cases h

/-- An operation of a kind is live, and `p` holds of it, its group and its unit. -/
def live (s : State) (id : Nat) (kind : OpKind) (p : Op → Group → WorkUnit → Bool) : Bool :=
  match s.op id with
  | some x =>
    match s.opHome x with
    | some (g, u) => !x.done && x.kind == kind && p x g u
    | none => false
  | none => false

theorem live_spec {s : State} {id : Nat} {kind : OpKind} {p : Op → Group → WorkUnit → Bool} (h : live s id kind p = true) :
    ∃ x g u, Live s id kind x g u ∧ p x g u = true := by
  unfold live at h
  split at h
  · rename_i x hx
    split at h
    · rename_i g u hg
      simp only [Bool.and_eq_true, beq_iff_eq, Bool.not_eq_true'] at h
      exact ⟨x, g, u, ⟨hx, h.1.1, h.1.2, hg⟩, h.2⟩
    · cases h
  · cases h

/-! ### Witnesses: register instructions -/

def one (s : State) (i : Instr) (p : Who → Bool) : Bool := ok s i (fun _ => []) p

theorem witness_MoveAndAddressResults : okAll base [.nop { pneg := false, pred := 7 }, .mov (alu1 .i32), .movi (lit .i32),
    .sel (alu .i32), .lea { lit .i32 with a := sR 10, b := vR 4, imm := 2 }] = true := by decide +kernel

theorem witness_IntegerArithmeticResults : okAll base [.iadd (alu2 .i32), .isub (alu2 .i32), .imul (alu2 .i32),
    .imulh (alu2 .i32), .imad (alu .i32), .imin (alu2 .i32), .imax (alu2 .i32), .iabs (alu1 .i32), .iadd3 (alu .i32),
    .sati (alu1 .i8), .icmp { alu2 .i32 with dst := dP 1 }, .addc { alu .n32 with c := pR 1 },
    .iadd { alu2 .i64 with a := sR 10 }] = true := by decide +kernel

theorem witness_LogicAndShiftResults : okAll base [.and (alu2 .i32), .or { alu2 .i32 with dst := dP 6 }, .xor (alu2 .i64),
    .not (alu1 .i32), .shl (alu2 .i32), .shr (alu2 .i32), .rot (alu2 .i32), .bfx (alu2 .i32), .bfi (alu .i32),
    .popc (alu1 .i32), .clz (alu1 .i64), .brev (alu1 .i32)] = true := by decide +kernel

theorem witness_FloatResults : okAll base [.fadd (alu2 .f32), .fsub (alu2 .f64), .fmul (alu2 .f32), .ffma (alu .f32),
    .fscale (alu2 .f32), .frnd (alu1 .f32), .sqrt (alu1 .f32), .fcmp { alu2 .f32 with dst := dP 1 }, .fmin (alu2 .f32),
    .fmax (alu2 .f32), .fmed3 (alu .f32), .fclass (alu1 .f32), .ffrac (alu1 .f32)] = true := by decide +kernel

theorem witness_ConversionFunctionAndPackedResults : okAll base [.exp2 (alu1 .f32), .log2 (alu1 .f32), .rsq (alu1 .f32),
    .sin (alu1 .f32), .cos (alu1 .f32), .rcp (alu1 .f32), .fcvt { alu1 .f16 with sub := 4 }, .ftoi { alu1 .i32 with sub := 4 },
    .itof (alu1 .f32), .fdot2 (alu .f16), .hfma2 (alu .f16), .hadd2 (alu2 .f16), .hmul2 (alu2 .f16),
    .fpk2 { alu .f32 with sub := 2 }, .qdot4 (alu .i32)] = true := by decide +kernel

theorem witness_CrossLaneResults : okAll base [.qswz (xl 0xB1), .ballot (xl 0), .vote { xl 0 with dst := dP 1 },
    .shfl { xl 3 with b := vR 6, c := vR 8 }, .bcast (xl 0), .redux (xl 0), .scanx (xl 0), .match (xl 0),
    .readlane { xl 0 with dst := dS 20, b := cR 1 }, .writelane { xl 0 with a := sR 4, b := cR 1 }] = true ∧
    (let x : XlOp := { xl 0 with b := sR 4, minw := 6 }
     one base (.xshuf x) fun o =>
      match ((base.begin o (.xshuf x)).enterKey o (base.xkey o x)).units.get o.g.unit with
      | some u => !xshufDead u (base.xkey o x) o.w.group o.w.index
      | none => false) = true := by decide +kernel

/-- The part holds the token of accumulator 0. -/
def held : State := after (.macq { eng 0 with dst := dA 0 }) base

theorem witness_EngineLaneResults :
    one held (.mrd { eng 8 with dst := dV 2, a := vR 4 }) (fun o => cellTrap o 0 false == none) = true ∧
    one base (.tpack { eng 0 with dst := dV 2, a := vR 4, b := vR 6, c := vR 8 }) (fun _ => true) = true ∧
    (let x : EngOp := { eng 0 with dst := dV 2, a := vR 4 }
     one base (.tunpk x) fun o => (maskBits (o.lanes x.h)).all fun l => !unpackBad x (base.tritByte o x l)) = true ∧
    okAll base [.tqnt { eng 4 with dst := dV 2, a := vR 4, b := vR 6 }, .edge { eng 0 with dst := dV 2, a := sR 16, b := vR 4 },
      .edge { eng 0 with dst := dP 1, a := sR 16, b := vR 4 }] = true ∧
    one base (.rhit { eng 0 with dst := dV 16 }) (fun _ => base.ops.isEmpty) = true := by decide +kernel

theorem witness_TqntQuantises : okAll base [.tqnt { eng 4 with dst := dV 2, a := vR 4, b := vR 6 }] = true := by decide +kernel

theorem witness_EdgeWritesCoverage : okAll base [.edge { eng 0 with dst := dP 1, a := sR 16, b := vR 4 }] = true := by
  decide +kernel

theorem witness_ScalarResults :
    okAll base [.seqrdTime { ctl 0 with dst := dS 20 }, .seqrdDseq { ctl 1 with dst := dS 20 },
      .seqrdOrd { ctl 2 with dst := dS 20 }, .getst { ctl 0 with dst := dS 20 }, .cutctl { ctl 0 with dst := dS 20 },
      .logctl { ctl 0x101 with dst := dS 20, a := sR 6 }, .dvreq { ctl 0 with dst := dS 20, a := sR 6, b := cR 15 },
      .wswin { eng 0 with dst := dS 20, a := sR 4 }] = true ∧
    (let x : CtlOp := { ctl 0x100 with dst := dS 20 }
     one base (.rdsr x) fun o => !x.imm.getLsbD 16 && (base.sysReg o (srNum x)).isSome &&
       ((base.begin o (.rdsr x)).sysReg o (srNum x)).isSome) = true ∧
    (let x : CtlOp := { ctl 0x10000 with dst := dS 20 }
     one base (.rdsr x) fun o => x.imm.getLsbD 16 && (base.sysReg o (srNum x)).isSome && (base.sysReg o (srNum x + 1)).isSome &&
       ((base.begin o (.rdsr x)).sysReg o (srNum x)).isSome && ((base.begin o (.rdsr x)).sysReg o (srNum x + 1)).isSome) = true ∧
    one base (.tstat { eng 0 with dst := dS 20 }) (fun o => o.u.taq) = true ∧
    one base (.mfence { eng 0 with dst := dS 20 }) (fun o => (o.w.batches 0).closed.length < 32) = true ∧
    one base (.cpoll { eng 0 with dst := dS 20, a := sR 6 })
      (fun o => base.pollFault o.w.group (o.sreg 6) == none) = true := by decide +kernel

theorem witness_RegisterWrites :
    (let x : CtlOp := { ctl 0 with a := sR 5, b := sR 5 }
     one base (.setfmt x) fun o => fmtLegal (base.setfmtValue o x)) = true ∧
    okAll base [.cutctl { ctl 0 with dst := dS 20 }] = true ∧
    (let x : CtlOp := { ctl 0x101 with dst := dS 20, a := sR 6 }
     one base (.logctl x) fun o => (1 ≤ (base.scalar o x.a 0).toNat && (base.scalar o x.a 0).toNat ≤ 1023) &&
       base.stoppers == []) = true ∧
    (let x : CtlOp := { ctl 0x100 with a := sR 4 }
     one base (.wrsr x) fun o => (base.sysReg o (srNum x)).isSome) = true := by decide +kernel

theorem witness_NegatedOperands : (∃ x : Src, x.neg = true ∧ x.cls = .p) ∧ ∃ x : Src, x.neg = true ∧ x.cls ≠ .p :=
  ⟨⟨{ pR 1 with neg := true }, rfl, rfl⟩, { vR 1 with neg := true }, rfl, by decide⟩

/-! ### Witnesses: steps and control flow -/

/-- `base` with a wave of four quads, sixteen lanes; P1 is true in quad 0, P2 in lanes 0 and 1. -/
def wide : State := reg base fun w =>
  ([4, 5, 6, 8, 9, 10, 11, 12].foldl (fun (w : Wave) r => w.setS r 14 (w.sreg r 0))
    { w with nquads := 4, exited := ~~~ 0xFFFF,
             parts := w.parts.upd 0 fun p => { p with quads := 15, active := 0xFFFF } }).setP 1 0xF (fun _ => true)
    |>.setP 2 0x3 (fun _ => true)

def brc (p : Nat) : FlowOp := { flow with cond := pR p }

/-- Whether a target is legal, its line read and its target bit set. -/
def reaches (s : State) (o : Who) (pc : Dword) : Bool := match s.checkTarget o pc with | (_, .ok q) => q == pc | _ => false
def legalTarget (s : State) (o : Who) (x : FlowOp) : Bool :=
  match flowTarget o.p.pc x with
  | some pc => reaches s o pc
  | none => false

theorem witness_BranchesComplete :
    one base (.br flow) (fun o => legalTarget base o flow) = true ∧
    one base (.call { flow with link := dS 20 }) (fun o => legalTarget base o flow) = true ∧
    one base (.brx jump) (fun o => reaches base o (o.spair 8)) = true ∧
    one base (.ret jump) (fun o => reaches base o (o.spair 8)) = true ∧
    one base (.brc (brc 1)) (fun o => base.takers o (pR 1) == 0) = true ∧
    one base (.brc (brc 7)) (fun o => base.takers o (pR 7) == o.p.active &&& ~~~ o.w.exited && legalTarget base o (brc 7)) = true ∧
    one wide (.brc (brc 1)) (fun o => wide.takers o (pR 1) != 0 && wide.takers o (pR 1) != o.p.active &&& ~~~ o.w.exited &&
      legalTarget wide o (brc 1) && (wide.branchCut o (brc 1) (wide.takers o (pR 1))).isSome) = true ∧
    one wide (.brc (brc 2)) (fun o => wide.takers o (pR 2) != 0 && wide.takers o (pR 2) != o.p.active &&& ~~~ o.w.exited &&
      legalTarget wide o (brc 2) && (wide.branchCut o (brc 2) (wide.takers o (pR 2))).isNone && o.p.stack.length < 8) = true := by
  decide +kernel

/-- In replay, the cut of the BRC at `wide`'s PC is logged after a record of other quads of its wave. -/
def replayed : State :=
  match wide.who wide.cur with
  | some o =>
    let s := wide.modUnit 1 fun u => { u with mode := 3, log := [0, 0, 0x300000, 0, 0, 0, 0, 0] }
    let cut := fun (quads : Nat) => evBytes 0 0 0
      { kind := 0, code := 0, wid := o.wid, part := 0, pc := o.p.pc.toNat, dseq := 0, qmask := quads, data := 0 }
    (s.writeAt (.dev 0x300000) (leBytes 4 2)).writeAt (.dev 0x300040) (cut 256 ++ cut 1)
  | none => wide
theorem witness_BrcComplete_replay : one replayed (.brc (brc 1)) (fun o => legalTarget replayed o (brc 1) &&
    replayed.cutWaits o (brc 1) (replayed.takers o (pR 1)) && !wide.cutWaits o (brc 1) (wide.takers o (pR 1))) = true := by
  decide +kernel

theorem witness_PartMoves : ((base.waves.get base.cur.wave).bind fun w => (w.parts.get base.cur.part).map fun p =>
    p.stack.isEmpty && p.rep.isNone) = some true ∧
    (((after (.rep { flow with cond := sR 4, slot := 2 }) base).waves.get base.cur.wave).bind fun w =>
      (w.parts.get base.cur.part).map fun p => p.stack.isEmpty && p.rep.isSome) = some true := by decide +kernel

/-- Two parts: quad 0 has been cut away. -/
def parted : State := after (.brc (brc 1)) wide

theorem witness_RepeatsAndExitsComplete :
    (let x : FlowOp := { flow with cond := sR 5, slot := 2 }
     one base (.rep x) (fun o => o.p.rep == none && (flowTarget o.p.pc x).isSome && base.scalar o x.cond 0 == 0) = true ∧
     one base (.lpin x) (fun o => o.p.rep == none && base.scalar o x.cond 0 == 0) = true) ∧
    (let x : FlowOp := { flow with cond := sR 4, slot := 2 }
     one base (.rep x) (fun o => o.p.rep == none && base.scalar o x.cond 0 != 0) = true ∧
     one base (.lpin x) (fun o => o.p.rep == none && base.scalar o x.cond 0 != 0) = true) ∧
    (let x : CtlOp := { ctl 0 with h := { h7 with pred := 1 } }
     one wide (.exit x) (fun o => (match wide.exitCheck o x with | (_, .ok _) => true | _ => false) &&
       !lastExit o (o.lanes x.h) && (o.p.quads &&& ~~~ goneQuads o (o.lanes x.h)) != 0) = true) ∧
    one parted (.exit (ctl 0)) (fun o => (match parted.exitCheck o (ctl 0) with | (_, .ok _) => true | _ => false) &&
      !lastExit o (o.lanes h7) && (o.p.quads &&& ~~~ goneQuads o (o.lanes h7)) == 0) = true ∧
    one base (.exit (ctl 0)) (fun o => (match base.exitCheck o (ctl 0) with | (_, .ok _) => true | _ => false) &&
      lastExit o (o.lanes h7) && base.exitWait o == none && (firstFault o).isNone) = true ∧
    (let s := reg base fun w => { w with errs := [{ cls := 0, num := 3, unit := 0, pc := 0, addr := 0, loss := none }] }
     one s (.exit (ctl 0)) (fun o => (match s.exitCheck o (ctl 0) with | (_, .ok _) => true | _ => false) &&
       lastExit o (o.lanes h7) && s.exitWait o == none && (firstFault o).isSome) = true) := by decide +kernel

theorem witness_WaitsComplete :
    one base (.knit (ctl 0)) (fun o => !o.p.late && o.w.parts.length == 1) = true ∧
    (let x : CtlOp := { ctl 3 with a := sR 5 }
     one base (.waitn x) (fun o => (maskBits o.p.quads).all (fun q => base.count o.pr.wave 3 q ≤ (base.scalar o x.a 0).toNat) &&
       (base.raisePending o (fun n => n = 3) o.p.pc).isNone) = true) ∧
    okAll base [.yield (ctl 0)] = true ∧
    one base (.sleep { ctl 0 with a := cR 1 }) (fun o => (base.scalar o (cR 1) 0).toNat ≤ 1) = true ∧
    one base (.sleep { ctl 0 with a := cR 9 }) (fun o => 1 < (base.scalar o (cR 9) 0).toNat) = true ∧
    one base (.fence (ctl 11)) (fun o => base.fenceWaits o (ctl 11) == false) = true ∧
    one base (.fencex (ctl 0x0E0)) (fun o => base.fencexWaits o (ctl 0x0E0) == false) = true := by decide +kernel

/-- A turn of the part of `base`. -/
def turn (a : Act) : Turn := { ns := 5, clk := 3, net := 4, more := [], ext := [], act := a }

/-- The part of a state may issue: the hypotheses of the step's first half. -/
def issuing (s : State) (r : List Turn) (p : State → Who → Bool) : Bool :=
  let c : State := { ({ s with turns := r } : State).begins (turn (.issue s.cur)) with cur := s.cur }
  match c.who s.cur with
  | some o => c.competes o && !c.asleep o && p c o
  | none => false

theorem witness_StepRunsDecodedInstruction :
    issuing base [] (fun c o => o.p.hold == .no && (c.tileFault o).isNone &&
      (match o.p.slotBits with | some w => (match decode w with | .ok _ => true | _ => false) | none => false)) = true ∧
    issuing (base.modPart base.cur fun p => { p with hold := .instr (.tlbinvAll (ctl 0)) }) []
      (fun _ o => o.p.hold == .instr (.tlbinvAll (ctl 0))) = true ∧
    (let s := base.modPart base.cur fun p => { p with line := some { base := 0x100000, bits := lineWith 0x1C1D } }
     issuing s [] (fun c o => o.p.hold == .no && (c.tileFault o).isNone &&
      (match o.p.slotBits with | some w => (match decode w with | .error _ => true | _ => false) | none => false))) = true ∧
    (let s := base.modPart base.cur fun p => { p with line := none }
     issuing s [] (fun c o => o.p.hold == .no && (c.tileFault o).isNone && o.p.slotBits == none &&
      (match (c.enterLine o).who s.cur with
       | some q => q.p.status == .resident && q.p.hold == .no &&
           (match q.p.slotBits with | some w => (match decode w with | .ok _ => true | _ => false) | none => false)
       | none => false))) = true ∧
    (base.begins (turn (.event .bucketWindow))).mayHappen .bucketWindow = true ∧
    ({ base with heat := { base.heat with powered := false } } : State).mayHappen .bucketWindow = false := by decide +kernel

def poke (s : State) (a n v : Nat) : State := s.writeAt (.dev a) (leBytes n v)
/-- A page of 1 GiB at 0 for ASID 1, by three tables from 0x40_0000. -/
def mapped : State := [(0x400000, 0x401001), (0x401000, 0x402001), (0x402000, 3)].foldl (fun s e => poke s e.1 8 e.2)
  (poke base (base.trans.trtab + 16) 8 0x400001)
/-- A part of context 1 whose TLBs hold nothing. -/
def missed : State := (user mapped).modPart base.cur fun p => { p with line := none, check := true }

theorem witness_LineEntry_walk : (match missed.who missed.cur with
    | some o => pcLegal o.p.pc && (pinned o.p (lineBase o.p.pc)).isNone && (missed.fillTlbs o.g.core o.asid [lineBase o.p.pc]).2
    | none => false) = true := by decide +kernel

theorem witness_LineEntry :
    let s := base.modPart base.cur fun p => { p with line := none, check := true }
    let put := fun (l : Line) => s.writeAt (.dev 0x100000) (leBytes 64 l.toNat)
    let finds := fun (s : State) (p : Who → State → Line → Bool) =>
      match s.who s.cur with
      | some o => pcLegal o.p.pc && (pinned o.p (lineBase o.p.pc)).isNone && !(s.fillTlbs o.g.core o.asid [lineBase o.p.pc]).2 &&
          (match (s.look o.g.core o.asid o.p.pc 2 12).fetchLine o (lineBase o.p.pc) with | (t, .line l) => p o t l | _ => false)
      | none => false
    (∃ pc : Dword, pcLegal pc = false) ∧
    finds (put (lineWith 0x1C00 ^^^ 1)) (fun _ _ l => lineOdd l) = true ∧
    finds (put (lineEven (lineWith 0x1C00 ^^^ 0x40000000))) (fun _ _ l => !lineOdd l && lineKind l != 0) = true ∧
    finds (put (lineEven (lineWith 0x1C00 ^^^ 0x20))) (fun o _ l => !lineOdd l && lineKind l == 0 && o.p.check &&
      !(lineTargets l).getLsbD ((slotOf o.p.pc).getD 0)) = true ∧
    finds (put (lineEven (lineWith 0x1C00 ^^^ 0x03000000))) (fun o _ l => !lineOdd l && lineKind l == 0 &&
      (lineTargets l).getLsbD ((slotOf o.p.pc).getD 0) && 12 ≤ lineSetA l && lineSetA l ≤ 14) = true ∧
    finds s (fun o t l => !lineOdd l && lineKind l == 0 && (lineTargets l).getLsbD ((slotOf o.p.pc).getD 0) &&
      lineSetA l == 0 && lineSetB l == 1 && t.maskHolds o (lineMask l) &&
      (t.raisePending o (fun n => (lineMask l).getLsbD n) o.p.pc).isNone) = true ∧
    finds ((after (.ld { mem with h := hA }) base |>.modPart base.cur fun p =>
        { p with line := none, pc := 0x100004 }).writeAt (.dev 0x100000) (leBytes 64 (lineEven (lineWith 0x1C00 ^^^ 0x400)).toNat))
      (fun o t l => !lineOdd l && lineKind l == 0 && !t.maskHolds o (lineMask l)) = true := by
  refine ⟨⟨0, by decide⟩, ?_⟩
  decide +kernel

/-! ### Witnesses: checks before issue, memory and engines -/

def regs (s : State) (l : List (Nat × Nat)) : State := l.foldl (fun s e => setS s e.1 e.2) s
def words (s : State) (l : List (Nat × Word)) : State :=
  s.modUnit 1 fun u => { u with words := l.foldl (fun w e => w.set e.1 e.2) u.words }

/-- What R52's checks find of an instruction that its part does not wait in. -/
def finds (s : State) (i : Instr) (p : Verdict → Bool) : Bool :=
  match s.who s.cur with
  | some o => o.p.hold == .no && p (s.verdict o i [])
  | none => false

def trapsWith (code : Nat) (v : Verdict) : Bool := match v with | .trap t => t.code == code | _ => false
def stallsWith (r : Nat) (v : Verdict) : Bool := match v with | .stall k => k == r | _ => false

def add (h : Hdr) : Instr := .iadd { alu2 .i32 with h := h }

theorem witness_IssueChecksInOrder :
    finds (base.modPart base.cur fun p => { p with line := none }) (add hA) (trapsWith 0x005) = true ∧
    finds base (.nop { pneg := true, pred := 7 }) (fun v => match v with | .nop => true | _ => false) = true ∧
    finds (user base) (.wrsr { ctl 0x100 with a := sR 4 }) (trapsWith 0x006) = true ∧
    finds (words base [(8, 0x00800101)]) (.iadd { alu2 .i32 with dst := dV 8 }) (trapsWith 0x007) = true ∧
    finds base (.qswz { xl 0xB1 with minw := 3 }) (trapsWith 0x008) = true ∧
    finds parted (.qswz { xl 0xB1 with minw := 3 }) (fun v => match v with | .knit n => n == 4 | _ => false) = true ∧
    (let s := after (.ld { mem with h := hA }) base
     finds { s with ops := s.ops.flatMap fun x => List.replicate 63 x } (add hA) (trapsWith 0x009) = true ∧
     finds s (.mov { alu1 .i32 with a := vR 12 }) (stallsWith 3) = true) ∧
    finds (after (.ld { mem with h := hA, ord := 1, scope := 2 }) base) (.st mem) (stallsWith 2) = true ∧
    finds (after (.ld { mem with h := hA, ord := 1, scope := 2 }) base) (.st { mem with reg := dV 20 }) (stallsWith 2) = true ∧
    finds (base.modCore 0 fun c => { c with cur := { c.cur with used := 8192 } }) (add h7) (stallsWith 27) = true ∧
    finds (base.modCore 0 fun c => { c with bp := c.bp.set 0 { pclo := 0x100004, pchi := 0, ctl := 0x80000000, hits := 0 } })
      (add h7) (trapsWith 0x108) = true ∧
    finds (reg base fun w => { w with errs := [{ cls := 0, num := 4, unit := 0, pc := 0, addr := 0, loss := none }] })
      (add h7) (trapsWith 0x601) = true := by decide +kernel

theorem witness_RegisterInstructionsFrame : okAll base [.movi (lit .i32), .qswz (xl 0xB1), .getst { ctl 0 with dst := dS 20 },
    .tpack { eng 0 with dst := dV 2, a := vR 4, b := vR 6, c := vR 8 }, .tqnt { eng 4 with dst := dV 2, a := vR 4, b := vR 6 },
    .edge { eng 0 with dst := dV 2, a := sR 16, b := vR 4 }, .seqrdTime { ctl 0 with dst := dS 20 }] = true ∧
    base.stoppers = [] := by decide +kernel

/-- An access of an instruction passes its checks with pieces, or with none. -/
def access (s : State) (i : Instr) (req : Who → Request) (data : Who → Run → List Byte) (some_ : Bool)
    (p : Who → State → List Piece → Bool) : Bool :=
  ok s i (fun o => sliceUse req o s) fun o =>
    match s.checkAccess o (req o) (data o) with
    | (t, none, .ok ps) => ps.isEmpty != some_ && p o t ps
    | _ => false

def free (_ : Who) (t : State) (_ : List Piece) : Bool := t.stoppers == []
def noData (_ : Who) (_ : Run) : List Byte := []
/-- No lane takes part. -/
def idle : MemOp := { mem with h := { hA with pred := 1 } }
def memA : MemOp := { mem with h := hA }
def atomic : MemOp := { memA with scope := 2, szty := 0 }

theorem witness_MemoryIssueFrame :
    access base (.ld memA) (laneReq memA false) noData true free = true ∧
    access base (.ldx memA) (laneReq memA false) noData true free = true ∧
    access base (.lds { memA with addr := sR 10 }) (partReq { memA with addr := sR 10 } 4) noData true free = true ∧
    access base (.st memA) (laneReq memA true) (fun o => storeRun o memA) true free = true ∧
    access base (.stx memA) (laneReq memA true) (fun o => storeRun o memA) true free = true ∧
    access base (.atom atomic) (atomReq atomic 4) noData true (fun o t _ => t.stoppers == [] && o.u.mode == 0) = true ∧
    access base (.atomc atomic) (atomReq atomic 4) noData true (fun o t _ => t.stoppers == [] && o.u.mode == 0) = true ∧
    access base (.red atomic) (atomReq atomic 4) noData true (fun o t _ => t.stoppers == [] && o.u.mode == 0) = true ∧
    access base (.ld { memA with space := 4 }) (laneReq { memA with space := 4 } false) noData true (fun _ t ps =>
      t.stoppers == [] && t.slices.isEmpty && ps.all fun p => match p.loc with | .ctrl _ => false | _ => true) = true := by
  decide +kernel

def all3 (_ : Who) (_ : State) (_ : List Piece) : Bool := true

theorem witness_AccessesIssue :
    ([true, false].all fun b =>
      let x := if b then memA else idle
      let y := { x with addr := sR 10 }
      access base (.ld x) (laneReq x false) noData b all3 && access base (.ldx x) (laneReq x false) noData b all3 &&
      access base (.st x) (laneReq x true) (fun o => storeRun o x) b all3 &&
      access base (.stx x) (laneReq x true) (fun o => storeRun o x) b all3 &&
      access base (.ldw x) (laneReq x false) noData b (fun o _ _ => ldwTrap o x == none) &&
      one base (.prf x) (fun o => ((base.begin o (.prf x)).quietPieces o x).2.isEmpty != b) &&
      (!b || access base (.lds y) (partReq y 4) noData b all3)) = true := by decide +kernel

theorem witness_AtomicsAndMulticastsIssue :
    ([true, false].all fun b =>
      let x := if b then atomic else { atomic with h := idle.h }
      let ready := fun o (t : State) ps => t.bankReady o ps
      access base (.atom x) (atomReq x 4) noData b ready && access base (.atomc x) (atomReq x 4) noData b ready &&
      access base (.red x) (atomReq x 4) noData b ready) = true ∧
    (let s := (setV base 11 fun _ => 0).modColl (collAddr 0x200000).1 fun c =>
       { c with isOpen := true, wsize := 0x1000000, members := 1 }
     [true, false].all fun b =>
      let x := if b then atomic else { atomic with h := idle.h }
      let y := { x with szty := 4 }
      ok s (.mcst y) (fun o => multiSlices y 4 o s) (fun o => s.collTrap o y 4 == none &&
        (s.multiPieces o y fun l => storeBytes 4 (storeWords o y l)).isEmpty != b) &&
      ok s (.mred x) (fun o => multiSlices x 4 o s) (fun o => s.collTrap o x 4 == none &&
        (s.multiPieces o x fun l => leBytes 4 (atomOperand o x 4 0 l)).isEmpty != b)) = true := by decide +kernel

/-! ### Witnesses: caches, copies, engines -/

def hNone : Hdr := { hA with pred := 1 }

/-- 256 bytes of private memory at 0x30_0000, V10 and V11 zero in every lane. -/
def owned : State := setV (setV (words base [(10, 0x100), (12, 0x300000)]) 10 fun _ => 0) 11 fun _ => 0

/-- A first look at a word by a MONW or a CCWAIT that holds. -/
def looks (s : State) (i : Instr) (sl : Who → List Nat) (chk : Who → State × Except Stop (List Piece))
    (f : Who → State → Piece → Bool) : Bool :=
  ok s i sl fun o => match chk o with
    | (t, .ok [p]) => f o (t.begin o i) p
    | _ => false

/-- Zero in the word and the doubleword at 0x20_0000. -/
def zeroed : State := poke base 0x200000 8 0
/-- The same word in uncorrectable error. -/
def wrecked : State := { zeroed with mem := { zeroed.mem with bad := [.dev 0x200000] } }
def monEq : MemOp := { memA with reg := dS 20, addr := sR 10, scope := 2, szty := 0 }

theorem witness_CacheAndMonitorInstructionsComplete :
    one base (.invl mem) (fun o => match base.invlCheck o mem with | (_, none, .ok ps) => !ps.isEmpty | _ => false) = true ∧
    okAll base [.invlAll mem, .wblAll mem] = true ∧
    ([0, 2].all fun sp =>
      let x := { mem with space := BitVec.ofNat 3 sp }
      let base := if sp = 2 then owned else base
      one base (.wbl x) fun o => match base.checkAccess o (laneReq x false o) (fun _ => []) with
        | (t, none, .ok ps) => !t.storesOut o ps
        | _ => false) = true ∧
    (let x := { monEq with ord := 1 }
     [(x, zeroed, 0), ({ x with ord := 0 }, zeroed, 0), ({ x with scope := 0 }, zeroed, 0), (x, poke zeroed 0x200000 4 1, 1),
      (x, wrecked, 2)].all fun (x, s, k) =>
      looks s (.monw x) (fun o => sliceUse (partReq x (monBytes x)) o s) (s.monCheck · x) fun o b p =>
        let op := memOp o x 0 .load [p]
        let d := ((b.lookOut o op p).readPiece o.g.core o.u.mode x.space.toNat (max 2 op.scope) x.evict.toNat p).2
        b.admits o.g o.u op p false && op.scope != 5 &&
        if k = 2 then d.errs.any fun e => e != 0 else !(d.errs.any fun e => e != 0) && monHolds o x d.data == (k == 0)) = true ∧
    (let y : CtlOp := { ctl 0 with dst := dS 20, a := sR 10, b := sR 22 }
     [(zeroed, y, 0), (zeroed, { y with b := sR 6 }, 1), (wrecked, y, 2)].all fun (s, y, k) =>
      looks s (.ccwait y) (fun o => match s.ccCheck o y with | (_, .ok ps) => pieceSlices ps | _ => []) (s.ccCheck · y) fun o b p =>
        let d := ((b.lookOut o (ccOp o [p]) p).readPiece o.g.core o.u.mode 0 3 0 p).2
        b.admits o.g o.u (ccOp o [p]) p false &&
        if k = 2 then d.errs.any fun e => e != 0
        else !(d.errs.any fun e => e != 0) && decide ((o.sval2 y.b).toNat ≤ leNat d.data) == (k == 0)) = true := by
  decide +kernel

/-- A descriptor of a copy at S24 between two blocks of global memory, its stamp's place and value at S32. -/
def copying : State := regs base [(24, 0x200000), (26, 0x201000), (28, 64), (29, 2), (30, 64), (31, 64), (32, 0x202000),
  (36, 3)]

theorem witness_CopiesIssue :
    (let x : EngOp := { eng 2 with dst := dS 20, a := sR 24, b := sR 32, c := sR 36 }
     let x := { x with mod := 0 }
     let c := regs (words copying [(9, 0x1000)]) [(26, 0), (32, 0x800)]
     one c (.bcopy x) (fun o => match c.copyCheck o x false with | (_, .ok _) => true | _ => false) &&
     one copying (.bcopy { x with mod := 2 }) (fun o => match copying.copyCheck o { x with mod := 2 } false with
      | (_, .ok _) => true | _ => false) &&
     one copying (.gcopy { x with mod := 2 }) (fun o => match copying.copyCheck o { x with mod := 2 } true with
      | (_, .ok _) => true | _ => false) &&
     one copying (.scopy { x with mod := 2 }) (fun o => match copying.copyCheck o { x with mod := 2 } true with
      | (_, .ok _) => true | _ => false)) = true ∧
    (let x : EngOp := { eng 0 with dst := dS 16, a := sR 10, b := sR 4 }
     one base (.wswrite x) fun o => !wsBad (wsArgs o x).1 (wsArgs o x).2.1 (wsArgs o x).2.2 &&
      !base.wsReaders (dieOf o.g.core) && match base.engineMap o (pageRuns (wsArgs o x).2.1 (wsArgs o x).2.2) [] with
        | (_, .ok _) => true | _ => false) = true := by decide +kernel

/-- A local store of 32 KiB; operands at its start and from 0x2000, scales at 0x4000, a single tile of k 32. -/
def matrix (fmt : Nat) : State :=
  (regs (words base [(9, 0x8000)]) [(24, 0), (26, 0x2000), (28, 0x4000), (30, 0x00080008), (31, 32), (34, 0x80)]).modWave
    base.cur.wave fun w => w.setFmt 1 (BitVec.ofNat 32 fmt)

theorem witness_AccumulatorInstructionsComplete :
    one held (.macq { eng 0 with dst := dA 0 }) (fun o => partHolds o 0) = true ∧
    (let x : EngOp := { eng 0 with dst := dA 0 }
     one base (.macq x) fun o => !partHolds o 0 && (base.begin o (.macq x)).mayGrant o 0 &&
       ((base.begin o (.macq x)).macqWaiters o.w.group 0).isEmpty) = true ∧
    one held (.mrel { eng 0 with dst := dA 0 }) (fun o => partHolds o 0) = true ∧
    one held (.mwr { eng 8 with dst := dA 0, a := vR 4, b := vR 6 }) (fun o => cellTrap o 0 false == none) = true ∧
    (let x : EngOp := { eng 0 with dst := dA 0, a := sR 24 }
     let s := after (.mfence { eng 0 with dst := dS 20 }) (after (.mma x) (matrix 0x1440))
     -- batch 1 closed with the MMA outstanding, and with none outstanding
     let y : EngOp := { eng 0 with a := sR 6 }
     [s, { s with ops := [] }].any fun s => one s (.mwait y) fun o =>
       waitRow (o.w.batches (s.mwaitArgs o y).1).closed (s.mwaitArgs o y).2 != .range &&
       s.batchDone o.pr.wave (s.mwaitArgs o y).1 (s.mwaitArgs o y).2) = true := by decide +kernel

/-- A check that answers with the mapped runs. -/
def maps (r : State × Except Stop (List Mapped)) : Bool := match r with | (_, .ok _) => true | _ => false

theorem witness_MatrixInstructionsIssue :
    (let x : EngOp := { eng 0 with dst := dA 0, a := sR 24 }
     one (matrix 0x1440) (.mma x) fun o => maps ((matrix 0x1440).mmaCheck o x false)) = true ∧
    (let x : EngOp := { eng 0 with dst := dA 0, a := sR 24 }
     let s := matrix 0x41440
     one s (.mmas x) fun o => maps (s.mmaCheck o x true)) = true ∧
    (let x : EngOp := { eng 1 with dst := dA 0, a := sR 24, b := sR 34 }
     one (matrix 0x1440) (.mdrain x) fun o => maps ((matrix 0x1440).drainCheck o x)) = true ∧
    (let x : EngOp := { eng 1 with a := sR 10 }
     one base (.twld x) fun o => maps (base.taCheck o (twldBad o x) (twldTrap o x)
      (if twldGlobal x then pageRuns (o.spair x.a.num.toNat) 13312 else []) [])) = true ∧
    (let x : EngOp := { eng 0 with dst := dT 0, a := sR 24 }
     let s := regs (matrix 0) [(25, 0x00020100)]
     one s (.tmac x) fun o => maps (s.taCheck o (tmacBad o x) none [] [])) = true ∧
    (let x : EngOp := { eng 0x20 with dst := dT 0, a := sR 24 }
     let s := regs (matrix 0) [(24, 0x200000), (25, 0), (26, 0x400), (27, 0x4000), (28, 0x5000), (29, 2)]
     one s (.tdrain x) fun o => maps (s.taCheck o (drainDesc o x).bad none []
      (if (drainDesc o x).tile.glob then (drainDesc o x).tile.pages else []))) = true ∧
    (one base (.tzero { eng 0 with dst := dT 0 }) fun o => maps (base.taCheck o false none [] [])) = true ∧
    (one base (.tzeroPlane { eng 1 with dst := dT 0 }) fun o => maps (base.taCheck o false none [] [])) = true := by
  decide +kernel

/-- A texture descriptor at S16 of 16 by 16 texels of format 1 at 0x20_0000, and a sampler of zeros at S5. -/
def textured : State := regs base [(16, 0x200000), (17, 0), (18, 0x000F000F), (19, 0x10), (20, 0), (21, 0), (22, 0), (23, 0)]
def tiles16 : State :=
  let s := words base [(0, 0x00200000)]
  reg s fun w => { w with nquads := 16, exited := 0 }

theorem witness_GraphicsInstructionsComplete :
    ([h7, hNone].all fun h =>
      let x : EngOp := { eng 0 with h := h, dst := dV 24, a := vR 12, b := sR 16, c := sR 5 }
      let legal := fun o : Who => (o.lanes h == 0) == (h == hNone) && !texBad (texWords o x.b) && !smpBad (o.sreg 5)
      let s := textured
      one s (.smp x) legal && one s (.smpl x) legal && one s (.smpg x) legal && one s (.gath4 x) legal &&
      one s (.txld { x with c := Src.none }) legal &&
      one s (.ldec { x with b := vR 6, c := sR 10 }) (fun o => (o.spair 10).toNat % 64 == 0) &&
      one s (.rtrace { x with a := vR 12, b := sR 10, c := Src.none }) (fun o => (o.spair 10).toNat % 64 == 0)) = true ∧
    (let x : EngOp := { eng 0 with a := vR 4, b := vR 12, c := sR 16 }
     one textured (.imgst x) fun o => !texBad (texWords o x.c) && texFmt (texWords o x.c) != 0 && !(imgTexels o x).isEmpty &&
      maps (textured.engineMap o [] ((imgTexels o x).map fun t => { lane := some t.1, off := 0, va := t.2.1, len := t.2.2.length })))
      = true ∧
    (let s := words base [(0, 0x00100000)]
     one s (.emit { eng 0 with a := vR 12 }) fun o => o.u.kindCode == 1 && o.w.parts.length ≤ 1 &&
      o.lanes h7 != 0) = true ∧
    (let x : EngOp := { eng 0 with dst := dS 20 }
     one tiles16 (.tileq x) (fun o => tileqTrap o tiles16 == none && o.w.tile.map (·.words) != some endRec.words)) = true ∧
    (let x : EngOp := { eng 0 with dst := dS 20 }
     let s := reg tiles16 fun w => { w with tile := some endRec }
     one s (.tileq x) (fun o => tileqTrap o s == none && o.w.tile.map (·.words) == some endRec.words)) = true ∧
    (let ok' := fun o => match rninvCheck o base with | (_, .ok _) => true | _ => false
     one base (.rninv { ctl 0 with a := sR 10 }) ok' && one base (.rninvAll (ctl 1)) ok') = true := by decide +kernel

/-! ### Witnesses: synchronisation and system instructions -/

/-- A local store of 32 KiB, S24 0x400 in it. -/
def local_ : State := regs (words base [(9, 0x8000)]) [(24, 0x400)]
def onBarr : CtlOp := { ctl 0 with dst := dS 20, a := sR 24, b := cR 1 }
/-- After BARI for one quad; after its one quad has arrived too. -/
def barred : State := after (.bari onBarr) local_
def passed : State := after (.arrive onBarr) barred
def admitsBarr (s : State) (o : Who) : Bool := s.lsAdmits o 0x400 16 true

theorem witness_BarrierInstructionsComplete :
    one local_ (.bari onBarr) (fun o => admitsBarr local_ o && (local_.barrPlace o 0x400).isNone &&
      (local_.scalar o (cR 1) 0).toNat == 1) = true ∧
    one local_ (.bariGroup onBarr) (fun o => admitsBarr local_ o && (local_.barrPlace o 0x400).isNone &&
      (local_.mates o).all fun w => (w.2.regs.filter fun r => r.addr != 0x400).length < 8) = true ∧
    one barred (.arrive onBarr) (fun o => admitsBarr barred o && (barred.arriveTrap o onBarr).isNone && !barred.accessesOut o) =
      true ∧
    one barred (.arrdrop onBarr) (fun o => admitsBarr barred o && (barred.barrTrap o onBarr).isNone && !barred.accessesOut o) =
      true ∧
    one barred (.bexpect onBarr) (fun o => admitsBarr barred o && (barred.barrTrap o onBarr).isNone &&
      (barred.readBarr o.w.group 0x400).pend + 1 < 2 ^ 32) = true ∧
    (let x : CtlOp := { onBarr with b := sR 5 }
     one passed (.bwait x) (fun o => admitsBarr passed o && (passed.barrTrap o x).isNone &&
      (passed.readBarr o.w.group 0x400).phase != (passed.scalar o x.b 0).toNat && passed.barrFault o x == (passed, none))) =
      true ∧
    (let b : Barr := { arrq := 1, expq := 1, phase := 65535, dropq := 0, pend := 0, ovf := 0 }
     b.settle = { b with arrq := 0, phase := 0 } ∧ { b with arrq := 0 }.settle = { b with arrq := 0 }) := by decide +kernel

def onQueue : CtlOp := { ctl 0 with dst := dS 20, a := sR 24, b := cR 4 }
def grant : CtlOp := { ctl 0 with a := cR 2, b := cR 0 }
def pushOp : CtlOp := { ctl 0 with a := cR 9 }
def popOp : CtlOp := { ctl 0 with dst := dS 20 }
def empty_ : State := after (.qallowInit onQueue) local_
def granted : State := after (.qallow grant) empty_
def filled : State := after (.qpush pushOp) granted

def queueIs (o : Who) (x : CtlOp) (p : Queue → Bool) : Bool := match o.queue x with | some q => p q | none => false

theorem witness_QueueInstructionsComplete :
    one local_ (.qallowInit onQueue) (fun o => (local_.ringTrap o onQueue).isNone) = true ∧
    one empty_ (.qallow grant) (fun o => !empty_.accessesOut o && queueIs o grant fun q => q.count + q.granted + 2 ≤ q.cap) =
      true ∧
    one granted (.qpush pushOp) (fun o => !granted.accessesOut o && queueIs o pushOp fun q =>
      (granted.begin o (.qpush pushOp)).canPush o q) = true ∧
    one filled (.qpop popOp) (fun o => queueIs o popOp fun q => (filled.begin o (.qpop popOp)).canPop o q) = true ∧
    one empty_ (.qtry popOp) (fun o => empty_.mayQueue o && queueIs o popOp fun q => q.count == 0) = true ∧
    one filled (.qtry popOp) (fun o => filled.mayQueue o && queueIs o popOp fun q => q.count != 0 &&
      filled.lsAdmits o (q.slot q.head) 4 false) = true := by decide +kernel

/-- A pixel launch's wave of sixteen quads with the first record of its stream. -/
def rastered (held : Bool) : State :=
  regs (reg tiles16 fun w => { w with tile := some { words := [0], ticket := 0, held := held, done := false } }) [(24, 0), (27, 0)]
def mineOf (o : Who) : Bool := o.w.tile.isSome

theorem witness_OrderAndWorkInstructionsComplete :
    one base (.gbar (ctl 0)) (fun o => o.u.allFit && !base.accessesOut o) = true ∧
    (let x : CtlOp := { ctl 0 with a := sR 24 }
     one (rastered false) (.rosb x) (fun o => (rosbTrap o x).isNone && match o.w.tile with
      | some t => ((rastered false).begin o (.rosb x)).rosDue o t | none => false)) = true ∧
    one (rastered true) (.rose (ctl 0)) (fun o => (streamTrap o).isNone && !(rastered true).accessesOut o &&
      match o.w.tile with | some t => t.held | none => false) = true ∧
    (let x : CtlOp := { ctl 0 with dst := dS 20, a := sR 10 }
     one base (.launch x) (fun o => base.launchesLive o < 4096 && !base.anyOut o && match base.readFor o (o.spair 10) 256 with
      | (_, .ok _) => true | _ => false) &&
     one base (.grun x) (fun o => base.runsLive o.u.ctl o.u.ctx < 1024 && !base.anyOut o && match base.graphFor o (o.spair 10) with
      | (_, .ok _) => true | _ => false)) = true ∧
    okAll base [.cancelHandle { ctl 0 with a := cR 1 }, .cancelLaunch (ctl 1), .cancelPhase (ctl 2), .cancelJob (ctl 3)] = true ∧
    (let x : XlOp := { xl 0 with b := sR 4, minw := 6 }
     one base (.xshuf x) fun o => match ((base.begin o (.xshuf x)).enterKey o (base.xkey o x)).units.get o.g.unit with
      | some u => !xshufDead u (base.xkey o x) o.w.group o.w.index
      | none => false) = true := by decide +kernel

/-- Another wave of the group whose part is trapped with id 5 at 0x10_0010. -/
def trapped (code : Nat) : State :=
  match base.waves.get base.cur.wave with
  | some w =>
    { base with waves := base.waves.put 9 { w with
        parts := w.parts.upd 0 fun p => { p with status := .trapped 5 0x100010 code, hold := .no } } }
  | none => base
def rett (id : Nat) : CtlOp := { ctl 0 with dst := dS 20, a := sR id, b := sR 8 }

theorem witness_TrapsAndReturns :
    okAll base [.brk (ctl 7)] = true ∧
    ([sR 4, vR 4].all fun a => one base (.trap { ctl 7 with a := a }) fun o => o.lanes h7 != 0 && (a.cls == .v) == (a == vR 4)) =
      true ∧
    one base (.trap { ctl 7 with h := hNone }) (fun o => o.lanes hNone == 0) = true ∧
    (base.stoppers == [] && (base.who base.cur).isSome && ((base.modPart base.cur fun p =>
      { p with status := .stopping (TrapInfo.plain 0x107 0x100004) base.time, hold := .no, stall := 0 }).who base.cur).isSome) = true ∧
    ([(Instr.rettReissue (rett 4), false), (.rettSkip (rett 4), false), (.rettPc (rett 4), false), (.rettEnd (rett 4), true)].all
      fun e => one base e.1 fun o => !base.rettWaits o (o.sreg 4) e.2 && ((base.begin o e.1).trappedBy (o.sreg 4)).isNone) = true ∧
    ([0x107, 0x003].all fun c =>
      let s := regs (trapped c) [(7, 5)]
      [(Instr.rettReissue (rett 7), false), (.rettSkip (rett 7), false), (.rettPc (rett 7), false), (.rettEnd (rett 7), true)].all
        fun e => one s e.1 fun o => !s.rettWaits o (o.sreg 7) e.2 && match (s.begin o e.1).trappedBy (o.sreg 7) with
          | some (_, _, k) => k == c | none => false) = true := by decide +kernel

theorem witness_TrapEntry :
    (match base.who base.cur with
     | some o => o.u.ctl && base.trapRoom o.g.core 0 && (base.waves.get o.pr.wave == some o.w) &&
        (o.w.parts.get o.pr.part == some o.p) &&
        (let s := poke base base.tables.tqtab 8 0x00300041
         (s.trapQueue 0).isSome && s.trapRoom o.g.core 0 &&
         (let s1 := (s.flushSigs o).unpin o
          s1.nextSerial.1.savePart o 2 s1.nextSerial.2).2)
     | none => false) = true := by decide +kernel

theorem witness_TlbinvComplete :
    (let ends := fun (i : Instr) (asid : Option Nat) (va : Dword) => one base i fun o => !base.anyOut o && o.p.hold != .instr i &&
      (tlbTrap o asid va).isNone && !((base.begin o i).dropEntries fun _ => true).translatedOut asid base.fresh
     let x : CtlOp := { ctl 0 with a := cR 1, b := sR 10 }
     ends (.tlbinvAll x) none 0 && ends (.tlbinvAsid x) (some 1) 0 && ends (.tlbinvPage x) (some 1) 0x200000) = true ∧
    (let s := after (.st { mem with scope := 2 }) base
     let x : CtlOp := { ctl 0 with a := cR 1, b := sR 10 }
     let t := s.modPart s.cur fun p => { p with prior := [] }
     one t (.tlbinvAll x) fun o => !t.anyOut o && ((t.begin o (.tlbinvAll x)).dropEntries fun _ => true).translatedOut none t.fresh) =
      true := by decide +kernel

/-- Context 1 has a valid descriptor. -/
def context1 : State := poke { base with mem := { base.mem with gddr := [], l2 := [] } } (base.tables.cxtab + 64) 64 1

def part (s : State) (f : Part → Part) : State := s.modPart s.cur f
/-- The part waits in an instruction. -/
def within (s : State) (i : Instr) : State := part s fun p => { p with hold := .instr i, stall := 2 }
def waitsHere (s : State) (i : Instr) (p : Who → Bool) : Bool := waits (within s i) s.cur i p

/-- Where every group and every unit is of control mode, HALT.DEVICE has nothing to save. -/
theorem haltAll_done (s : State) (h : (s.groups.all fun g => (s.unitOf g.2).ctl) = true)
    (hu : (s.units.all fun u => u.2.ctl) = true) : (s.haltAll.validCtxs.all s.haltAll.haltDone) = true := by
  have keep : ∀ (l : List Nat) (t : State), (∀ n, t.ctxGroups n = []) → ∀ n, (l.foldl State.haltCtx t).ctxGroups n = [] := by
    intro l
    induction l with
    | nil => exact fun _ h => h
    | cons a l ih =>
      refine fun t h => ih _ fun n => ?_
      have e : (t.modCtx a fun c => { c with halted := true }).ctxGroups = t.ctxGroups := rfl
      simp [State.haltCtx, e, h]
  have none_ : ∀ n, s.ctxGroups n = [] := by
    intro n
    simp only [State.ctxGroups, List.filter_eq_nil_iff]
    intro g hg
    simp [List.all_eq_true.1 h g hg]
  have same : ∀ (l : List Nat) (t : State), (∀ n, t.ctxGroups n = []) → (l.foldl State.haltCtx t).units = t.units := by
    intro l
    induction l with
    | nil => exact fun _ _ => rfl
    | cons a l ih =>
      intro t ht
      have e : (t.modCtx a fun c => { c with halted := true }).ctxGroups = t.ctxGroups := rfl
      have e1 : State.haltCtx t a = t.modCtx a fun c => { c with halted := true } := by simp [State.haltCtx, e, ht]
      exact (ih _ fun n => by rw [e1, e, ht]).trans (by rw [e1]; rfl)
  simp only [State.haltDone, State.haltAll, keep _ _ none_, same _ _ none_, List.all_eq_true, List.all_nil, Bool.true_and,
    Bool.not_eq_true', List.any_eq_false]
  intro n _ u hmem
  simp [List.all_eq_true.1 hu u hmem]
theorem noneWaiting (s : State) (h : (s.groups.all fun g => (s.unitOf g.2).ctl) = true)
    (hu : (s.units.all fun u => u.2.ctl) = true) : s.validCtxs.all s.haltDone = true := by
  have none_ : ∀ n, s.ctxGroups n = [] := by
    intro n
    simp only [State.ctxGroups, List.filter_eq_nil_iff]
    intro g hg
    simp [List.all_eq_true.1 h g hg]
  simp only [State.haltDone, none_, List.all_eq_true, List.all_nil, Bool.true_and, Bool.not_eq_true', List.any_eq_false]
  intro n _ u hmem
  simp [List.all_eq_true.1 hu u hmem]

theorem witness_RecordAndHaltInstructionsComplete :
    okAll base [.assayPut (ctl 0x100), .assayFrz (ctl 0), .assayRun (ctl 0)] = true ∧ base.stoppers = [] ∧
    one base (.mark { ctl 5 with a := sR 4 }) (fun o => (base.replayNext o.u o.g.core o.wid).isNone) = true ∧
    (let x : CtlOp := { ctl 0 with dst := dS 20, a := cR 1 }
     let s := context1
     [Instr.haltSave x, .haltGo x, .haltReset x].all fun i => one base i (fun o => !base.ctxValid 1 && o.p.hold == .no) &&
      one s i fun o => o.p.hold == .no && (s.scalar o x.a 0).toNat == 1 && s.ctxValid 1 &&
        ((s.begin o (.haltSave x)).haltCtx 1).haltDone 1) = true ∧
    (let x : CtlOp := { ctl 0 with dst := dS 20 }
     one base (.haltDevice x) fun o => o.p.hold == .no &&
      ((base.begin o (.haltDevice x)).groups.all fun g => ((base.begin o (.haltDevice x)).unitOf g.2).ctl) &&
      (base.begin o (.haltDevice x)).units.all fun u => u.2.ctl) = true ∧
    (∀ s : State, (s.groups.all fun g => (s.unitOf g.2).ctl) = true → (s.units.all fun u => u.2.ctl) = true →
      (s.haltAll.validCtxs.all s.haltAll.haltDone) = true ∧ s.validCtxs.all s.haltDone = true) ∧
    (let x : CtlOp := { ctl 0 with dst := dS 20, a := cR 1 }
     [Instr.haltSave x, .haltReset x, .haltDevice x].all fun i => waitsHere base i fun o => (base.scalar o x.a 0).toNat == 1 &&
       (within base i).haltDone 1 && (within base i).resetDone 1 &&
       ((within base i).groups.all fun g => ((within base i).unitOf g.2).ctl) && (within base i).units.all fun u => u.2.ctl) =
      true := by
  refine ⟨?_, ?_, ?_, ?_, ?_, fun s h hu => ⟨haltAll_done s h hu, noneWaiting s h hu⟩, ?_⟩ <;> decide +kernel

/-! ### Witnesses: events of parts that wait -/

def self (s : State) (h : Hold) (p : Who → Bool) : Bool :=
  match (part s fun p => { p with hold := h }).who s.cur with
  | some o => o.p.status == .resident && p o
  | none => false
def fetches (s' : State) (odd : Bool) : Bool :=
  let s := part s' fun p => { p with line := none }
  self s .refetch fun o => (pinned o.p (lineBase o.p.pc)).isNone &&
  !((part s fun p => { p with hold := .refetch }).fillTlbs o.g.core o.asid [lineBase o.p.pc]).2 &&
  match (((part s fun p => { p with hold := .refetch }).look o.g.core o.asid o.p.pc 2 12).fetchLine o (lineBase o.p.pc)).2 with
    | .line b => lineOdd b == odd && lineKind b == 0 | _ => false

theorem witness_WaitingPartsGoOn :
    self base .lineMask (fun o => match o.p.line with
      | some l => base.maskHolds o (lineMask l.bits) && (base.raisePending o (fun n => (lineMask l.bits).getLsbD n) o.p.pc).isNone
      | none => false) = true ∧
    (let s := poke base 0x100000 64 (lineWith 0x1C00).toNat
     fetches s false && fetches (poke s 0x10003F 1 (leNat (s.bytesAt (.dev 0x10003F) 1) ^^^ 1)) true) = true ∧
    (let x : CtlOp := { ctl 3 with a := sR 5 }
     waitsHere base (.waitn x) fun o => (maskBits o.p.quads).all (fun q => base.count o.pr.wave 3 q ≤ o.p.arg.toNat) &&
       (base.raisePending o (fun n => n = 3) o.p.pc).isNone) = true ∧
    (waitsHere base (.sleep { ctl 0 with a := cR 9 }) fun o => o.p.timer == 0) = true ∧
    (waitsHere base (.fence (ctl 11)) fun o => !base.fenceWaits o (ctl 11)) = true ∧
    (waitsHere base (.fencex (ctl 0x0E0)) fun o => !base.fencexWaits o (ctl 0x0E0)) = true ∧
    (let y : EngOp := { eng 0 with a := sR 6 }
     waitsHere base (.mwait y) fun o => base.batchDone o.pr.wave (y.mod.toNat % 4) o.p.timer) = true ∧
    (let x : EngOp := { eng 0 with dst := dA 0 }
     let s := within base (.macq x)
     waitsHere base (.macq x) (fun o => s.mayGrant o 0 && (s.macqWaiters o.w.group 0).all fun q => o.p.stamp ≤ q.2.stamp) &&
     waitsHere held (.macq x) (fun o => o.p.timer == 0 && !fmuHolds o.g 0)) = true ∧
    (let s := reg base fun w => { w with errs := [{ cls := 0, num := 3, unit := 0, pc := 0, addr := 0, loss := none }] }
     [(base, false), (s, true)].all fun e => waitsHere e.1 (.exit (ctl 0)) fun o => lastExit o (o.lanes h7) &&
       (e.1.exitWait o).isNone && (firstFault o).isSome == e.2) = true := by decide +kernel

/-- A stack of n entries. -/
def stacked (n : Nat) : State := part base fun p =>
  { p with stack := (List.range n).map fun i => { pc := BitVec.ofNat 64 (0x100010 + 64 * i), mask := 1, fmt := 0 } }

theorem witness_SpillsAndMissCuts :
    (let r := fun (n : Nat) => part (stacked n) fun p => { p with hold := .spill false }
     let lost := (stacked 9).modUnit 1 fun u => { u with words := u.words.set 15 0x80 }
     [9, 64].all (fun n => self (stacked n) (.spill true) (fun o =>
       ((part (stacked n) fun p => { p with hold := .spill true }).writeDeep o).2) &&
       self (stacked n) (.spill false) (fun o => match (r n).devRead o.asid (o.stackAt (n - 8)) 2 with
         | (u, .ok _) => (u.writeDeep o).2 | _ => false)) &&
     self lost (.spill true) (fun o => !((part lost fun p => { p with hold := .spill true }).writeDeep o).2)) =
      true ∧
    (let x : CtlOp := { ctl 0 with a := sR 5 }
     let m : MemOp := { mem with h := { h7 with pred := 1, csel := .setA } }
     let l := after (.ld m) wide
     let s := within (part (reg { l with ops := l.ops.map fun y => { y with quads := 1 } } fun w => w.setCutp 0xF 2) fun p =>
      { p with timer := 0 }) (.waitn x)
     waits s s.cur (.waitn x) fun o =>
      let q := s.satisfied o 0 (s.scalar o x.a 0).toNat
      q != 0 && q != o.p.quads && o.p.timer == 0 && o.cutp.getLsbD 1 && !s.reserveOut s.cur.wave &&
      s.replayAllows s.cur.wave 1 q && match s.freeSlot o.u o.g.unit o.g.core o.w.sched with
        | some k =>
          let t := (s.cut o q o.p.pc o.p.pc 1 k).modPart { wave := s.cur.wave, part := lowQuad (o.p.quads &&& ~~~ q) } fun r =>
            { r with timer := 2 ^ (o.cutp.toNat / 16 % 16) }
          (t.who { wave := s.cur.wave, part := lowQuad q }).isSome
        | none => false) = true := by decide +kernel

/-- The two parts of `parted` at one PC, one or both of them in an episode that needs `need` quads. -/
def episode (impl : Bool) (l : List Nat) (need : Nat) : State := reg parted fun w =>
  { w with parts := w.parts.map fun p => (p.1, { p.2 with pc := 0x100010, hold := if impl then .width (.qswz { xl 0xB1 with minw := 3 }) else .instr (.knit (ctl 0)) }),
           eps := [{ pc := 0x100010, impl := impl, parts := l, timer := 0, need := need }] }

def fuses (s : State) (impl : Bool) (code : Nat) (p : Wave → Episode → Episode → State → PartRef → List Nat → Who → Bool) : Bool :=
  match s.episodeAt s.cur.wave 0x100010 impl with
  | some (w, e) =>
    let k := s.logged s.cur.wave w e
    k.here w && s.replayAllows s.cur.wave code (episodeQuads w k) &&
      match (s.leaveKnit s.cur.wave e k).fuse s.cur.wave k code with
      | (t, pr, bad) => match t.who pr with | some o => p w e k t pr bad o | none => false
  | none => false

/-- The second part of an episode differs in its stack. -/
def apart (s : State) : State := s.modPart { s.cur with part := 1 } fun p => { p with stack := [{ pc := 0x100010, mask := 0, fmt := 0 }] }

theorem witness_KnitsFuse :
    (fuses (episode false [0, 1] 0) false 3 fun w e k _ _ _ _ => e.full w && e.here w && k == e) = true ∧
    (let s := episode false [1] 0
     fuses s false 4 fun w e _ t pr bad _ => e.timer == 0 && !e.full w && !s.reserveOut s.cur.wave &&
      let u := t.lateRest s.cur.wave (pr.part :: bad)
      (u.who pr).isSome) = true ∧
    (fuses (episode true [0, 1] 4) true 6 fun w _ k _ _ _ o => k.meets w && k.needs w ≤ maskCount o.p.quads) = true ∧
    (fuses (apart (episode true [0, 1] 4)) true 6 fun w _ k _ _ _ o => k.meets w && maskCount o.p.quads < k.needs w) = true ∧
    (let s := episode true [1] 4
     fuses s true 7 fun w e k _ _ _ _ => e.timer == 0 && !s.reserveOut s.cur.wave && !k.meets w) = true := by decide +kernel

def monHere (s : State) (i : Instr) (chk : State → Who → State × Except Stop (List Piece)) (f : Who → State → Piece → Bool) : Bool :=
  waits (within s i) s.cur i fun o => o.p.timer == 0 && match chk (within s i) o with
    | (t, .ok [q]) => (match q.loc with | .host _ => false | _ => true) && f o t q
    | _ => false

/-- The part waits in an XSHUF of a key with a wave of a group that the key's pairing has joined with its own; the other
wave has n quads. -/
def paired (n : Nat) : State :=
  let x : XlOp := { xl 0 with b := sR 4, minw := 6 }
  let s := within base (.xshuf x)
  match s.who s.cur with
  | some o =>
    { s with groups := s.groups.put 90 o.g, waves := s.waves.put 9 { o.w with group := 90, nquads := n } }.modUnit 1 fun u =>
      { u with xpairs := [{ key := s.xkey o x, group := o.w.group, partner := some 90, dead := false, tries := [], failed := [] },
                          { key := s.xkey o x, group := 90, partner := some o.w.group, dead := false, tries := [], failed := [] }] }
  | none => s

theorem witness_SyncWaitsEnd :
    (let x : MemOp := { monEq with ord := 1 }
     monHere zeroed (.monw x) (fun s o => s.monCheck o x) fun o t q =>
      let op := memOp o x 0 .load [q]
      let d := ((t.lookOut o op q).readPiece o.g.core o.u.mode x.space.toNat (max 2 op.scope) x.evict.toNat q).2
      t.admits o.g o.u op q false && !(d.errs.any fun e => e != 0) && monHolds o x d.data) =
      true ∧
    (let y : CtlOp := { ctl 0 with dst := dS 20, a := sR 10, b := sR 22 }
     monHere zeroed (.ccwait y) (fun s o => s.ccCheck o y) fun o t q =>
      let d := ((t.lookOut o (ccOp o [q]) q).readPiece o.g.core o.u.mode 0 3 0 q).2
      t.admits o.g o.u (ccOp o [q]) q false && !(d.errs.any fun e => e != 0) && decide ((o.sval2 y.b).toNat ≤ leNat d.data)) = true ∧
    (let x : CtlOp := { onBarr with b := sR 5 }
     let s := within passed (.bwait x)
     waitsHere passed (.bwait x) fun o => (s.readBarr o.w.group 0x400).phase != (s.scalar o x.b 0).toNat &&
      s.lsAdmits o 0x400 16 false && (s.barrFault o x).2.isNone && s.barrFault o x == (s, none)) = true ∧
    (let s := within granted (.qpush pushOp)
     waitsHere granted (.qpush pushOp) fun o => queueIs o pushOp fun q => s.canPush o q) = true ∧
    (let s := within filled (.qpop popOp)
     waitsHere filled (.qpop popOp) fun o => queueIs o popOp fun q => s.canPop o q) = true ∧
    (let x : CtlOp := { ctl 0 with a := sR 24 }
     let s := within (rastered false) (.rosb x)
     waitsHere (rastered false) (.rosb x) fun o => match o.w.tile with | some t => s.rosDue o t | none => false) = true ∧
    (let y : EngOp := { eng 0 with dst := dS 20 }
     let s := within tiles16 (.tileq y)
     let r : TileRec := { unit := 0, tx := 0, ty := 0, key := [0, 0, 0], ticket := 0, words := [0, 0, 0, 0] }
     let t := s.modCluster 0 fun c => { c with rast := { c.rast with recs := [r] } }
     waits s s.cur (.tileq y) (fun o => (s.readyRecs (clusterOf o.g.core) o.u.draw (o.u.peer.getD 0)).isEmpty &&
       s.streamOver (clusterOf o.g.core) o.u.draw (o.u.peer.getD 0)) &&
     waits t t.cur (.tileq y) (fun o => !(t.readyRecs (clusterOf o.g.core) o.u.draw (o.u.peer.getD 0)).isEmpty)) = true ∧
    ([1, 2].all fun n =>
      let s := paired n
      match s.xwaiter s.cur.wave, s.xwaiter 9 with
      | some (o, x), some (q, y) => s.xkey q y == s.xkey o x && o.g.unit == q.g.unit && o.w.index == q.w.index &&
        (o.w.nquads == q.w.nquads) == (n == 1) &&
        (match pairOf o.u (s.xkey o x) o.w.group, pairOf o.u (s.xkey o x) q.w.group with
        | some e, some f => e.partner == some q.w.group && f.partner == some o.w.group && e.made o.w.index == f.made q.w.index
        | _, _ => false) && waits s o.pr (.xshuf x) fun o => o.p.timer == 0
      | _, _ => false) = true := by decide +kernel

/-! ### Witnesses: events of operations -/

/-- The group of the state's part. -/
def gidOf (s : State) : Nat := match s.waves.get s.cur.wave with | some w => w.group | none => 0
def lastOp (s : State) : Nat := (s.ops.getLast?.map fun x => x.id).getD 0
/-- The operation that an instruction has just launched is live. -/
def flies (s : State) (kind : OpKind) (p : Nat → Op → Group → WorkUnit → Bool) : Bool := live s (lastOp s) kind (p (lastOp s))

theorem witness_LoadsPerform :
    (let s := sent (.ld mem) base
     flies s .load fun _ x g u => s.mayPerform g u x false (x.piecesAt (x.pick []))) = true ∧
    ([0, 3].all fun k =>
      let s := sent (.prf { mem with scope := k }) base
      flies s .prefetch fun id x _ _ => !s.heldBack id && (1 < x.scope) == (k == 3)) = true ∧
    (let s := sent (.ldw { memA with reg := dS 24 }) local_
     flies s .ldw fun _ x g u =>
      let n := (nth x.args 0).toNat
      let src := (x.pick []).filter fun i => i < n
      s.mayPerform g u x false (x.piecesAt src ++ ((x.indexed (x.pick [])).filter fun e => n ≤ e.1).map fun e => e.2)) = true ∧
    (let s := after (.ld mem) base
     flies s .load fun _ x _ _ => x.acc == [] && x.mask.getLsbD 0) = true := by decide +kernel

theorem fixed_none {s : State} (h : (s.slices.all fun e => e.2.fixed.isEmpty) = true) (k : Nat) : (s.slice k).fixed = [] := by
  have go : ∀ t : Tbl Slice, (t.all fun e => e.2.fixed.isEmpty) = true → ((t.get k).getD Slice.reset).fixed = [] := by
    intro t
    induction t with
    | nil => exact fun _ => rfl
    | cons a t ih =>
      intro h
      simp only [List.all_cons, Bool.and_eq_true, List.isEmpty_iff] at h
      rw [Tbl.get_cons]
      split
      · exact h.1
      · exact ih h.2
  exact go _ h

theorem witness_StoresPerform :
    (let s := sent (.st { mem with reg := dV 4 }) (setV base 10 fun l => 0x200000 + 8 * l)
     (flies s .store fun _ x g u => x.seen == [] && x.misc != 2 && u.mode < 2 && s.stoppers == [] && s.link.fixed == [] &&
      s.mayPerform g u x true x.pieces && (x.pieces.all fun p => match p.loc with | .dev _ => true | _ => false)) = true ∧
     (∀ k, (s.slice k).fixed = []) ∧ (s.ops.map (·.id)).Nodup) := by
  refine ⟨by decide +kernel, fixed_none (by decide +kernel), by decide +kernel⟩

/-- A fixed-order accumulator at sector 0x20_0000 of context 0, whose spill region has no room. -/
def spilled : State := base.modSlice (homeSlice 0x200000) fun sl =>
  { sl with fixed := sl.fixed.put (0x200000 / 32) { op := 13, ctx := 0, elems := [], count := 1 } }

theorem witness_AtomicsPerform :
    ([(Instr.atom { mem with scope := 2, szty := 0 }, OpKind.atom), (.red { mem with scope := 2, szty := 0 }, .red)].all fun e =>
      let s := sent e.1 (poke base 0x200000 4 0)
      flies s e.2 fun _ x g u => s.atomMay g u x (x.pick [])) = true ∧
    (match spilled.fixedAt (.dev 0x200000) with
     | some e =>
      let lg := (nth (spilled.logWords e.ctx) 0).toNat % 32
      decide ((if lg = 0 then 0 else 2 ^ lg) < spilled.fixedCount e.ctx)
     | none => false) = true := by decide +kernel

def copyA (toLocal : Bool) : EngOp :=
  { eng 0 with mod := if toLocal then 0 else 2, dst := dS 20, a := sR 24, b := sR 32, c := sR 36 }
/-- A copy of the descriptor in flight, to local or to global memory. -/
def copied (toLocal : Bool) : State :=
  if toLocal then sent (.bcopy (copyA true)) (regs (words copying [(9, 0x1000)]) [(26, 0), (32, 0x800)])
  else sent (.bcopy (copyA false)) copying

/-- A multicast store of one lane to a group of this device alone. -/
def casting : State :=
  let s := reg (setV base 11 fun _ => 0) fun w => w.setP 1 1 fun _ => true
  sent (.mcst { mem with h := { h7 with pred := 1 }, scope := 2 }) (s.modColl (collAddr 0x200000).1 fun c =>
    { c with isOpen := true, wsize := 0x1000000, members := 1 })
/-- The same delivery, at device 1. -/
def castAway : State := { casting with ops := casting.ops.map fun x => { x with pieces := x.pieces.map fun p =>
  { p with loc := .peer 1 p.loc.off } } }
def deliversOne (s : State) (member : Nat) (p : Nat → Op → Group → WorkUnit → Nat × Piece → Bool) : Bool :=
  flies s .mcst fun id x g u => match x.indexed ((x.pick []).filter fun i => match x.pieces[i]? with
      | some p => p.goesTo s.link.devid.toNat member | none => false) with
    | [e] => s.clearOf x [e.2] && !x.releases && s.admits g u x e.2 true && s.ticketTurn g u x e.2 && p id x g u e
    | _ => false

/-- A part that waited for a bank, when the bank's window has ended. -/
def afterTurn : State := { part base fun p => { p with stall := 19 } with time := 10000 }

theorem witness_CopiesAndDeliveriesPerform :
    ([true, false].all fun b =>
      let s := copied b
      (flies s .copy fun _ x g _ =>
        let left := (List.range (x.arg 0)).filter fun i => (x.seen.get (x.arg 0 + i)).isNone
        let reads := x.sources (left.filter fun i => (x.seen.get i).isNone)
        !left.isEmpty && s.copyTurn g x && s.clearOf x (x.piecesAt (reads ++ left ++ left.map fun i => x.arg 0 + i))) &&
      let t := sent (.copyWritePerformed (lastOp s) []) s
      flies t .copy fun _ x g _ => t.copyHead g x && (List.range (x.arg 0)).all (fun i => (x.seen.get (x.arg 0 + i)).isSome) &&
        t.clearOf x (x.pieces.drop (2 * x.arg 0)) && (!x.releases || t.releaseReady x || b) && x.scope != 5 && (x.arg 1 == 0) == b &&
        (b || (x.seen.get (2 * x.arg 0)).isNone)) = true ∧
    (let s := sent (.wswrite { eng 0 with dst := dS 16, a := sR 10, b := sR 4 }) base
     flies s .wsWrite fun _ x _ _ => s.clearOf x x.pieces && s.mem.bad.isEmpty && x.acc.isEmpty && (List.range (x.arg 0)).all fun i =>
      match x.pieces[i]?, x.pieces[x.arg 0 + i]? with
      | some p, some q => (match p.loc with | .ctrl _ => false | _ => true) && (match q.loc with | .ws _ _ => true | _ => false)
      | _, _ => false) = true ∧
    ((List.range 16).any fun b => afterTurn.windows b == []) = true ∧ (afterTurn.parts == [afterTurn.cur]) = true ∧
    (match afterTurn.who afterTurn.cur with
     | some o => o.p.stall == 19 && dieOf o.g.core == 0
     | none => false) = true ∧
    (match afterTurn.who afterTurn.cur with
     | some o => !afterTurn.turnsFor o (fun _ => true)
     | none => false) = true ∧
    (deliversOne casting 0 fun _ _ _ _ _ => true) = true ∧
    (deliversOne castAway 1 fun _ _ _ _ _ => 1 != castAway.link.devid.toNat) = true := by
  refine ⟨?_, ?_, ?_, ?_, ?_, ?_, ?_⟩ <;> decide +kernel

def mmaA : EngOp := { eng 0 with dst := dA 0, a := sR 24 }
def mmaG : EngOp := { eng 1 with dst := dA 0, a := sR 24 }
/-- Operand A in global memory, its first sector in error. -/
def spoiled : State :=
  let s := regs (matrix 0x1440) [(24, 0x200000)]
  sent (.mma mmaG) { s with mem := { s.mem with bad := [.dev 0x200000] } }
def onLast (s : State) (i : Nat → Instr) : State := sent (i (lastOp s)) s
def ready (s : State) (kind : OpKind) (p : Op → Group → Bool) : Bool := flies s kind fun _ x g _ =>
  x.arg 2 == 1 && !(s.taBefore g x).any x.precedes && p x g
def starts (s : State) (kind : OpKind) (p : Op → Bool) : Bool := flies s kind fun _ x g _ =>
  x.arg 2 != 1 && !(s.taBefore g x).any x.delays && p x
def feeds (s : State) (kind : OpKind) : Bool := flies s kind fun _ x _ _ =>
  let l := x.readOnly (x.pick [])
  s.clearOf x (x.piecesAt l) && s.notTurning (x.piecesAt l)
def start (s : State) : State := onLast s .taOpStart
def feed (s : State) : State := onLast s (.taOperandsConsumed · [])

/-- The operations with their first two sectors alone. -/
def few (s : State) : State := { s with ops := s.ops.map fun x => { x with pieces := x.pieces.take 2 } }

theorem witness_EngineOperationsComplete :
    ([few (sent (.mma mmaA) (matrix 0x1440)), few spoiled].all fun s => flies s .mma fun _ x _ _ =>
      s.clearOf x (x.piecesAt (x.pick []))) = true ∧
    ([(few (sent (.mma mmaA) (matrix 0x1440)), true), (few spoiled, false)].all fun e =>
      let t := onLast e.1 (.fmuOperandsConsumed · [])
      flies t .mma fun _ x g _ => t.fmuHead g x && x.opens.isEmpty && x.acc.isEmpty == e.2 && !g.tilesBad x.tiles) = true ∧
    (let s := few (sent (.mmas mmaA) (matrix 0x41440))
     flies s .mmas fun _ x _ _ => s.clearOf x (x.piecesAt (x.pick []))) = true ∧
    ([false, true].all fun bad =>
      let s := few (sent (.mdrain { eng 1 with dst := dA 0, a := sR 24, b := sR 34 }) (matrix 0x1440))
      let s := if bad then s.modGroup (gidOf s) fun g => { g with accErr := [0] } else s
      flies s .mdrain fun _ x g _ => s.fmuHead g x && s.clearOf x (x.piecesAt (x.pick [])) && x.seen.isEmpty && x.acc.isEmpty &&
        g.tilesBad x.tiles == bad) = true ∧
    (let s := few (sent (.tmac { eng 0 with dst := dT 0, a := sR 24 }) (regs (matrix 0) [(25, 0x00020100)]))
     -- the same sectors of a TWLD of plane 1
     let s := { s with ops := s.ops.map fun x => { x with kind := .twld, args := [0, 1, 1] } }
     feeds s .twld && ready (feed s) .twld fun x _ => x.opens.isEmpty) = true ∧
    (let s := sent (.tmac { eng 0 with dst := dT 0, a := sR 24 }) (regs (matrix 0) [(25, 0x00020100)])
     feeds s .tmac && starts (feed s) .tmac (fun x => x.opens.isEmpty) && ready (start (feed s)) .tmac fun _ _ => true) = true ∧
    (let s := sent (.tzero { eng 0 with dst := dT 0 }) base
     starts s .tzero (fun _ => true) && ready (start s) .tzero fun x _ => x.code != 1) = true ∧
    (let s := sent (.tzeroPlane { eng 1 with dst := dT 0 }) base
     ready (start s) .tzero fun x _ => x.code == 1) = true ∧
    (let s := sent (.tdrain { eng 0x21 with dst := dT 0, a := sR 24 })
       (regs (matrix 0) [(24, 0x200000), (25, 0), (26, 0x400), (27, 0x4000), (28, 0x5000), (29, 2)])
     let t := start s
     starts s .tdrain (fun _ => true) && ready t .tdrain fun x g =>
      let l := (x.pick []).filter fun i => match x.pieces[i]? with | some p => p.lane == 0 | none => false
      t.clearOf x (x.piecesAt (l ++ x.readOnly (x.pick []))) && t.drainClear g x (x.piecesAt l)) = true := by
  refine ⟨?_, ?_, ?_, ?_, ?_, ?_, ?_, ?_, ?_⟩ <;> decide +kernel

def smpA : EngOp := { eng 0 with dst := dV 24, a := vR 12, b := sR 16, c := sR 5 }
def imgA : EngOp := { eng 0 with a := vR 4, b := vR 12, c := sR 16 }

theorem witness_GraphicsOperationsComplete :
    (flies (sent (.smp smpA) textured) .sample fun _ x _ _ => !x.lanesLeft.isEmpty) = true ∧
    (flies (sent (.rtrace { smpA with b := sR 10, c := Src.none }) textured) .trace fun _ x _ _ => !x.lanesLeft.isEmpty) = true ∧
    (let s := sent (.imgst imgA) textured
     flies s .image fun _ x g u => s.clearOf x (x.piecesAt (x.pick [])) && s.imageClear g u x (x.piecesAt (x.pick []))) = true ∧
    (let s := words base [(0, 0x00100000)]
     let s := sent (.emit { eng 0 with a := vR 12 }) s
     let p : WorkUnit := { (s.units.get 1).getD (blankUnit .launch 0 true none 0) with words := List.replicate 64 0 }
     let s := ({ s with units := s.units.put 2 p }).modUnit 1 fun u => { u with parent := some 3, peer := some 2 }
     let s : State := { s with units := s.units.put 3 { p with kind := .draw } }
     flies s .emit fun _ x _ u => (s.waves.get x.wave).isSome && match s.drawOf u with
      | some (p, _, _) => !p.words.isEmpty | none => false) = true := by decide +kernel

/-! ### Witnesses: translation, faults and work -/

def opened : State := { base with recs := [{ id := 5, asid := 1, page := 0, type := 0 }] }

theorem witness_WalksFaultsAndBuffers :
    (!mapped.flat 1 && ((mapped.core 0).tlb.find? (TlbEntry.covers 1 0x200000)).isNone &&
      ((mapped.cluster 0).tlb.find? (TlbEntry.covers 1 0x200000)).isNone &&
      match (mapped.walk 1 0x200000).2 with | .ok e => e.log == 30 | _ => false) = true ∧
    (opened.recs.any fun r => r.id == 5) = true ∧
    (let s := (poke (poke base (base.trans.trtab + 24) 8 0x00300040) 0x300000 64 0).modCluster 0 fun c => { c with fbuf := [(1, List.replicate 64 0)] }
     (State.queueFault 0 s 1 (List.replicate 64 0)).2 == .done &&
      let t := { s with mem := { s.mem with bad := [.dev 0x300040] } }
      (State.queueFault 0 t 1 (List.replicate 64 0)).2 == .bad) = true ∧
    (let s := (poke (poke base (base.tables.tqtab + 16) 8 0x00300041) 0x300000 64 0).modCluster 0 fun c => { c with tbuf := [(1, List.replicate 128 0)] }
     (State.queueTrap 0 s 1 (List.replicate 128 0)).2 == .done) = true := by decide +kernel

/-- A record's words: pairs of byte offset and value, the others zero. -/
def recordOf (n : Nat) (l : List (Nat × Word)) : List Word := l.foldl (fun w e => w.set (e.1 / 4) e.2) (List.replicate n 0)
def pokeWords (s : State) (a : Nat) (l : List Word) : State := (l.zipIdx).foldl (fun s e => poke s (a + 4 * e.2) 4 e.1.toNat) s
def withUnit (s : State) (id : Nat) (u : WorkUnit) : State := { s with units := s.units.put id u }
def got (r : State × Got) (p : List Byte → Bool) : Bool := match r.2 with | .data d => p d | _ => false
def jobWords : List Word := recordOf 16 [(0, 0x01000000), (4, 1), (8, 0x200000), (0x20, 1)]
def jobUnit : WorkUnit := { blankUnit .job 1 false none 0x200100 with words := jobWords, state := .checking }
/-- Context 1 with a job record at 0x20_0100 in its intake, a phase of one launch at 0x20_0000, and READY. -/
def jobs : State :=
  let s := pokeWords (pokeWords mapped 0x200100 jobWords) 0x200000 [0x200040, 0, 1, 0, 0, 0, 0, 0]
  let s := (poke s (s.tables.cxtab + 64) 64 1).modCtx 1 fun c => { c with intake := [0x200100] }
  { s with boot := { s.boot with ready := true, phase := 7 } }
def phaseUnit : WorkUnit := { blankUnit .phase 1 false (some 2) 0x200040 with words := [0x200040, 0, 1, 0] }
def graphUnit : WorkUnit :=
  { blankUnit .graph 1 false none 0x200000 with state := .running, lists := [[0x200000, 0, 0xFFFFFFFF, 0]] }

theorem witness_JobsAndUnitsAdvance :
    (jobs.linkUp && jobs.ctxValid 1 && decide ((jobs.ctx 1).intake.length < 64) && jobs.boot.ready && base.boot.ready == false) =
      true ∧
    ((jobs.ctx 1).intake == [0x200100] && !(jobs.ctx 1).resets && (jobs.ctx 1).heldOn.isNone &&
      got (jobs.getRecord 3 1 0x200100 0 4) fun _ => true) = true ∧
    (let s := withUnit jobs 2 jobUnit
     (jobCause jobUnit).isNone && got (s.getRecord 3 jobUnit.asid (jobUnit.d 8) 0 (jobUnit.n 4)) fun d =>
      !(wordRows (jobUnit.n 4) d).any phaseEntryBad) = true ∧
    (let s := withUnit (withUnit jobs 2 { jobUnit with state := .running }) 4 phaseUnit
     (match s.units.get 4, s.units.get 2 with
      | some u, some j => u.state == .waiting && j.state == .running && j.ended == u.index && j.worst == 0 && j.cause == 0 && j.heldOn.isNone
      | _, _ => false) &&
     got (s.getRecord 3 phaseUnit.asid phaseUnit.addr 0 (nth phaseUnit.words 2).toNat) fun d =>
      !(wordRows (nth phaseUnit.words 2).toNat d).any (itemBad phaseUnit.gfx)) = true ∧
    ([false, true].all fun b => [recordOf 4 [(8, if b then 0xFF else 0)]].any (itemBad phaseUnit.gfx) == b) = true ∧
    ((base.blockFor 77).2 == false && (withUnit jobs 2 jobUnit).blockFor 2 == (withUnit jobs 2 jobUnit, true)) = true ∧
    (let s := withUnit jobs 5 graphUnit
     nodePreds (graphUnit.lists.getD 0 []) == [] && !(s.children 5).any fun k => k.2.index == 0) = true ∧
    (let u : WorkUnit := { (base.units.get 1).getD jobUnit with cancel := true }
     let s := withUnit { base with groups := [] } 1 u
     (s.endStatus 1 u).isSome) = true ∧
    (let u : WorkUnit := { blankUnit .launch 1 false none 0x200000 with
       state := .running, words := recordOf 64 [(0x50, 0x201000)], desc := recordOf 16 [(20, 1)] }
     let s := withUnit (pokeWords mapped 0x201000 [0x101, 0, 0, 0, 0x202000, 0, 0, 64]) 6 u
     (match s.getRecord 1 u.asid (u.d 0x50) u.launchix 1 with
      | (s1, .data h) => !stageHeaderBad (bytesWords h) && match s1.getRecord 1 u.asid (u.d 0x50 + 16) u.launchix 1 with
        | (s2, .data d) => !stageBad u (bytesWords h) (wordRows 1 d) && !s2.wsReaders 0 && !s2.wsBusy 0 &&
          match s2.stageRows u [0] false (wordRows 1 d) with | (_, .data _, false) => true | _ => false
        | _ => false
      | _ => false)) = true := by decide +kernel

/-! ### Witnesses: groups, the active set and resets of contexts -/

def modU (s : State) (f : WorkUnit → WorkUnit) : State := s.modUnit 1 f
def groupIs (s : State) (p : Nat → Group → WorkUnit → Bool) : Bool :=
  match s.groups.get (gidOf s) with | some g => p (gidOf s) g (s.unitOf g) | none => false
/-- The group of `base` under a launch of context 1, without accumulators. -/
def ofContext : State := modU (words mapped [(9, 0), (17, 0)]) fun u =>
  { u with ctl := false, ctx := 1, words := (u.words.set 18 0x00FF00FF).set 19 0x040000FF, desc := recordOf 16 [(8, 0xFFFFFFFF),
    (12, 0xFFFFFFFF), (48, 0x040000B8), (52, 2048)] }

theorem witness_GroupsAndActiveSet :
    (let s := modU base fun u => { u with next := 0 }
     match s.units.get 1 with
     | some u => s.wantsCore 1 u && u.next != u.grid && !(s.groupsOf 1).any (fun g => g.2.state == GroupState.saved) && u.ctl &&
        !s.behind 1 u && !s.promised u 1 && s.dispatchLogged u 1 u.next && (s.qualifies 1 u 1 u.nwaves).isSome && u.mode < 2
     | none => false) = true ∧
    (let s := base.modGroup (gidOf base) fun g => { g with state := .tiles, todo := [] }
     groupIs s fun _ g u => g.state == .tiles && g.heldOn.isNone && !u.cancel && g.todo.isEmpty) = true ∧
    (groupIs (modU base fun u => { u with cancel := true }) fun id _ u => !base.groupBusy id && base.stoppers == [] && u.cancel) =
      true ∧
    (let s := base.modGroup (gidOf base) fun g => { g with waves := [] }
     groupIs s fun id g u => !s.groupBusy id && s.stoppers == [] && !u.cancel && g.waves.isEmpty && g.state == .running) = true ∧
    ([false, true].all fun busy =>
      let s := ofContext.modGroup (gidOf base) fun g => { g with state := .stopping }
      let s := if busy then { s with ops := (after (.ld mem) base).ops } else s
      groupIs s fun id g u => s.savable g && g.state == .stopping && s.groupBusy id == busy && s.stoppers == [] &&
        !s.ringShort u g.core (s.partsOf id).length) = true ∧
    (let s := { ofContext with waves := [] }.modGroup (gidOf base) fun g => { g with state := .saved, waves := [], lsz := 0 }
     match s.groups.get (gidOf base) with
     | some g =>
      let u := s.unitOf g
      !u.cancel && !g.heldGo && !s.promised u 0 && !s.ringShort u 0 (s.partsOf (gidOf base)).length && !(s.ctx u.ctx).halted && !(s.ctx u.ctx).resets && (s.units.any fun x => !x.2.ctl && decide (u.prio < x.2.prio)) == false &&
      match s.qualifies g.unit u 0 g.waves.length with
      | some l => g.waves.isEmpty && l.isEmpty && (((s.modGroup (gidOf base) fun x =>
        { x with core := 0, state := if g.begun then .running else .tiles, scheds := l }).loadRennet (gidOf base) 0 g).loadGroupImage
        { g with core := 0 } (gidOf base)).2
      | none => false
     | none => false) = true := by decide +kernel

/-- Another wave on the part's scheduler: its part in a slot, in the active set or not, with a stall reason (0: ready). -/
def neighbour (s : State) (id slot : Nat) (front : Bool) (stall queued : Nat) : State :=
  match s.waves.get s.cur.wave with
  | some w =>
    { s with waves := s.waves.put id { w with age := id, parts := w.parts.upd 0 fun p =>
      { p with slot := slot, front := front, stall := stall, queued := queued,
               hold := if stall = 0 then .no else .instr (.sleep (ctl 0)) } } }
  | none => s
def pendingReady (s : State) (long : Bool) : Bool :=
  match s.who s.cur with
  | some o =>
    match s.oldest ((s.slotted o.g.core o.w.sched).filter fun x => !x.2.front && x.2.isReady && (!long || 256 ≤ x.2.queued)) with
    | some x => s.swapAllowed x.1
    | none => false
  | none => false
def activeRoom (s : State) : Bool := match s.who s.cur with | some o => s.frontRoom o.g.core o.w.sched | none => false
def leaves (s : State) (f : PartRef × Part → Bool) (key : PartRef × Part → Nat) : Bool :=
  match s.who s.cur with
  | some o => (leastBy key ((s.slotted o.g.core o.w.sched).filter f)).isSome
  | none => false
/-- Seven more parts of the active set that yield their places. -/
def crowded : State := (List.range 7).foldl (fun s i => neighbour s (20 + i) i true 30 0) (neighbour base 9 46 false 0 300)

/-- An older part of the same scheduler is ready to issue: the part of `base` is passed over. -/
def outdone : State := neighbour (base.modWave base.cur.wave fun w => { w with age := 50 }) 9 46 true 0 0
theorem witness_StepRunsDecodedInstruction_passed :
    issuing outdone [] (fun c o => o.p.hold == .no && (c.tileFault o).isNone && match o.p.slotBits with
      | some w => (match decode w with
        | .ok i => (match exec i c with | .next u => ((c.newIssue u o).bind (c.passedOver o)).isSome | _ => false)
        | _ => false)
      | none => false) = true ∧
    issuing base [] (fun c o => match exec (.nop { pneg := false, pred := 7 }) c with
      | .next u => ((c.newIssue u o).bind (c.passedOver o)).isNone
      | _ => false) = true := by decide +kernel

theorem witness_ActiveSetSwaps :
    (pendingReady (neighbour base 9 46 false 0 0) false && activeRoom (neighbour base 9 46 false 0 0)) = true ∧
    (pendingReady crowded false && !activeRoom crowded &&
      leaves crowded (fun x => x.2.front && !x.2.isReady && x.2.yields) fun x => 2 ^ 64 - x.2.waited) = true ∧
    (let s := crowded.modCore 0 fun c => { c with swapAt := [4, 4, 4, 4] }
     pendingReady s true && leaves s (fun x => x.2.front) fun x => 2 ^ 64 - x.2.inSet) = true ∧
    (let s := part base fun p => { p with status := .ready }
     match s.who s.cur with
     | some o => o.p.status == .ready && o.g.state == .running && !o.u.cancel && !s.ringShort o.u o.g.core 1 && (s.freeSlot o.u o.g.unit o.g.core o.w.sched).isSome
     | none => false) = true := by decide +kernel

theorem witness_ContextsReset :
    (let s := withUnit (withUnit base 2 { jobUnit with state := .running }) 3
       { blankUnit .draw 1 false (some 2) 0x200000 with state := .running, time := 1000 }
     match s.units.get 3, s.unitAbove 3 .job with
     | some u, some 2 => u.kind == .draw && !u.ctl && jobUnit.n 0x20 * 1000 ≤ u.time
     | _, _ => false) = true ∧
    (let s := base.modCtx 5 fun c => { c with resets := true }
     (s.ctx 5).resets && s.groups.all (fun g => (s.unitOf g.2).ctl) && s.trapRoom 0 5) = true ∧
    (let s := after (.gbar (ctl 0)) base
     match s.units.get 1 with | some u => s.gbarDue 1 u | none => false) = true := by decide +kernel

/-! ### Witnesses: the platform -/

def frozen : State := base.modCore 0 fun c => { c with freeze := { Freeze.reset with frozen := true, since := 2 ^ 60 } }

theorem witness_DebugAndControlRegisters :
    ((frozen.core 0).freeze.frozen && frozen.frozenGroups 0 == [] && decide (frozen.tables.frzlim.toNat * 1000000 ≤ (frozen.core 0).freeze.since)) =
      true ∧
    (base.slotted 1 0 == []) = true ∧
    (8 ≤ (0x8000000A : Word).toNat % 32 ∧ (0x8000000A : Word).toNat % 32 ≤ 20) := by decide +kernel

def request : DomainReq :=
  { port := 0, headerOk := true, source := 1, tenant := 7, ctx := 0, tag := 5, cls := 0, offset := 0x10000, len := 8, data := some (List.replicate 8 1),
    op := none, rank := 0, fixed := false, hs := false, sig := 0, release := false }
/-- PHASE 7; tenant 7's window 0 of 64 KiB at 0x1_0000; group 3 open for it. -/
def linked : State :=
  let s := base.modColl 3 fun c => { c with isOpen := true, tenant := 7, wsize := 0x20000 }
  { s with boot := { s.boot with phase := 7 },
           link := { s.link with windows := s.link.windows.put 0 (0x8000000700000001, 1), hdm := [(0, (0x80000000, 0x40000000))] } }
/-- An inbound request that has been delivered. -/
def arrived (s : State) (q : Inbound) (a len : Nat) : State :=
  { s with net := { s.net with arrived := [inboundPacket q 64 0 a len false] } }
/-- A load of device 1's memory in flight. -/
def abroad : State :=
  let s := sent (.ld memA) base
  { s with ops := s.ops.map fun x => { x with pieces := x.pieces.map fun p => { p with loc := .peer 1 p.loc.off } } }

/-- No entry is left at an endpoint that holds as many requests as it has entries (R322). -/
theorem witness_BucketsInject_full (p : Packet) (h : p.sink = 5 ∧ p.cls = 0) : (Net.credit { Net.reset with
    arrived := List.replicate (Config.sinkEntries 5 + 9) p } 5 0) = false := by
  have e : (List.replicate (Config.sinkEntries 5 + 9) p).filter (fun p => p.sink = 5) = List.replicate (Config.sinkEntries 5 + 9) p :=
    List.filter_eq_self.2 fun q hq => by simp [List.eq_of_mem_replicate hq, h.1]
  have e0 : (List.replicate (Config.sinkEntries 5 + 9) p).filter (fun p => p.cls = 0) = List.replicate (Config.sinkEntries 5 + 9) p :=
    List.filter_eq_self.2 fun q hq => by simp [List.eq_of_mem_replicate hq, h.2]
  simp [Net.credit, Net.holders, Net.reset, e, e0]

theorem witness_LinksAndCollectives :
    (let s := (poke jobs (jobs.tables.cxtab + 64) 64 1).modColl 3 fun c => { c with members := 1, ctx := 1 }
     let s : State := { s with link := { s.link with present := 1 } }
     (s.collAt 3).drain == 0 && !(s.collAt 3).isOpen && !s.collBad (s.collAt 3)) = true ∧
    ((base.modColl 3 fun c => { c with drain := 1 }).collAt 3).drain ≠ 0 ∧
    (let p := inboundPacket (.host 0x200000 8 none) 64 0 0x200000 8 false
     [(false, 0), (true, 4), (true, 1)].all fun e =>
      let s := base.modBucket (bucketKey 64 0) fun b => { b with held := [p], en := e.1, cred := e.2 }
      (s.bucket (bucketKey 64 0)).held == [p] && s.bucketOpen p == (e.2 != 1) && s.sinkOpen p) = true ∧
    ({ base with net := { base.net with clks := 1024 } } : State).net.clks = 1024 ∧ (base.buckets.all fun e => e.2.held == []) = true ∧
    (linked.hdmOffset 0x80200000 8 == some 0x200000 && linked.linkUp && inOneLine 0x200000 8 && !linked.link.snoop.contains 0x4000 &&
      !linked.underWay (.host 0x200000 8 none) && !(linked.net.arrived.any fun q => q.inb == some (.host 0x200000 8 none)) &&
      let s := arrived linked (.host 0x200000 8 none) 0x200000 8
      (s.net.arrived.any fun q => q.inb == some (.host 0x200000 8 none)) &&
      [s, { s with mem := { s.mem with bad := [.dev 0x200000] } }].all fun s =>
        match s.filterLine 0x4000 with | .ok u => u.badAt (.dev 0x200000) 8 == !s.mem.bad.isEmpty | _ => false) = true ∧
    (let s : State := { linked with link := { linked.link with snoop := [5] } }
     s.link.snoop.contains 5) = true ∧
    (request.port < 18 && !linked.boot.portdown.getLsbD request.port && 5 ≤ linked.boot.phase.toNat && linked.heat.powered &&
      request.headerOk && linked.exports 7 0x10000 8 && !linked.exports 6 0x10000 8 && !(linked.collAt 4).isOpen &&
      (linked.collAt 3).isOpen && (linked.collAt 3).tenant == request.tenant &&
      decide (request.offset + request.len ≤ (linked.collAt 3).wsize.toNat) && request.data.isSome && remoteOk request 0x10000 &&
      !linked.underWay (.domain request) && !(linked.net.arrived.any fun p => p.inb == some (.domain request)) &&
      ((arrived linked (.domain request) 0x10000 8).net.arrived.any fun p => p.inb == some (.domain request))) = true ∧
    (let t : State := { abroad with time := abroad.time + 1000000000 }
     [abroad, t].all fun s => flies s .load fun _ x _ _ => !((x.indexed (x.pick [])).filter fun e => e.2.peer?.isSome).isEmpty &&
       (s.time == abroad.time || decide (s.link.flto * 1000 ≤ (s.time - x.start).toNat))) = true := by
  refine ⟨?_, ?_, ?_, ?_, ?_, ?_, ?_, ?_, ?_⟩ <;> decide +kernel

theorem witness_ResetsAndBringUp :
    (linked.heat.powered && linked.linkUp && { linked with boot := { linked.boot with fatal := true } }.boot.fatal) = true ∧
    (base.heat.powered && base.boot.phase.toNat < 4 && 4 ≤ linked.boot.phase.toNat) = true ∧
    ({ base with boot := { base.boot with phase := 6 } } : State).boot.phase = 6 := by decide +kernel

/-- Island 0 of core 0 may enter low rail, or is in it, or wakes. -/
def island (f : Islands → Islands) : State := base.modCore 0 fun c => { c with isl := f c.isl }
def hot : ThermalIn := { temps := List.replicate 66 0x600, rails := [], process := [], pkpwr := 1, modpwr := 2 }

theorem witness_PowerAndTime :
    ((base.modCore 0 fun c => { c with cur := { c.cur with clks := 64 } }).core 0).cur.clks = 64 ∧
    (let s := island fun i => { i with clks := [4096, 0, 0, 0] }
     4096 ≤ (s.core 0).isl.clks.getD 0 0) = true ∧
    (let s := island fun i => { i with low := 1 }
     (s.core 0).isl.low.getLsbD 0 && (s.slotted 0 0).any fun p => p.2.isReady) = true ∧
    (let s := island fun i => { i with wake := 1, low := 1, timer := [0, 0, 0, 0] }
     (s.core 0).isl.wake.getLsbD 0 && (s.core 0).isl.timer.getD 0 0 == 0) = true ∧
    (let s := base.modCluster 0 fun c => { c with dvfs := { c.dvfs with ramp := true, left := 0, qpt := 0 } }
     (s.cluster 0).dvfs.ramp && !s.trip2) = true ∧
    hot.temps.length = 66 ∧
    ({ base with time := BitVec.allOnes 48 } : State).time = BitVec.allOnes 48 := by decide +kernel

/-! ### Witnesses: encodings, invariants and functions -/

theorem witness_EncodingsRoundTrip : (add hA).wf = true ∧ (encode (add hA)).isSome = true ∧
    decode (BitVec.ofNat 96 0x1C00) = .ok (.nop { pneg := false, pred := 7 }) := by decide +kernel

theorem witness_StepsKeepMemoryCanonical : State.reset.mem.canonical = true ∧ base.mem.canonical = true ∧
    (match step base with | .next _ => true | _ => false) = true := by decide +kernel

/-- Power on, then off for good, with a turn that a part would issue at. -/
def dark : State := { base with heat := { base.heat with powered := false }, turns := [turn (.issue base.cur)] }
theorem witness_DarkDeviceStaysDark : Dark dark :=
  ⟨by decide +kernel, by
    intro t ht b
    simp only [dark, List.mem_singleton] at ht
    subst ht
    simp [turn]⟩

theorem witness_HomesAndWindows : base.wrapped = false ∧ (300 / 256 = 400 / 256) ∧ ({ base with time := 0 } : State).turning (.ws 0 0) = true ∧
    ({ base with time := 2000 } : State).turning (.ws 0 0) = false := by decide +kernel

/-! ### Decoding: words printed in the spec's examples, and words written from its encoding tables -/

def slot (w0 w1 w2 : Nat) : Slot := BitVec.ofNat 96 (w0 + w1 * 2 ^ 32 + w2 * 2 ^ 64)
/-- A word decodes to an instruction and is its encoding. -/
def means (w0 w1 w2 : Nat) (i : Instr) : Bool :=
  (match decode (slot w0 w1 w2) with | .ok j => j == i | .error _ => false) && encode i == some (slot w0 w1 w2)

/-- The FFMA of 04_vector_arithmetic.md, with a quad swap and a predicate; ISUB.N32.SAT, FADD.F16.RU and MOVI by R82, R62
and R47. -/
theorem test_decode_arithmetic :
    means 0x00040923 0x08060005 0x00200007 (.ffma { alu .f32 with
      h := { hA with pred := 2 }, dst := dV 4, a := vR 5, b := { vR 6 with lmod := 1 }, c := vR 7 }) = true ∧
    means 0x00021C05 0x00060004 0x08080000 (.isub { alu2 .n32 with sat := true }) = true ∧
    means 0x00021C20 0x00060004 0x02300000 (.fadd { alu2 .f16 with rnd := .ru }) = true ∧
    means 0x20021C02 0 0x1234 (.movi { lit .f32 with a := Src.none }) = true := by decide +kernel

/-- SHFL.UP by R96 and R98; the EDGE of 07_pixels_texels_rays.md. -/
theorem test_decode_lanes :
    means 0x00021C43 0x00060004 0x01000008 (.shfl { xl 1 with b := vR 6, c := vR 8 }) = true ∧
    means 0x02011CA6 0x03000104 0 (.edge { eng 0 with dst := dP 1, a := sR 4, b := { vR 0 with cls := .special } }) = true := by
  decide +kernel

/-- BRC, BR and KNIT of 11_cut_and_knit.md, REP of 18_debug_and_replay.md, CALL by R49. -/
theorem test_decode_flow :
    means 0x1C51 0x00010201 0 (.brc { flow with cond := pR 1, offs := 1 }) = true ∧
    means 0x1C50 0x00020000 0 (.br { flow with offs := 2 }) = true ∧ means 0x1C55 0 0 (.knit (ctl 0)) = true ∧
    means 0x1C57 0x0104 0x6000 (.rep { flow with cond := sR 4, slot := 3 }) = true ∧
    means 0x01141C53 0x00010000 0x4000 (.call { flow with link := dS 20, offs := 1, slot := 2 }) = true := by decide +kernel

/-- The LD of 08_memory_access.md, the ATOM and GCOPY of 10_atomics_copies.md, the FENCEX of 09_consistency.md, ST by R47 and
R190. -/
theorem test_decode_memory :
    means 0x00081E60 0x00400104 0x200D0000 (.ld { mem with
      h := { h7 with csel := .setB }, reg := dV 8, addr := sR 4, off := 0x40, ord := 1, scope := 3 }) = true ∧
    means 0x00061C6C 0x00000100 0x00040000 (.atom { mem with reg := dV 6, addr := sR 0, scope := 1, szty := 0 }) = true ∧
    means 0x1C6A 0 0x084C (.fencex (ctl 0x84C)) = true ∧
    means 0x00041C61 0x0008000A 0x20000000 (.st { mem with reg := dV 4, off := 8 }) = true ∧
    means 0x01141C71 0x01100108 0x0112 (.gcopy { eng 0 with dst := dS 20, a := sR 8, b := sR 16, c := sR 18 }) = true := by
  decide +kernel

/-- MMA.GA and MWAIT.FMU by R104, TDRAIN and TQNT by R137, IMGST of 21_prog_tile_shading.md, SMP by R156. -/
theorem test_decode_engines :
    means 0x04021C82 0x0118 0x00080000 (.mma { eng 1 with dst := dA 2, a := sR 24 }) = true ∧
    means 0x1C85 0x0104 0 (.mwait { eng 0 with a := sR 4 }) = true ∧
    means 0x05011C92 0x0118 0x01100000 (.tdrain { eng 0x22 with dst := dT 1, a := sR 24 }) = true ∧
    means 0x00021C96 0x00060004 0x00200000 (.tqnt { eng 4 with dst := dV 2, a := vR 4, b := vR 6 }) = true ∧
    means 0x1CAB 0x00080000 0x0118 (.imgst { eng 0 with b := vR 8, a := vR 0, c := sR 24 }) = true ∧
    means 0x00181DA0 0x0110000C 0x0105 (.smp { eng 0 with h := hA, dst := dV 24, a := vR 12, b := sR 16, c := sR 5 }) = true := by
  decide +kernel

/-- BARI.GROUP, ARRIVE and QPUSH of 13_synchronisation.md. -/
theorem test_decode_synchronisation :
    means 0x1CB0 0x0108 1 (.bariGroup { ctl 1 with a := sR 8 }) = true ∧
    means 0x010A1CB1 0x0108 0 (.arrive { ctl 0 with dst := dS 10, a := sR 8 }) = true ∧
    means 0x1CB5 0x0114 3 (.qpush { ctl 3 with a := sR 20 }) = true := by decide +kernel

/-- The TRAP of 17_traps.md, the TLBINV of 15_translation.md, the DVREQ of 19_power_and_heat.md, MARK and SEQRD by R399. -/
theorem test_decode_system :
    means 0x0CC0 0x0105 0x42 (.trap { ctl 0x42 with h := { h7 with pred := 3 }, a := sR 5 }) = true ∧
    means 0x1CC5 0x01060104 2 (.tlbinvPage { ctl 2 with a := sR 4, b := sR 6 }) = true ∧
    means 0x01021CCA 0x040C0417 0 (.dvreq { ctl 0 with dst := dS 2, a := cR 23, b := cR 12 }) = true ∧
    means 0x1CC7 0x0104 9 (.mark { ctl 9 with a := sR 4 }) = true ∧
    means 0x01141CC9 0 2 (.seqrdOrd { ctl 2 with dst := dS 20 }) = true := by decide +kernel

/-- Reserved encodings: an unlisted opcode, DST class 6, a type code of R37 that names none, lane broadcast bits without the
modifier, an odd pair, RND 6, a CTL value that SHFL lacks, M bit 95, slot 5, SUBOP 6 of ICMP. -/
theorem test_decode_refuses :
    ([slot 0x1C1E 0 0, slot 0x06021C04 0x00060004 0, slot 0x00021C04 0x00060004 0x00600000, slot 0x00021C04 0x00062004 0,
      slot 0x00031C04 0x00060004 0x00100000, slot 0x00021C20 0x00060004 0x06200000, slot 0x00021C43 0x00060004 0x04000008,
      slot 0x00081C60 0x0000000A 0xA0000000, slot 0x1C50 0 0xA000, slot 0x30021C18 0x00060004 0].all fun w =>
      match decode w with | .ok _ => false | .error _ => true) = true := by decide +kernel

/-! ### Witnesses of further clauses -/

theorem witness_AddcResult : okAll wide [.addc { alu .n64 with c := pR 1 },
    .addc { alu .n32 with dst := dS 20, a := sR 4, b := sR 6, c := cR 1 },
    .addc { alu .n64 with dst := dS 20, a := sR 4, b := sR 6, c := cR 1 }] = true := by decide +kernel

/-- The bucket of a port and class is enabled and has no credit. -/
def shut (p c : Nat) (s : State) : State := s.modBucket (bucketKey p c) fun b => { b with en := true, cred := 0 }

theorem witness_LineEntry_credit :
    (let s := shut 0 0 (part base fun p => { p with line := none, check := true })
     match s.who s.cur with
     | some o => pcLegal o.p.pc && (pinned o.p (lineBase o.p.pc)).isNone && !(s.fillTlbs o.g.core o.asid [lineBase o.p.pc]).2 &&
        s.portWaits (clusterOf o.g.core) o.netClass 4
     | none => false) = true := by decide +kernel

theorem witness_IssueChecksInOrder_targets :
    ((base.targetFirst (.br { flow with offs := 1 })).map fun e => e.2.code) = some 4 ∧
    finds (base.modUnit 1 fun u => { u with mode := 2, log := [0, 0, 0x300000, 0, 0, 0, 0, 0] }) (.ld mem) (trapsWith 0x109) = true := by
  decide +kernel

/-- A trap queue for control mode, once the frame of the part is saved; the part has no quads, so that its frame is short. -/
def framed : State :=
  let s := part (poke base base.tables.tqtab 8 0x00300041) fun p => { p with quads := 0 }
  match s.who s.cur with
  | some o => ((((s.flushSigs o).unpin o).nextSerial.1.savePart o 2 s.trans.serial).1.nextSeq o.g.core).1
  | none => s
theorem witness_TrapEntry_queue : framed.trapQueue 0 = some (0x300000, 4, false) ∧
    (framed.putTrap 0 0 (List.replicate 128 0)).2 = Put.done ∧ framed.slices = [] ∧ framed.link.fixed = [] := by
  refine ⟨?_, ?_, ?_, ?_⟩
  · decide +kernel
  · decide +kernel
  · decide +kernel
  · decide +kernel

theorem witness_BuffersDrain_bad :
    (let s := (poke (poke base (base.tables.tqtab + 16) 8 0x00300041) 0x300000 64 0).modCluster 0 fun c => { c with tbuf := [(1, List.replicate 128 0)] }
     let t : State := { s with mem := { s.mem with bad := [.dev 0x300040] } }
     (State.queueTrap 0 t 1 (List.replicate 128 0)).2 == Put.bad && !t.portWaits 0 0 10 && !t.portWaits 0 0 6) = true := by decide +kernel

/-- A launch of one wave that R285 accepts, and one whose grid is empty. -/
def launchUnit (grid : Word) : WorkUnit :=
  { blankUnit .launch 1 false none 0x200000 with
    words := recordOf 64 [(0, 0x01000000), (0x10, grid), (0x14, 1), (0x18, 1), (0x1C, 3), (0x20, 0x00802001), (0x24, 65536), (0x2C, 0x1110),
      (0x38, 0x01000000), (0x40, 0x0C77), (0x48, 0xB8), (0x4C, 0x04000800)],
    desc := recordOf 16 [(8, 0xFFFFFFFF), (12, 0xFFFFFFFF), (48, 0x040000B8), (52, 2048)], state := .checking }
/-- A graph of two nodes; the launch of the first is in a state, the second waits for it. -/
def graph2 (k : UnitState) : State :=
  let g : WorkUnit := { graphUnit with lists := [[0x200000, 0, 0xFFFFFFFF, 0], [0x200000, 0, 0xFFFFFF00, 0]] }
  withUnit (withUnit jobs 5 g) 6 { blankUnit .launch 1 false (some 5) 0x200000 with state := k, index := 0 }

theorem witness_UnitsAdvance :
    (!jobs.ioWaits) = true ∧
    ([(1, none), (0, some 2)].all fun e =>
      let s := withUnit jobs 6 (launchUnit e.1)
      (s.fetchRecord 6).2 && match (s.fetchRecord 6).1.units.get 6 with
        | some v => launchCause v ((s.fetchRecord 6).1.kindWanted v) == e.2 | none => false) = true ∧
    ({ launchUnit 1 with addr := 0x200010 }.addr.toNat % 256 ≠ 0 ∧ { launchUnit 1 with fate := some (3, 0) }.fate = some (3, 0)) ∧
    nodePreds [0x200000, 0, 0xFFFFFF00, 0] = [0] ∧
    ([(UnitState.ended 0, true, true), (.ended 3, true, false), (.running, false, false)].all fun e =>
      let k := (((graph2 e.1).children 5).find? fun k => k.2.index = 0).map fun k => k.2.state
      (match k with | some (.ended _) => true | _ => false) == e.2.1 && (k == some (.ended 0)) == e.2.2) = true := by decide +kernel

/-- A draw's group whose frame an attach is to write. -/
def attachedDraw : State :=
  ((base.modUnit 1 fun u => { u with words := u.words.set 0 0x01100000 }).modGroup (gidOf base) fun g => { g with heldGo := true }).modCore 0
    fun c => { c with freeze := { Freeze.reset with frozen := true, attached := true } }
theorem witness_GroupsRun_attached : groupIs attachedDraw (fun id g _ => attachedDraw.attachDue id g) = true ∧
    (let s := base.modCtx 5 fun c => { c with resets := true }
     ((s.resolveCtx 5).failUnits 5).2) = true := by decide +kernel

/-- The part of `base` is in the slot that is sampled next, profiled or not. -/
def sampled (on : Bool) : State :=
  ((base.modUnit 1 fun u => { u with ctl := false, ctx := 1, prof := on, log := [0, 0, 0, 0, 0, 0, 0x300000, 0] }).modCtx 1 fun c =>
    { c with logctl := 0x10 }).modCore 0 fun c => { c with slotRot := [46, 0, 0, 0] }
theorem witness_DebugEvents_sample : ([true, false].all fun b =>
    let s := sampled b
    match (s.slotted 0 0).find? fun p => p.2.slot = (s.core 0).slotRot.getD 0 0 with
    | some (pr, _) => match s.who pr with
      | some o => (!o.u.ctl && o.u.prof && (s.ctx o.u.ctx).logctl.getLsbD 4) == b
      | none => false
    | none => false) = true ∧
    ((base.slotted 0 0).find? fun p => p.2.slot = 0).isNone = true ∧ (base.bucket (bucketKey 64 0)).en = false := by decide +kernel

/-- An atomic with a ticket of another device, and a replay whose slice logs another ticket next. -/
def ticketed : DomainReq := { request with op := some 0, len := 4, data := some [1, 0, 0, 0], ticket := some (3, 0, 1) }
def replays : State :=
  let s := withUnit linked 9 { blankUnit .launch 1 false none 0 with mode := 3, log := [1, 0, 0, 0, 0x300000, 0, 0, 0] }
  let ring := 0x300000 + homeSlice 0x10000 * (64 + 32 * 64)
  poke (poke s ring 4 1) (ring + 64) 32 (leNat (evBytes 0 0 (512 + homeSlice 0x10000)
    { kind := 15, code := 0, wid := 4, part := 0, pc := 0x10000, dseq := 0, qmask := 1, data := 0 }))
theorem witness_DomainRequests_ticket :
    (!replays.remoteTurn ticketed 1 0x10000 && linked.remoteTurn request 0 0x10000 && remoteOk ticketed 0x10000 &&
      (arrived replays (.domain ticketed) 0x10000 8).net.arrived.any fun p => p.inb == some (.domain ticketed)) = true := by
  decide +kernel

/-- A full snoop filter. -/
theorem witness_HostRequests_full (n : Nat) (h : 2 ^ 20 ≤ n) :
    ∃ u, ({ linked with link := { linked.link with filter := 7 :: List.replicate n 7 } } : State).filterLine 0x4000 = .error u := by
  simp only [State.filterLine]
  rw [if_neg (by simp), if_pos (by simp; omega)]
  exact ⟨_, rfl⟩

/-- The boot ROM of a device with power, after step n. -/
def booting (n : Nat) (b : BootIn) : State := { State.reset with boot := { Boot.reset 1 with phase := BitVec.ofNat 4 n, rom := some b } }
def bootIn (good : Bool) : BootIn := { selfOk := good, badDie := if good then none else some 2, linkOk := good, portsDown := 5, written := [] }
theorem witness_BootStepsRun : ([true, false].all fun good => (List.range 6).all fun n =>
    (booting n (bootIn good)).heat.powered && (booting n (bootIn good)).boot.rom == some (bootIn good) &&
    (booting n (bootIn good)).boot.phase == BitVec.ofNat 4 n) = true := by decide +kernel
/-- R411: a checked image that fails stops the ROM with ERR 0x01, a die that fails training with 0x10 and its number. -/
theorem test_boot_errors :
    ((booting 0 (bootIn false)).romTurn.boot.err, (booting 1 (bootIn false)).romTurn.boot.err, (booting 3 (bootIn false)).romTurn.boot.err) =
      (0x01, 0x12, 0x30) ∧ (booting 4 (bootIn true)).romTurn.boot.phase = 5 := by decide +kernel

/-- A ramp of cluster 0 that ends at a point, with a queued point, in trip 2 or not. -/
def ramped (tpt qpt : Nat) (trip : Bool) : State :=
  let s := base.modCluster 0 fun c => { c with dvfs := { cpt := 12, tpt := tpt, qpt := qpt, ramp := true, left := 0 } }
  { s with heat := { s.heat with trips := [{ active := false, dwell := 0 }, { active := trip, dwell := 0 }, { active := false, dwell := 0 }] } }
/-- R405: 4 µs a point from 12 to 15; to 9 in trip 2, where the clock changes at once. -/
theorem test_ramp_end :
    (let d := ((after (.dvfsRampEnd 0) (ramped 12 15 false)).cluster 0).dvfs
     (d.cpt, d.tpt, d.qpt, d.ramp, d.left) = (12, 15, 0, true, 12000)) ∧
    (let d := ((after (.dvfsRampEnd 0) (ramped 12 0 true)).cluster 0).dvfs
     (d.cpt, d.tpt, d.ramp, d.left) = (9, 9, true, 12000)) ∧
    (ramped 12 0 false).trip2 = false ∧ (ramped 12 12 false).trip2 = false := by decide +kernel
/-- R407: 95 °C after 20 ms clear makes level 1 due, and its change sets it and signals vector 0. -/
theorem test_trip1 :
    let s : State := { base with heat := { base.heat with trips := List.replicate 3 { active := false, dwell := 20000000 } } }
    let t := after (.thermalSample { hot with temps := List.replicate 66 0x5F0 }) s
    (t.heat.due, (after (.tripChange 1) t).heat.trip, (after (.tripChange 1) t).heat.due, (after (.tripChange 1) t).out.contains (.msix 0),
      (after (.tripChange 2) t).heat.trip, ((after (.tripChange 1) t).die 3).tail) = ([1], 1, [], true, 0, 1) := by decide +kernel

/-! ### Well-formedness: a legal term and terms that break one check each -/

def odd64 : AluOp := { alu2 .i64 with a := vR 5 }
def eng0 : EngOp := eng 0
def mmaT : EngOp := { eng 0 with dst := dA 0, a := sR 24 }
def smpT : EngOp := { eng 0 with h := hA, dst := dV 24, a := vR 12, b := sR 16, c := sR 5 }

theorem test_wf_legal : ([.iadd (alu2 .i32), .ffma (alu .f32), .fcvt { alu1 .f32 with sub := 4 }, .sati { alu1 .i8 with sub := 0 },
    .fpk2 { alu .f32 with sub := 2 }, .qswz (xl 0xB1), .shfl { xl 3 with b := vR 6, c := vR 8 }, .redux (xl 0), .br flow, .brc (brc 1),
    .brx jump, .rep { flow with cond := sR 4 }, .exit (ctl 0), .waitn { ctl 3 with a := sR 5 }, .getst (let c := ctl 9; { c with dst := dS 20 }),
    .ld mem, .st mem, .lds { mem with addr := sR 10, reg := dS 12 }, .ldx { mem with szty := 9 }, .fence (ctl 11), .fencex (ctl 0x84C),
    .monw { monEq with h := h7 }, .atom { mem with szty := 0 }, .atomc { mem with szty := 0 }, .mcst { mem with scope := 4 },
    .bcopy { eng 0 with dst := dS 20, a := sR 24, b := sR 32 }, .macq { eng 0 with dst := dA 0 }, .mma mmaT, .twld { eng 1 with a := sR 10 },
    .tqnt { eng 4 with dst := dV 2, a := vR 4, b := vR 6 }, .smp smpT, .tileq { eng 0 with dst := dS 16, minw := 6 },
    .bari { ctl 0 with a := sR 4, b := sR 5 }, .gbar (ctl 0x60000), .launch { ctl 0 with dst := dS 20, a := sR 10 }, .trap (ctl 7),
    .rettPc { rett 4 with imm := 2 }, .rdsr { ctl 0x10100 with dst := dS 20 }, .seqrdOrd { ctl 2 with dst := dS 20 }] : List Instr).all
    Instr.wf = true := by decide +kernel

/-- Operands (R38 to R46): numbers beyond a class, broadcast bits without the modifier, a modifier on S, a literal outside VI
and X, an odd pair, a destination of another class, S with a source that varies by lane or under a predicate. -/
theorem test_wf_operands : ([.iadd { alu2 .i32 with a := sR 128 }, .iadd { alu2 .i32 with a := pR 8 }, .iadd { alu2 .i32 with a := cR 92 },
    .iadd { alu2 .i32 with a := { vR 12 with cls := .special } }, .iadd { alu2 .i32 with a := { vR 4 with blane := 1 } },
    .iadd { alu2 .i32 with a := { sR 4 with lmod := 1 } }, .iadd { alu2 .i32 with a := { vR 0 with cls := .lit } },
    .iadd odd64, .iadd { alu2 .i64 with dst := dV 3 }, .iadd { alu2 .i32 with dst := dA 0 }, .iadd { alu2 .i32 with dst := dP 1 },
    .iadd { alu2 .i32 with dst := dS 128, a := sR 4, b := sR 5 }, .iadd { alu2 .i32 with dst := dS 20 },
    .iadd { alu2 .i32 with dst := dS 20, a := sR 4, b := sR 5, h := { h7 with pred := 1 } }, .icmp { alu2 .i32 with dst := dP 8 },
    .mov { alu1 .i32 with dst := dT 0 }, .movi (lit .i32 |> fun x => { x with a := sR 4 })] : List Instr).all (fun i => !i.wf) = true := by
  decide +kernel

/-- Fields of opcodes 0x00 to 0x4A (R82, R88 to R100). -/
theorem test_wf_vector_fields : ([.iadd (alu .i32), .iadd (alu2 .f32), .iadd { alu2 .i32 with sub := 1 },
    .iadd { alu2 .i32 with rnd := .rz }, .iadd { alu2 .i32 with abs0 := true }, .iadd { alu2 .i32 with abs1 := true },
    .iadd { alu2 .i32 with aux := 1 }, .imulh { alu2 .i32 with sat := true }, .imulh (alu2 .i8), .iabs (alu1 .n32), .shl (alu2 .i16),
    .icmp { alu2 .i32 with sub := 6 }, .addc (alu .i32), .addc { alu .n32 with sub := 8 }, .sati { alu1 .i8 with sub := 4 },
    .sati { alu1 .i8 with sub := 12 }, .lea { lit .i32 with a := sR 10, b := vR 4, imm := 32 },
    .lea { lit .i32 with a := sR 11, b := vR 4, imm := 2 }, .fadd (alu2 .i32), .fmin { alu2 .f32 with rnd := .rz },
    .fcmp { alu2 .f32 with sub := 8 }, .fclass (alu2 .f32), .fcvt { alu1 .f32 with sub := 0 }, .fcvt { alu2 .f32 with sub := 10, aux := 1 },
    .ftoi { alu1 .i32 with sub := 1 }, .itof { alu1 .f32 with sub := 4 }, .exp2 (alu1 .f64), .exp2 { alu1 .f32 with rnd := .rz },
    .sqrt (alu1 .f16), .hadd2 (alu2 .f32), .fdot2 (alu .f32), .fpk2 { alu .f32 with sub := 1 }, .fpk2 { alu .f32 with sub := 2, aux := 1 },
    .qdot4 { alu .i32 with sub := 4 }, .qswz { xl 0 with minw := 7 }, .qswz { xl 0 with ty := .i16 }, .ballot { xl 1 with ctl := 1 },
    .vote { xl 0 with sub := 3, dst := dP 1 }, .shfl { xl 4 with b := vR 6, c := vR 8 }, .redux (xl 9), .redux { xl 6 with ty := .i32 },
    .scanx { xl 0 with sub := 16 }, .readlane { xl 0 with dst := dS 20, b := vR 6 }, .writelane { xl 0 with a := vR 4, b := cR 1 },
    .xshuf { xl 0 with b := sR 4, minw := 5 }] : List Instr).all (fun i => !i.wf) = true := by decide +kernel

/-- Fields of control flow and memory (R49, R187 to R204, R223 to R231, R245, R266 to R275). -/
theorem test_wf_flow_memory : ([.br { flow with slot := 5 }, .br { flow with hint := 1 }, .br { flow with nocut := true },
    .br { flow with h := hA }, .br { flow with h := { h7 with pred := 1 } }, .brc { brc 1 with hint := 3 },
    .brc { flow with cond := { vR 0 with cls := .special } }, .brx { jump with a := sR 9 }, .brx { jump with a := vR 8 },
    .brx { jump with a := { sR 8 with neg := true } }, .call { flow with link := dS 21 }, .rep { flow with cond := vR 4 },
    .exit (ctl 1), .knit { ctl 0 with a := sR 4 }, .cutctl { ctl 0x08 with dst := dS 20 }, .waitn { ctl 12 with a := sR 5 },
    .getst { ctl 10 with dst := dS 20 }, .getst { ctl 0xC9 with dst := dS 20 }, .setfmt { ctl 1 with a := sR 4, b := sR 5 },
    .ld { mem with szty := 8 }, .ld { mem with space := 5 }, .ld { mem with ord := 2 }, .ld { mem with ord := 1, space := 3 },
    .ld { mem with scope := 6 }, .ld { mem with evict := 6 }, .ld { mem with addr := vR 11 }, .ld { mem with reg := dS 12 },
    .ld { mem with szty := 5, reg := dV 13 }, .st { mem with ord := 1 }, .st { mem with space := 4 }, .lds { mem with addr := sR 10 },
    .ldx mem, .stx mem, .ldw mem, .prf mem, .invl { mem with reg := dV 0 }, .invlAll mem, .wblAll { mem with space := 0 },
    .fence (ctl 0), .fence (ctl 24), .fencex (ctl 0x40), .fencex (ctl 0x84D), .monw { monEq with h := hA }, .monw { monEq with evict := 1 },
    .atom { mem with space := 2 }, .atomc { mem with szty := 2 }, .red { mem with szty := 11 }, .red { mem with ord := 1, szty := 0 },
    .mcst { mem with scope := 3 }, .mred { mem with scope := 4, szty := 12 }] : List Instr).all (fun i => !i.wf) = true := by
  decide +kernel

/-- Fields of copies, engines and the texture path (R104, R142, R150, R151, R170, R238, R244). -/
theorem test_wf_engines : ([.bcopy { eng 0 with dst := dS 20, a := sR 25, b := sR 32 }, .bcopy { eng 0x100 with dst := dS 20, a := sR 24, b := sR 32 },
    .bcopy { eng 0 with dst := dS 20, a := sR 24, b := sR 32, c := sR 4 }, .gcopy { eng 0 with dst := dS 20, a := sR 24, b := sR 32 },
    .bcopy { eng 2 with dst := dS 20, a := sR 24, b := sR 34 }, .cpoll { eng 1 with dst := dS 20, a := sR 4 },
    .wswin { eng 0 with dst := dS 21, a := sR 4 }, .macq { eng 0 with dst := dA 8 }, .macq { eng 0 with dst := dV 0 }, .mma { mmaT with a := sR 25 },
    .mma { mmaT with mod := 16 }, .mma { mmaT with minw := 7 }, .mfence { eng 2 with dst := dS 20 }, .mwait { eng 0 with a := vR 4 },
    .mrd { eng 0 with dst := dV 2, a := vR 4 }, .mrd { eng 25 with dst := dV 2, a := vR 4 }, .mwr { eng 9 with dst := dA 0, a := vR 4, b := vR 6 },
    .mdrain { eng 7 with dst := dA 0, a := sR 24, b := sR 34 }, .twld { eng 4 with a := sR 10 }, .tmac { eng 1 with dst := dT 0, a := sR 24 },
    .tdrain { eng 3 with dst := dT 0, a := sR 24 }, .tzero { eng 0 with dst := dT 2 }, .tzeroPlane { eng 0 with dst := Dst.none },
    .tpack { eng 4 with dst := dV 2, a := vR 4, b := vR 6, c := vR 8 }, .tunpk { eng 0 with dst := dV 3, a := vR 4, b := vR 6 },
    .tqnt { eng 5 with dst := dV 2, a := vR 4, b := vR 6 }, .tstat { eng 5 with dst := dS 20 }, .smp { smpT with h := h7 },
    .smp { smpT with dst := dV 25 }, .smp { smpT with mod := 2 }, .smpl { smpT with b := sR 17 }, .smpg { smpT with a := sR 12 },
    .gath4 { smpT with mod := 1 }, .txld smpT, .ldec { smpT with c := sR 11 }, .edge { eng 0 with dst := dV 2, a := sR 117, b := vR 4 },
    .tileq { eng 0 with dst := dS 16 }, .tileq { eng 0 with dst := dS 24, minw := 6 }, .emit { eng 2 with a := vR 12 },
    .rtrace { smpT with b := sR 10 }, .rhit { eng 0 with dst := dV 4 }, .imgst { eng 0 with a := vR 4, b := vR 13, c := sR 16 },
    .rninv { ctl 1 with a := sR 10 }, .rninvAll (ctl 0)] : List Instr).all (fun i => !i.wf) = true := by decide +kernel

/-- Fields of synchronisation and the system instructions (R317, R345, R375, R385, R399, R406). -/
theorem test_wf_system : ([.bari { ctl 1 with a := sR 4, b := sR 5 }, .bari { ctl 0x70000 with a := sR 4, b := sR 5 },
    .bari { ctl 0 with a := vR 4, b := sR 5 }, .bari { ctl 0 with a := { sR 4 with neg := true }, b := sR 5 }, .bariGroup { ctl 0 with a := sR 4 },
    .arrive { ctl 0 with a := sR 4 }, .arrdrop { ctl 0 with a := sR 4, b := sR 5 }, .bwait { ctl 0 with a := sR 4, b := vR 5 },
    .qpush { ctl 16 with a := sR 4 }, .qpop (ctl 0), .qtry { ctl 0 with dst := dS 21 }, .qallow { ctl 0 with a := vR 4, b := sR 5 },
    .qallowInit { ctl 0 with a := sR 4, b := sR 5 }, .gbar (ctl 0), .launch { ctl 0 with dst := dS 20, a := sR 11 },
    .cancelHandle { ctl 1 with a := sR 4 }, .cancelLaunch { ctl 1 with a := sR 4 }, .ccwait { ctl 0 with dst := dS 21, a := sR 10, b := sR 22 },
    .rosb { ctl 0x60000 with a := sR 8 }, .rose (ctl 0), .trap (ctl 0x10000), .trap { ctl 7 with a := vR 4 }, .brk { ctl 7 with h := hA },
    .rettPc { rett 4 with imm := 2, b := sR 9 }, .rettSkip { rett 4 with imm := 1 }, .rdsr { ctl 0x10101 with dst := dS 20 },
    .rdsr { ctl 0x20000 with dst := dS 20 }, .wrsr { ctl 0x100 with a := vR 4 }, .haltDevice { ctl 3 with dst := dS 20, a := sR 4 },
    .haltGo { ctl 0 with dst := dS 20, a := sR 4 }, .tlbinvAll { ctl 0 with a := sR 4 }, .tlbinvPage { ctl 2 with a := sR 4, b := sR 9 },
    .assayPut { ctl 1 with a := sR 4 }, .assayFrz (ctl 2), .mark { ctl 256 with a := sR 4 }, .logctl { ctl 0x20 with dst := dS 20, a := sR 6 },
    .seqrdTime { ctl 0 with dst := dS 21 }, .dvreq { ctl 1 with dst := dS 20, a := sR 6, b := sR 7 }] : List Instr).all
    (fun i => !i.wf) = true := by decide +kernel

/-! ### One step on small states; results from the spec's examples and by hand -/

/-- Lane l of V register r after an instruction. -/
def lane (i : Instr) (s : State) (r l : Nat) : Nat :=
  (((after i s).waves.get s.cur.wave).map fun w => (w.vreg r l).toNat).getD (2 ^ 32)
def pregOf (i : Instr) (s : State) (r : Nat) : Nat :=
  (((after i s).waves.get s.cur.wave).map fun w => (w.preg r).toNat).getD (2 ^ 64)
def sregOf (s : State) (r : Nat) : Nat := ((s.waves.get s.cur.wave).map fun w => (w.sreg r 0).toNat).getD (2 ^ 32)
/-- V4 and V6 hold a and b in every lane. -/
def two (a b : Nat) : State := setV (setV base 4 fun _ => a) 6 fun _ => b

/-- 04_vector_arithmetic.md: BFX of 0xA000_0000 by 0x081C; FFRAC of −2^−30 rounds to 1.0 and gives the largest fraction. -/
theorem test_bfx : lane (.bfx (alu2 .i32)) (two 0xA0000000 0x081C) 2 0 = 0xFFFFFFFA ∧
    lane (.bfx (alu2 .n32)) (two 0xA0000000 0x081C) 2 0 = 0xA := by decide +kernel
theorem test_ffrac : lane (.ffrac (alu1 .f32)) (two 0xB0800000 0) 2 0 = 0x3F7FFFFF := by decide +kernel

/-- 0x7FFF_FFFF + 1 wraps; with SAT it stays (R88). 0 − 1 borrows through the word. -/
theorem test_iadd : lane (.iadd (alu2 .i32)) (two 0x7FFFFFFF 1) 2 0 = 0x80000000 ∧
    lane (.iadd { alu2 .i32 with sat := true }) (two 0x7FFFFFFF 1) 2 0 = 0x7FFFFFFF := by decide +kernel
theorem test_isub : lane (.isub (alu2 .n32)) (two 0 1) 2 3 = 0xFFFFFFFF := by decide +kernel

/-- 03_number_formats.md: ±(1 + 2^−8) into BF16 in four modes. -/
theorem test_fcvt_bf16 :
    let conv := fun (m : Rnd) (v : Nat) => lane (.fcvt { alu1 .bf16 with sub := 4, rnd := m }) (two v 0) 2 0
    conv .rn 0x3F808000 = 0x3F80 ∧ conv .ru 0x3F808000 = 0x3F81 ∧ conv .rd 0xBF808000 = 0xBF81 ∧ conv .rna 0xBF808000 = 0xBF81 := by
  decide +kernel

/-- 03_number_formats.md: the table of M8 codes, and the encodings of 3.0, 9.859375 and −3 × 10^−15's sign of zero. -/
theorem test_m8 : [0x00, 0x01, 0x80, 0x40, 0x60, 0xE0, 0x7F, 0x30, 0x19].map decodeM8 =
    [0, 0x7F800000, 0x7FC00000, 0x3DCCCCCD, 0x3F800000, 0xBF800000, 0x411B8000, 0x41200000, 0x45ABE000] := by decide +kernel

/-- 03_number_formats.md: the trits (+1, 0, −1, −1, +1) pack to 0xA7; TUNPK takes them out again (R147). -/
theorem test_tpack : lane (.tpack { eng 0 with dst := dV 2, a := vR 4, b := vR 6, c := cR 0 }) (two 0xFFFF0001 1) 2 0 = 0xA7 := by
  decide +kernel
theorem test_tunpk :
    let i : Instr := .tunpk { eng 0 with dst := dV 2, a := vR 4, b := cR 0 }
    lane i (two 0xA7 0) 2 0 = 0xFFFF0001 ∧ lane i (two 0xA7 0) 3 0 = 1 := by decide +kernel

/-- R148: 1.5 is above the threshold 1.0, −1.5 below −1.0, 0.5 neither; the threshold's sign does not count. -/
theorem test_tqnt :
    let t := fun (a b : Nat) => lane (.tqnt { eng 4 with dst := dV 2, a := vR 4, b := vR 6 }) (two a b) 2 0
    t 0x3FC00000 0xBF800000 = 1 ∧ t 0xBFC00000 0x3F800000 = 0xFFFFFFFF ∧ t 0x3F000000 0x3F800000 = 0 := by decide +kernel

/-- QSWZ.SW1032 swaps neighbours of a quad (R97). -/
theorem test_qswz :
    (List.range 4).map (lane (.qswz { xl 0xB1 with a := vR 4 }) (setV base 4 fun l => l) 2) = [1, 0, 3, 2] := by decide +kernel

/-- 04_vector_arithmetic.md: SHFL.DOWN by 4 in part X of a cut wave; lanes of part Y do not give their value. -/
def cutHalf : State := after (.brc (brc 1))
  (reg wide fun w => ((w.setP 1 0xFFFF (fun l => l < 8)).setV 4 0xFFFF fun l => BitVec.ofNat 32 (100 + l)).setV 8 0xFFFF
    fun _ => 0xFFFFFFFF)
theorem test_shfl :
    (List.range 8).map (lane (.shfl { xl 2 with b := cR 4, c := vR 8, ty := .n32 }) cutHalf 2) =
      [104, 105, 106, 107, 0xFFFFFFFF, 0xFFFFFFFF, 0xFFFFFFFF, 0xFFFFFFFF] := by decide +kernel

/-- 07_pixels_texels_rays.md: the upper-left half of a tile; BALLOT of its coverage gives 0x01FF_1FFF and 0x0001_001F. -/
def halfTile : State := regs (reg tiles16 fun w => { w with parts := w.parts.upd 0 fun p => { p with quads := 0xFFFF, active := ~~~ 0 } })
  [(4, 0), (5, 0x800), (6, 0), (7, 0), (8, 0xFFFFF800), (9, 0xFFFFF800), (10, 0x400000), (11, 0), (12, 0x800), (13, 0), (14, 0), (15, 0)]
theorem test_edge :
    pregOf (.edge { eng 0 with dst := dP 1, a := sR 4, b := { vR 0 with cls := .special } }) halfTile 1 = 0x0001001F01FF1FFF := by
  decide +kernel

/-- A stored word reads back byte by byte, the lowest at the lowest address (R193, R3). -/
theorem test_store :
    let s := sent (.st { mem with reg := dV 4 }) (setV (setV (setV base 10 fun l => 0x200000 + 8 * l) 11 fun _ => 0) 4 fun _ => 0x12345678)
    ((after (.storePerformed (lastOp s) []) s).bytesAt (.dev 0x200008) 4).map BitVec.toNat = [0x78, 0x56, 0x34, 0x12] := by
  decide +kernel

/-- The one request of a load goes from cluster 0's stop to a slice's in at most 12 hops and there out of the torus (R320). -/
theorem test_torus :
    let s := after (.ld mem) base
    s.heldBack (lastOp s) = true ∧ (s.netAfter 14).heldBack (lastOp s) = false ∧ (s.netAfter 14).net.arrived.length = 1 := by
  decide +kernel

/-- R323's example: fabric port 13 uses slice stop 9, at (3, 4). -/
theorem test_port13 : portStop (65 + 13) (sliceStop 0) = sliceStop 9 ∧ sliceStop 9 = stopAt 3 4 := by decide +kernel

/-- LD.I8 sign-extends its byte (R190); the base is the S pair's 0x20_0000. -/
theorem test_load :
    let s := sent (.ld { mem with addr := sR 10, szty := 1, reg := dV 2 }) (poke base 0x200000 1 0x80)
    lane (.loadComplete (lastOp s) []) s 2 0 = (if sregOf base 10 = 0x200000 then 0xFFFFFF80 else 0) := by decide +kernel

/-- Four lanes add 1 to one word in ascending order: each gets the sum before its own step (R232). -/
theorem test_atom :
    let s := sent (.atom { mem with addr := sR 10, scope := 2, szty := 0, reg := dV 2 }) (setV (poke base 0x200000 4 7) 2 fun _ => 1)
    (List.range 4).map (lane (.atomicStep (lastOp s) []) s 2) = [7, 8, 9, 10] := by decide +kernel

/-- 13_synchronisation.md: BARI makes the phase 1, ARRIVE writes token 1, and the arrival that completes it makes it 2. -/
theorem test_arrive : sregOf passed 20 = 1 ∧ (passed.waves.get passed.cur.wave).map (fun w =>
    (passed.readBarr w.group 0x400).phase) = some 2 := by decide +kernel

/-- R385: BRK in control mode without a trap queue stops its part for the trap with code 0x107 and the tag as VAL. -/
theorem test_brk : (((after (.brk (ctl 7)) base).waves.get base.cur.wave).bind fun w => (w.parts.get 0).map fun p =>
    match p.status with | .stopping t _ => (t.code, t.val.toNat) | _ => (0, 0)) = some (0x107, 7) := by decide +kernel

end Sys2Proof.Tests
end

section
/-! PROOFS. The links (R320 to R325, R349 to R357): what a collective's commands, a window of the buckets, a request of the
host or of the domain and a loss each do, and the torus's routes, which reach their end. -/

namespace Sys2Proof.Machine

open Sys2Proof

/-! ### Collective groups (R357) -/

@[simp] theorem State.collAt_modColl (s : State) (g : Nat) (f : Coll → Coll) : (s.modColl g f).collAt g = f (s.collAt g) := by
  simp [State.modColl, State.collAt]

@[simp] theorem State.collAt_collStat (s : State) (v : Word) (g : Nat) : (s.collStat v).collAt g = s.collAt g := rfl

@[simp] theorem State.collStat_collstat (s : State) (v : Word) : (s.collStat v).link.collstat = v := rfl

theorem State.isOpen_closeColl (s : State) (g : Nat) : ((s.closeColl g).collAt g).isOpen = false := by
  simp [State.closeColl]

theorem State.openColl_ready {s : State} {g : Nat} (hd : (s.collAt g).drain = 0) (ho : (s.collAt g).isOpen = false)
    (hb : s.collBad (s.collAt g) = false) :
    s.openColl g = (s.modColl g fun c => { c with isOpen := true }).collStat 0 := by
  simp [State.openColl, hd, ho, hb]

theorem State.openColl_busy {s : State} {g : Nat} (hd : (s.collAt g).drain ≠ 0) : s.openColl g = s.collStat 1 :=
  if_pos (bne_iff_ne.mpr hd)

theorem exec_collOpen_of_lt {s : State} {g : Nat} (hg : g < 4096) : exec (.collOpen g) s = .next (s.openColl g) := by
  simp [exec_collOpen, stepCollOpen, hg]

theorem exec_collClose_of_lt {s : State} {g : Nat} (hg : g < 4096) : exec (.collClose g) s = .next (s.closeColl g) := by
  simp [exec_collClose, stepCollClose, hg]

/-! ### Token buckets (R322, R325) -/

/-- A window in which nothing waits only refills the buckets. -/
theorem State.window_of_none_held {s : State} (h : ∀ e ∈ s.buckets, e.2.held = []) : s.window =
    { s with net := { s.net with clks := s.net.clks - 1024 }, buckets := s.buckets.map fun e => (e.1, e.2.window) } := by
  have idle : ∀ (l : List (Nat × Bucket)), (∀ e ∈ l, e.2.held = []) → ∀ t : State,
      l.foldl (fun t b => t.injectHeld b.1 b.2.held.length) t = t := by
    intro l hl t
    induction l with
    | nil => rfl
    | cons e r ih =>
      have ⟨he, hr⟩ := List.forall_mem_cons.mp hl
      simp [he, State.injectHeld, ih hr]
  refine idle _ (fun e he => ?_) _
  obtain ⟨b, hb, rfl⟩ := List.mem_map.mp he
  exact h b hb

theorem exec_requestInject_of_le {s : State} {port cls : Nat} (hp : port ≤ 82) (hc : cls ≤ 3) :
    exec (.requestInject port cls) s = .next (s.injectHeld (bucketKey port cls) 1) := by
  simp [exec_requestInject, stepRequestInject, hp, hc]

section
variable {s : State} {port cls : Nat} {p : Packet} {r : List Packet} (hk : (s.bucket (bucketKey port cls)).held = p :: r)
  (hp : port ≤ 82) (hc : cls ≤ 3)
include hk hp hc

theorem exec_requestInject_pass (hb : s.bucketOpen p = true) (hs : s.sinkOpen p = true) :
    exec (.requestInject port cls) s =
      .next ((s.inject p).modBucket (bucketKey port cls) fun b => { b with held := r }) := by
  simp [exec_requestInject_of_le hp hc, State.injectHeld, hk, hb, hs]

theorem exec_requestInject_noCredit (hb : s.bucketOpen p = false) : exec (.requestInject port cls) s =
    .next (s.modBucket (bucketKey port cls) fun b => { b with waited := b.waited || (b.en && decide (b.cred < p.charge)) }) := by
  simp [exec_requestInject_of_le hp hc, State.injectHeld, hk, hb]

theorem exec_requestInject_noEntry (hb : s.bucketOpen p = true) (hs : s.sinkOpen p = false) :
    exec (.requestInject port cls) s = .next s := by
  simp [exec_requestInject_of_le hp hc, State.injectHeld, hk, hb, hs]

end

theorem exec_bucketWindow_of_due {s : State} (h : 1024 ≤ s.net.clks) : exec .bucketWindow s = .next s.window.finishStops := by
  simp [exec_bucketWindow, stepBucketWindow, Nat.not_lt.mpr h]

/-! ### Stops (R13) -/

theorem stopX_stopAt {x : Nat} (y : Nat) (hx : x < 16) : stopX (stopAt x y) = x := by
  simp only [stopX, stopAt]; omega

theorem stopY_stopAt {x : Nat} (y : Nat) (hx : x < 16) : stopY (stopAt x y) = y := by
  simp only [stopY, stopAt]; omega

/-- The stop of die `d` in row `y` whose column there is `2b + e`: its index says `b`, its kind whether `e` is the row's
parity. -/
theorem stopAt_kind {d b e y : Nat} (hd : d < 4) (hb : b < 2) (he : e < 2) :
    (isClusterStop (stopAt (4 * d + 2 * b + e) y) = true ↔ e = y % 2) ∧
    stopIndex (stopAt (4 * d + 2 * b + e) y) = 16 * d + 2 * y + b ∧ stopDie (stopAt (4 * d + 2 * b + e) y) = d := by
  have hx : 4 * d + 2 * b + e < 16 := by omega
  simp only [isClusterStop, stopIndex, stopDie, stopX_stopAt _ hx, stopY_stopAt _ hx, decide_eq_true_eq]
  omega

theorem clusterStop_kind {c : Nat} (h : c < 64) : isClusterStop (clusterStop c) = true ∧ stopIndex (clusterStop c) = c ∧
    stopDie (clusterStop c) = c / 16 := by
  have ⟨kind, index, die⟩ := stopAt_kind (d := c / 16) (b := c % 2) (e := c % 16 / 2 % 2) (y := c % 16 / 2)
    (by omega) (by omega) (by omega)
  exact ⟨kind.mpr rfl, index.trans (by omega), die⟩

theorem sliceStop_kind {c : Nat} (h : c < 64) : isClusterStop (sliceStop c) = false ∧ stopIndex (sliceStop c) = c ∧
    stopDie (sliceStop c) = c / 16 := by
  have ⟨kind, index, die⟩ := stopAt_kind (d := c / 16) (b := c % 2) (e := 1 - c % 16 / 2 % 2) (y := c % 16 / 2)
    (by omega) (by omega) (by omega)
  exact ⟨Bool.eq_false_iff.mpr fun hk => absurd (kind.mp hk) (by omega), index.trans (by omega), die⟩

/-! ### Routes (R320)

The direction of a route is fixed by its source, so what falls by one at each hop is the distance that is left in that
direction, not the shortest distance. -/

/-- The hops left from `t` to `b` on a ring of `n` stops, in one direction. -/
def ringGap (n : Nat) (up : Bool) (t b : Nat) : Nat := if up then (b + n - t) % n else (t + n - b) % n

/-- The next stop on a ring in one direction. -/
def ringStep (n : Nat) (up : Bool) (t : Nat) : Nat := if up then (t + 1) % n else (t + (n - 1)) % n

/-- The distance on a ring of `n` stops, without a remainder. -/
theorem ringDist_eq {n a b : Nat} (ha : a < n) (hb : b < n) : (b + n - a) % n = if a ≤ b then b - a else b + n - a := by
  split
  · rw [show b + n - a = b - a + n by omega, Nat.add_mod_right, Nat.mod_eq_of_lt (by omega)]
  · exact Nat.mod_eq_of_lt (by omega)

theorem ringGap_eq_zero {n t b : Nat} {up : Bool} (ht : t < n) (hb : b < n) : ringGap n up t b = 0 ↔ t = b := by
  cases up with
  | true => simp only [ringGap, if_true, ringDist_eq ht hb]; split <;> omega
  | false => simp only [ringGap, Bool.false_eq_true, if_false, ringDist_eq hb ht]; split <;> omega

theorem ringStep_lt {n t : Nat} (up : Bool) (hn : 0 < n) : ringStep n up t < n := by
  cases up <;> exact Nat.mod_lt _ hn

theorem ringStep_up {n t : Nat} (ht : t < n) : ringStep n true t = if t + 1 = n then 0 else t + 1 := by
  split
  · next h => exact h ▸ Nat.mod_self _
  · exact Nat.mod_eq_of_lt (by omega)

theorem ringStep_down {n t : Nat} (ht : t < n) : ringStep n false t = if t = 0 then n - 1 else t - 1 := by
  split
  · next h => subst h; exact (Nat.mod_eq_of_lt (by omega)).trans (Nat.zero_add _)
  · show (t + (n - 1)) % n = t - 1
    rw [show t + (n - 1) = t - 1 + n by omega, Nat.add_mod_right, Nat.mod_eq_of_lt (by omega)]

/-- A step that does not begin at the end of the route leaves one hop fewer. -/
theorem ringGap_ringStep {n t b : Nat} {up : Bool} (ht : t < n) (hb : b < n) (hne : t ≠ b) :
    ringGap n up (ringStep n up t) b + 1 = ringGap n up t b := by
  have hs := ringStep_lt (t := t) up (by omega : 0 < n)
  cases up with
  | true =>
    simp only [ringGap, if_true, ringDist_eq hs hb, ringDist_eq ht hb]
    rw [ringStep_up ht]
    split_ifs <;> omega
  | false =>
    simp only [ringGap, Bool.false_eq_true, if_false, ringDist_eq hb hs, ringDist_eq hb ht]
    rw [ringStep_down ht]
    split_ifs <;> omega

/-- The direction of a route is the shorter one. -/
theorem ringGap_ringUp {n a b : Nat} (ha : a < n) (hb : b < n) : ringGap n (ringUp n a b) a b = ringHops n a b := by
  simp only [ringGap, ringUp, ringHops, ringDist_eq ha hb, ringDist_eq hb ha, Bool.or_eq_true, Bool.and_eq_true,
    decide_eq_true_eq]
  split_ifs <;> omega

theorem ringHops_le {n a b : Nat} (ha : a < n) (hb : b < n) : ringHops n a b ≤ n / 2 := by
  simp only [ringHops, ringDist_eq ha hb, ringDist_eq hb ha]
  split_ifs <;> omega

theorem stopX_lt (t : Nat) : stopX t < 16 := Nat.mod_lt _ (by decide)

theorem stopY_lt {t : Nat} (h : t < 128) : stopY t < 8 := Nat.div_lt_of_lt_mul h

theorem stop_ext {t u : Nat} (hx : stopX t = stopX u) (hy : stopY t = stopY u) : t = u := by
  simp only [stopX, stopY] at hx hy; omega

theorem stopAt_lt {x y : Nat} (hx : x < 16) (hy : y < 8) : stopAt x y < 128 := by
  simp only [stopAt]; omega

/-- One hop of a route: along the row until the column is right. -/
theorem hop_row {src dst t : Nat} (h : stopX t ≠ stopX dst) : stopNext t (routeOut src dst t) =
    stopAt (ringStep 16 (ringUp 16 (stopX src) (stopX dst)) (stopX t)) (stopY t) := by
  cases hu : ringUp 16 (stopX src) (stopX dst) <;> simp [routeOut, h, hu, stopNext, ringStep]

/-- One hop of a route where the column is right: along it. -/
theorem hop_column {src dst t : Nat} (hx : stopX t = stopX dst) (h : stopY t ≠ stopY dst) :
    stopNext t (routeOut src dst t) =
      stopAt (stopX t) (ringStep 8 (ringUp 8 (stopY src) (stopY dst)) (stopY t)) := by
  cases hu : ringUp 8 (stopY src) (stopY dst) <;> simp [routeOut, hx, h, hu, stopNext, ringStep]

/-- The hops left at `t` of the route from `src` to `dst`. -/
def pathGap (src dst t : Nat) : Nat :=
  ringGap 16 (ringUp 16 (stopX src) (stopX dst)) (stopX t) (stopX dst) +
    ringGap 8 (ringUp 8 (stopY src) (stopY dst)) (stopY t) (stopY dst)

theorem pathGap_src {src dst : Nat} (hs : src < 128) (hd : dst < 128) : pathGap src dst src = pathHops src dst := by
  simp only [pathGap, pathHops, ringGap_ringUp (stopX_lt _) (stopX_lt _), ringGap_ringUp (stopY_lt hs) (stopY_lt hd)]

theorem eq_of_pathGap_eq_zero {src dst t : Nat} (ht : t < 128) (hd : dst < 128) (h : pathGap src dst t = 0) : t = dst := by
  have ⟨hx, hy⟩ := Nat.add_eq_zero_iff.mp h
  exact stop_ext ((ringGap_eq_zero (stopX_lt _) (stopX_lt _)).mp hx) ((ringGap_eq_zero (stopY_lt ht) (stopY_lt hd)).mp hy)

/-- A hop stays on the torus and leaves one hop fewer. -/
theorem pathGap_hop {src dst t : Nat} (ht : t < 128) (hd : dst < 128) (hne : pathGap src dst t ≠ 0) :
    stopNext t (routeOut src dst t) < 128 ∧
      pathGap src dst (stopNext t (routeOut src dst t)) + 1 = pathGap src dst t := by
  by_cases hx : stopX t = stopX dst
  · have hy : stopY t ≠ stopY dst := fun hy => hne (by
      simp only [pathGap, hx, hy, (ringGap_eq_zero (stopX_lt _) (stopX_lt _)).mpr rfl,
        (ringGap_eq_zero (stopY_lt hd) (stopY_lt hd)).mpr rfl])
    have gap := ringGap_ringStep (up := ringUp 8 (stopY src) (stopY dst)) (stopY_lt ht) (stopY_lt hd) hy
    rw [hop_column hx hy]
    refine ⟨stopAt_lt (stopX_lt _) (ringStep_lt _ (by decide)), ?_⟩
    simp only [pathGap, stopX_stopAt _ (stopX_lt _), stopY_stopAt _ (stopX_lt _)]
    omega
  · have gap := ringGap_ringStep (up := ringUp 16 (stopX src) (stopX dst)) (stopX_lt _) (stopX_lt _) hx
    have hs : ringStep 16 (ringUp 16 (stopX src) (stopX dst)) (stopX t) < 16 := ringStep_lt _ (by decide)
    rw [hop_row hx]
    refine ⟨stopAt_lt hs (stopY_lt ht), ?_⟩
    simp only [pathGap, stopX_stopAt _ hs, stopY_stopAt _ hs]
    omega

/-- A route that has `n` hops left reaches its end by `n` hops. -/
theorem route_reaches {src dst : Nat} (hd : dst < 128) (n : Nat) :
    ∀ t < 128, pathGap src dst t = n → (fun t => stopNext t (routeOut src dst t))^[n] t = dst := by
  induction n with
  | zero => exact fun t ht h => eq_of_pathGap_eq_zero ht hd h
  | succ n ih =>
    intro t ht h
    have ⟨hlt, hgap⟩ := pathGap_hop (src := src) ht hd (by omega)
    exact ih _ hlt (Nat.succ_injective (hgap.trans h))

theorem pathHops_le {src dst : Nat} (hs : src < 128) (hd : dst < 128) : pathHops src dst ≤ 12 :=
  Nat.add_le_add (ringHops_le (stopX_lt _) (stopX_lt _)) (ringHops_le (stopY_lt hs) (stopY_lt hd))

theorem foldl_hops_eq {src dst : Nat} (hs : src < 128) (hd : dst < 128) :
    (List.range (pathHops src dst)).foldl (fun t _ => stopNext t (routeOut src dst t)) src = dst := by
  rw [List.foldl_const, List.length_range]
  exact route_reaches hd _ src hs (pathGap_src hs hd)

/-! ### Requests from outside (R323) -/

section
variable {s : State} {q : Inbound} {p : Packet} {act : State → State × Bool}

/-- A request that comes asks its port's bucket. -/
theorem State.takeIn_asks (ha : (s.net.arrived.any fun p => p.inb == some q) = false) (hu : s.underWay q = false) :
    s.takeIn p q act = s.askBucket p := by
  simp [State.takeIn, ha, hu]

/-- A request that has been delivered and can be performed is answered. -/
theorem State.takeIn_answers {t : State} (ha : (s.net.arrived.any fun p => p.inb == some q) = true)
    (ht : act s = (t, true)) : s.takeIn p q act = t.answerInbound q := by
  simp [State.takeIn, ha, ht]

/-- A request that has been delivered and cannot be performed yet waits. -/
theorem State.takeIn_waits {t : State} (ha : (s.net.arrived.any fun p => p.inb == some q) = true)
    (ht : act s = (t, false)) : s.takeIn p q act = t := by
  simp [State.takeIn, ha, ht]

end

/-! ### The host (R351, R352) -/

theorem State.performHost_write (s : State) (a len : Nat) (d : List Byte) :
    s.performHost a len (some d) = ((s.writeAt (.dev a) d).send .hostDone, true) := rfl

section
variable {s u : State} {a len : Nat}

/-- A read waits while the snoop filter recalls a line. -/
theorem State.performHost_recalls (h : s.filterLine (a / 128) = .error u) : s.performHost a len none = (u, false) := by
  simp [State.performHost, h]

theorem State.performHost_reads (h : s.filterLine (a / 128) = .ok u) (hb : u.badAt (.dev a) len = false) :
    s.performHost a len none = ((u.readAt (.dev a) len).1.send (.hostData (u.readAt (.dev a) len).2), true) := by
  simp [State.performHost, h, hb]

theorem State.performHost_error (h : s.filterLine (a / 128) = .ok u) (hb : u.badAt (.dev a) len = true) :
    s.performHost a len none = (u.send .hostError, true) := by
  simp [State.performHost, h, hb]

end

section
variable {s t : State} {addr : Dword} {a len : Nat} {w : Option (List Byte)} (ha : s.hdmOffset addr.toNat len = some a)
  (hu : s.linkUp = true) (hl : inOneLine a len = true) (hs : s.link.snoop.contains (a / 128) = false)
  (hw : (w.map List.length).getD len = len)
include ha hu hl hs hw

theorem exec_hostMemRequest_of_decoded : exec (.hostMemRequest addr len w) s =
    .next (s.takeIn (inboundPacket (.host a len w) 64 s.link.hostcls.toNat a len w.isSome) (.host a len w)
      fun s => s.performHost a len w) := by
  simp only [exec_hostMemRequest, stepHostMemRequest, ha, hu, hl, hs, hw, bne_self_eq_false, Bool.not_true,
    Bool.or_self, Bool.false_eq_true, if_false]

theorem exec_hostMemRequest_asks (hn : (s.net.arrived.any fun q => q.inb == some (.host a len w)) = false)
    (hq : s.underWay (.host a len w) = false) : exec (.hostMemRequest addr len w) s =
      .next (s.askBucket (inboundPacket (.host a len w) 64 s.link.hostcls.toNat a len w.isSome)) := by
  rw [exec_hostMemRequest_of_decoded ha hu hl hs hw, State.takeIn_asks hn hq]

theorem exec_hostMemRequest_answers (hh : (s.net.arrived.any fun q => q.inb == some (.host a len w)) = true)
    (ht : s.performHost a len w = (t, true)) :
    exec (.hostMemRequest addr len w) s = .next (t.answerInbound (.host a len w)) := by
  rw [exec_hostMemRequest_of_decoded ha hu hl hs hw, State.takeIn_answers hh ht]

theorem exec_hostMemRequest_waits (hh : (s.net.arrived.any fun q => q.inb == some (.host a len w)) = true)
    (ht : s.performHost a len w = (t, false)) : exec (.hostMemRequest addr len w) s = .next t := by
  rw [exec_hostMemRequest_of_decoded ha hu hl hs hw, State.takeIn_waits hh ht]

end

/-- The snoop of a line has ended: the host holds the line no more. -/
def State.endSnoop (s : State) (line : Nat) : State :=
  { s with link := { s.link with snoop := s.link.snoop.filter fun l => l != line,
                                 filter := s.link.filter.filter fun l => l != line } }

@[simp] theorem State.endSnoop_mem (s : State) (line : Nat) : (s.endSnoop line).mem = s.mem := rfl

theorem State.not_mem_endSnoop_snoop (s : State) (line : Nat) : line ∉ (s.endSnoop line).link.snoop := by
  simp [State.endSnoop]

theorem State.not_mem_endSnoop_filter (s : State) (line : Nat) : line ∉ (s.endSnoop line).link.filter := by
  simp [State.endSnoop]

theorem State.endSnoop_byteAt (s : State) (line : Nat) (l : Loc) : (s.endSnoop line).byteAt l = s.byteAt l :=
  State.byteAt_of_mem rfl rfl l

theorem exec_backInvalidate_clean {s : State} {line : Nat} (h : s.link.snoop.contains line = true) :
    exec (.backInvalidate line none) s = .next (s.endSnoop line) := by
  simp only [exec_backInvalidate, stepBackInvalidate, h, Bool.not_true, Bool.false_eq_true, if_false]
  rfl

theorem exec_backInvalidate_modified {s : State} {line : Nat} {d : List Byte} (h : s.link.snoop.contains line = true)
    (hd : d.length = 128) :
    exec (.backInvalidate line (some d)) s = .next ((s.writeAt (.dev (128 * line)) d).endSnoop line) := by
  simp only [exec_backInvalidate, stepBackInvalidate, h, hd, Bool.not_true, Bool.false_eq_true, if_false, if_true]
  rfl

/-- The bytes written are those of the line. -/
theorem State.writeAt_dev_byteAt (s : State) (a : Nat) (d : List Byte) {i : Nat} (hi : i < d.length) :
    (s.writeAt (.dev a) d).byteAt (.dev (a + i)) = d.getD i 0 :=
  State.byteAt_setBytes_same _ (.dev a) d trivial hi

/-! ### The domain (R353, R354, R357) -/

/-- Packets are taken at a fabric port: it came up, and the device has power and has trained its ports (R411). -/
def State.PortUp (s : State) (port : Nat) : Prop :=
  port < 18 ∧ s.boot.portdown.getLsbD port = false ∧ 5 ≤ s.boot.phase.toNat ∧ s.heat.powered = true

theorem State.PortUp.guard {s : State} {port : Nat} (h : s.PortUp port) :
    (18 ≤ port || s.boot.portdown.getLsbD port || s.boot.phase.toNat < 5 || !s.heat.powered) = false := by
  obtain ⟨hp, hd, hb, hw⟩ := h
  simp only [Bool.or_eq_false_iff, decide_eq_false_iff_not, Bool.not_eq_false']
  exact ⟨⟨⟨by omega, hd⟩, by omega⟩, hw⟩

section
variable {s : State} {r : DomainReq} {q : Inbound} {ctx a : Nat} (hp : s.PortUp r.port)
include hp

theorem State.inbound_of_badHeader {allowed : Bool} (h : r.headerOk = false) :
    s.inbound r q allowed ctx a = s.headerError r.port := by
  simp only [State.inbound, hp.guard, h, Bool.not_false, Bool.false_eq_true, if_false, if_true]

theorem State.inbound_of_refused (h : r.headerOk = true) : s.inbound r q false ctx a = s.send (.fabricLoss r.port r.tag) := by
  simp only [State.inbound, hp.guard, h, Bool.not_true, Bool.not_false, Bool.false_eq_true, if_false, if_true]

theorem State.inbound_of_allowed (h : r.headerOk = true) (ho : remoteOk r a = true)
    (hh : r.hs = false ∨ s.hostHas (a / 128) = false) : s.inbound r q true ctx a =
      s.takeIn (inboundPacket q (65 + r.port) r.cls.toNat a r.len (r.data.isSome && r.op.isNone)) q fun s =>
        if s.remoteTurn r ctx a then (s.performRemote r ctx a, true) else (s, false) := by
  have hc : (r.hs && s.hostHas (a / 128)) = false := Bool.and_eq_false_iff.mpr hh
  simp only [State.inbound, hp.guard, h, ho, hc, Bool.not_true, Bool.false_eq_true, if_false]

end

/-- A packet that may be performed asks its port's bucket, and once it has been delivered is performed in its turn. -/
theorem exec_takes {s : State} {r : DomainReq} {i : Instr} {q : Inbound} {ctx a : Nat}
    (hi : exec i s = .next (s.inbound r q true ctx a)) (hp : s.PortUp r.port) (h : r.headerOk = true)
    (ho : remoteOk r a = true) (hh : r.hs = false ∨ s.hostHas (a / 128) = false) :
    (s.net.arrived.any (fun p => p.inb == some q) = true →
      (s.remoteTurn r ctx a = true → exec i s = .next ((s.performRemote r ctx a).answerInbound q)) ∧
      (s.remoteTurn r ctx a = false → exec i s = .next s)) ∧
    (s.net.arrived.any (fun p => p.inb == some q) = false → s.underWay q = false → exec i s =
      .next (s.askBucket (inboundPacket q (65 + r.port) r.cls.toNat a r.len (r.data.isSome && r.op.isNone)))) := by
  rw [hi, State.inbound_of_allowed hp h ho hh]
  refine ⟨fun ha => ⟨fun ht => ?_, fun ht => ?_⟩, fun ha hu => ?_⟩
  · rw [State.takeIn_answers ha (if_pos ht)]
  · rw [State.takeIn_waits ha (if_neg (Bool.eq_false_iff.mp ht))]
  · rw [State.takeIn_asks ha hu]

/-- The check of a collective's delivery: the group is open for the tenant and the bytes are in its window (R357). -/
theorem exec_collDeliveryIn_of_accepted {s : State} {g : Nat} {r : DomainReq} (hg : g < 4096) (ho : (s.collAt g).isOpen = true)
    (ht : (s.collAt g).tenant = r.tenant) (hw : r.offset + r.len ≤ (s.collAt g).wsize.toNat) (hd : r.data.isSome = true) :
    exec (.collDeliveryIn g r) s =
      .next (s.inbound r (.coll g r) true (s.collAt g).ctx.toNat ((s.collAt g).wbase.toNat + r.offset)) := by
  simp [exec_collDeliveryIn, stepCollDeliveryIn, hg, ho, ht, hw, hd]

theorem exec_collDeliveryIn_of_closed {s : State} {g : Nat} {r : DomainReq} (ho : (s.collAt g).isOpen = false) :
    exec (.collDeliveryIn g r) s =
      .next (s.inbound r (.coll g r) false (s.collAt g).ctx.toNat ((s.collAt g).wbase.toNat + r.offset)) := by
  simp [exec_collDeliveryIn, stepCollDeliveryIn, ho]

theorem exec_domainRequestIn_of_exports {s : State} {r : DomainReq} {e : Bool}
    (he : s.exports r.tenant.toNat r.offset r.len = e) :
    exec (.domainRequestIn r) s = .next (s.inbound r (.domain r) e r.ctx.toNat r.offset) :=
  he ▸ rfl

/-! ### Losses (R355) -/

/-- An operation that is in the table and not complete is found as one of its kinds. -/
theorem State.liveOp_of_live {s : State} {id : Nat} {kind : OpKind} {x : Op} {g : Group} {u : WorkUnit}
    (h : Live s id kind x g u) {k : OpKind → Bool} (hk : k kind = true) : s.liveOp id k = some (x, g, u) := by
  obtain ⟨hop, hdone, rfl, hhome⟩ := h
  simp [State.liveOp, hop, hdone, hk, hhome]

section
variable {s : State} {id : Nat} {x : Op} {g : Group} {u : WorkUnit} (h : Live s id .load x g u)
  (hl : ((x.indexed (x.pick [])).filter fun e => e.2.peer?.isSome) ≠ [])
include h hl

/-- A loss response ends a load's pieces of other devices at once, with flag 2. -/
theorem exec_fabricLossResponse_load : exec (.fabricLossResponse (.op id [] false)) s = .next
    (s.loseNormal g u x 2 false ((x.indexed (x.pick [])).filter fun e => e.2.peer?.isSome)) := by
  have ⟨_, _, hkind, _⟩ := h
  simp [exec_fabricLossResponse, stepFabricLossResponse, State.lose, State.liveOp_of_live h, hkind, hl]

/-- No response for FLTO microseconds ends them with flag 3. -/
theorem exec_fabricTimeout_load (ht : s.link.flto * 1000 ≤ (s.time - x.start).toNat) :
    exec (.fabricTimeout (.op id [] false)) s = .next
      (s.loseNormal g u x 3 false ((x.indexed (x.pick [])).filter fun e => e.2.peer?.isSome)) := by
  have ⟨_, _, hkind, _⟩ := h
  have hlate : ¬(s.time - x.start).toNat < s.link.flto * 1000 := Nat.not_lt.mpr ht
  simp [exec_fabricTimeout, stepFabricTimeout, State.lose, State.liveOp_of_live h, hkind, hl, hlate,
    -BitVec.toNat_sub]

end

/-! ### The statement -/

/-- Groups open and close as R357 says. -/
theorem coll_commands (s : State) (g : Nat) (hg : g < 4096) :
    (∃ t, exec (.collClose g) s = .next t ∧ (t.collAt g).isOpen = false) ∧
    ((s.collAt g).drain = 0 → (s.collAt g).isOpen = false → s.collBad (s.collAt g) = false →
      ∃ t, exec (.collOpen g) s = .next t ∧ (t.collAt g).isOpen = true ∧
          t.link.collstat = (s.collStat 0).link.collstat) ∧
    ((s.collAt g).drain ≠ 0 → exec (.collOpen g) s = .next (s.collStat 1)) := by
  refine ⟨⟨_, exec_collClose_of_lt hg, s.isOpen_closeColl g⟩, fun hd ho hb => ⟨_, exec_collOpen_of_lt hg, ?_⟩, fun hd => ?_⟩
  · rw [State.openColl_ready hd ho hb]
    simp
  · rw [exec_collOpen_of_lt hg, State.openColl_busy hd]

/-- Settles O58: each packet meets the checks of its port in the order that the model makes them, and the torus's routes
lose one hop at each stop. -/
theorem linksAndCollectives : Obligations.LinksAndCollectives := by
  refine ⟨coll_commands, fun s port cls p r => ?_, fun s u addr a len line d => ?_, fun s r g hp hd hb hw => ?_,
    fun s id x g u hlive hl => ?_⟩
  · exact ⟨exec_bucketWindow_of_due, State.window_of_none_held,
      fun hk hp hc => ⟨exec_requestInject_pass hk hp hc, exec_requestInject_noCredit hk hp hc,
        exec_requestInject_noEntry hk hp hc⟩,
      fun c => clusterStop_kind, fun c => sliceStop_kind, fun src dst hs hd => ⟨pathHops_le hs hd, foldl_hops_eq hs hd⟩⟩
  · refine ⟨fun ha hu hl hs => ⟨?asks, fun hd => ⟨?asksToWrite, fun hh => ?writes⟩, fun hh hf => ?recalls,
      fun hh hf => ⟨fun hb => ?reads, fun hb => ?error⟩⟩, fun hs => ⟨?clean, fun hd => ?modified⟩⟩
    case asks => exact exec_hostMemRequest_asks ha hu hl hs rfl
    case asksToWrite => exact exec_hostMemRequest_asks ha hu hl hs hd
    case writes => exact exec_hostMemRequest_answers ha hu hl hs hd hh (s.performHost_write a len d)
    case recalls => exact exec_hostMemRequest_waits ha hu hl hs rfl hh (State.performHost_recalls hf)
    case reads => exact exec_hostMemRequest_answers ha hu hl hs rfl hh (State.performHost_reads hf hb)
    case error => exact exec_hostMemRequest_answers ha hu hl hs rfl hh (State.performHost_error hf hb)
    case clean => exact ⟨_, exec_backInvalidate_clean hs, s.not_mem_endSnoop_snoop line, s.not_mem_endSnoop_filter line,
      s.endSnoop_mem line⟩
    case modified =>
      refine ⟨_, exec_backInvalidate_modified hs hd, State.not_mem_endSnoop_snoop _ line, fun i hi => ?_⟩
      rw [State.endSnoop_byteAt, State.writeAt_dev_byteAt s _ d (hd ▸ hi)]
  · have hport : s.PortUp r.port := ⟨hp, hd, hb, hw⟩
    refine ⟨fun hh => ⟨congrArg _ (State.inbound_of_badHeader hport hh), congrArg _ (State.inbound_of_badHeader hport hh)⟩,
      fun hh => ⟨fun he => ?refused, fun he => ?performed, fun ho => ?closed, fun hg ho ht hw hd => ?delivered⟩⟩
    case refused => rw [exec_domainRequestIn_of_exports he, State.inbound_of_refused hport hh]
    case performed => exact exec_takes (exec_domainRequestIn_of_exports he) hport hh
    case closed => rw [exec_collDeliveryIn_of_closed ho, State.inbound_of_refused hport hh]
    case delivered => exact exec_takes (exec_collDeliveryIn_of_accepted hg ho ht hw hd) hport hh
  · exact ⟨exec_fabricLossResponse_load hlive hl, exec_fabricTimeout_load hlive hl⟩

end Sys2Proof.Machine
end

section
/-! PROOFS. The results of the integer, floating-point, conversion and cross-lane instructions (R66, R79, R84 to R101), and
what SETFMT, CUTCTL, LOGCTL and WRSR write (R271, R275, R378, R399). -/

namespace Sys2Proof.Machine

open Sys2Proof

/-! ### What completion leaves of the waves (R32, R168, R251) -/

/-- A wave without what completion may change: parts, sequence counts, formats and pending faults. -/
def Wave.steady (w : Wave) : Wave := { w.held with fmt := [], pend := [] }

theorem Wave.cutp_of_steady {w w' : Wave} (h : w'.steady = w.steady) : w'.cutp = w.cutp :=
  (congrArg Wave.cutp h : w'.steady.cutp = w.steady.cutp)

theorem Wave.regfile_of_steady {w w' : Wave} (h : w'.steady = w.steady) : w'.regfile = w.regfile :=
  (congrArg Wave.regfile h : w'.steady.regfile = w.steady.regfile)

/-- Two states have the same waves but for what completion may change. -/
def State.Steady (s t : State) : Prop := ∀ k, (t.waves.get k).map Wave.steady = (s.waves.get k).map Wave.steady

namespace State.Steady

theorem trans {s t u : State} (h : s.Steady t) (g : t.Steady u) : s.Steady u := fun k => (g k).trans (h k)

theorem wave {s t : State} {k : Nat} {w : Wave} (h : s.Steady t) (hw : s.waves.get k = some w) :
    ∃ w', t.waves.get k = some w' ∧ w'.steady = w.steady := by
  have hk := h k
  rw [hw] at hk
  exact Option.map_eq_some_iff.mp hk

theorem of_quiet {s t : State} (h : Quiet s t) : s.Steady t := fun k => by
  have := congrArg (Option.map fun w : Wave => { w with fmt := [], pend := [] }) (h.waves k)
  rw [Option.map_map, Option.map_map] at this
  exact this

theorem modWave (s : State) (k : Nat) {f : Wave → Wave} (h : ∀ w, (f w).steady = w.steady) :
    s.Steady (s.modWave k f) := by
  intro j
  rw [State.modWave_waves, Tbl.get_upd]
  split
  · next hj =>
    subst hj
    cases s.waves.get j <;> simp [h]
  · rfl

theorem settlePart (s : State) (pr : PartRef) : s.Steady (s.settlePart pr) := by
  refine modWave s _ fun w => ?_
  split
  · rfl
  · split <;> rfl

theorem advance (s : State) (pr : PartRef) : s.Steady (s.advance pr) :=
  (of_quiet (Quiet.modPart _ _ _)).trans (settlePart _ _)

theorem countDone (s : State) (o : Who) (i : Instr) : s.Steady (s.countDone o i) := by
  unfold State.countDone
  split
  · exact fun _ => rfl
  · exact fun k => of_quiet (Quiet.modPart _ _ _) k

theorem landFaults (s : State) (x : Op) (m : QuadMask) : s.Steady (s.landFaults x m) := modWave _ _ fun _ => rfl

theorem landAll (s : State) : s.Steady s.landAll := by
  refine fun k => foldl_keeps (fun t => (t.waves.get k).map Wave.steady) (fun t x => ?_) _ _
  dsimp only
  split
  · rfl
  · exact landFaults t x _ k

theorem settle (s : State) : s.Steady s.settle :=
  (landAll s).trans fun k => of_quiet s.settle_quiet k

theorem finish (s : State) (o : Who) (i : Instr) : s.Steady (s.finish o i) :=
  ((countDone s o i).trans (advance _ _)).trans (settle _)

end State.Steady

/-! ### The wave of the issuer, from the beginning of an instruction to its end -/

/-- The part that issues has a wave after the beginning, as it was but for its parts and sequence counts. -/
theorem State.begin_wave {s : State} {o : Who} (i : Instr) (hw : s.who s.cur = some o) :
    ∃ w, (s.begin o i).waves.get o.pr.wave = some w ∧ w.steady = o.w.steady := by
  obtain ⟨hpr, hwave⟩ := State.who_wave hw
  rw [← hpr] at hwave
  exact (Steady.of_quiet (s.begin_quiet o i)).wave hwave

theorem State.modWave_wave {s : State} {k : Nat} {w : Wave} (f : Wave → Wave) (h : s.waves.get k = some w) :
    (s.modWave k f).waves.get k = some (f w) := by
  rw [State.modWave_waves, Tbl.get_upd_same, h, Option.map_some]

/-- The part's wave after a result is written. -/
theorem State.writeDst_wrote {s : State} {o : Who} {w : Wave} (d : Dst) (wide : Bool) (m : LaneMask) (f : Nat → Nat)
    (h : s.waves.get o.pr.wave = some w) :
    ∃ w', (s.writeDst o d wide m f).waves.get o.pr.wave = some w' ∧ Wrote w w' d wide m o.p.quads f := by
  have hd := s.writeDst_wave o d wide m f o.pr.wave
  rw [if_pos rfl, h] at hd
  exact ⟨_, hd, wrote_dst w d wide m o.p.quads f⟩

/-- `Wrote` looks at the registers of the wave before only. -/
theorem Wrote.of_regfile_before {w w1 w' : Wave} {d : Dst} {wide : Bool} {m : LaneMask} {qs : QuadMask} {f : Nat → Nat}
    (h : Wrote w1 w' d wide m qs f) (e : w1.regfile = w.regfile) : Wrote w w' d wide m qs f := by
  simp only [Wave.regfile, Prod.mk.injEq] at e
  obtain ⟨hv, hp, hs⟩ := e
  unfold Wrote Wave.vreg Wave.sreg Wave.preg at *
  rw [hv, hp, hs] at h
  exact h

/-- A result that some of the part's lanes receive, and completion. -/
theorem wrote_of_exec {s : State} {o : Who} {i : Instr} {d : Dst} {wide : Bool} {m : LaneMask} {f : Nat → Nat}
    (hw : s.who s.cur = some o) (he : exec i s = .next (((s.begin o i).writeDst o d wide m f).finish o i)) :
    ∃ t w, exec i s = .next t ∧ t.waves.get o.pr.wave = some w ∧ Wrote o.w w d wide m o.p.quads f := by
  obtain ⟨w1, h1, e1⟩ := State.begin_wave i hw
  obtain ⟨w2, h2, hwrote⟩ := State.writeDst_wrote d wide m f h1
  obtain ⟨w3, h3, e3⟩ := (State.Steady.finish _ o i).wave h2
  exact ⟨_, w3, he, h3, (hwrote.of_regfile (Wave.regfile_of_steady e3)).of_regfile_before (Wave.regfile_of_steady e1)⟩

/-! ### Parts that stop (R363, R339) -/

/-- A trap or a far fault is stopping the part, whose frame is still to be saved. -/
def Status.stops : Status → Bool
  | .stopping _ _ => true
  | .parking _ => true
  | _ => false

/-- No part of the wave is stopping. -/
def Wave.Calm (w : Wave) : Prop := ∀ e ∈ w.parts, e.2.status.stops = false

theorem State.stoppers_eq_nil_iff {s : State} : s.stoppers = [] ↔ ∀ e ∈ s.waves, e.2.Calm := by
  simp only [State.stoppers, List.flatMap_eq_nil_iff, List.map_eq_nil_iff, List.filter_eq_nil_iff, Bool.not_eq_true]
  rfl

/-- What an update leaves in a table. -/
theorem Tbl.forall_mem_upd {α : Type} {P : α → Prop} {t : Tbl α} {k : Nat} {f : α → α} (h : ∀ e ∈ t, P e.2)
    (hf : ∀ v, P v → P (f v)) : ∀ e ∈ t.upd k f, P e.2 := by
  unfold Tbl.upd
  split
  · exact h
  · next v hv =>
    intro e he
    rcases Tbl.mem_put he with rfl | he
    · exact hf v (h _ (Tbl.mem_of_get hv))
    · exact h e he

theorem Wave.putS_parts (w : Wave) (r : Nat) (wide : Bool) (m : QuadMask) (v : Nat) :
    (w.putS r wide m v).parts = w.parts := by
  unfold Wave.putS
  split <;> rfl

theorem State.stoppers_modWave {s : State} {k : Nat} {f : Wave → Wave} (h : s.stoppers = [])
    (hf : ∀ w, w.Calm → (f w).Calm) : (s.modWave k f).stoppers = [] := by
  rw [State.stoppers_eq_nil_iff] at *
  exact Tbl.forall_mem_upd h hf

theorem State.stoppers_modPart {s : State} {pr : PartRef} {f : Part → Part} (h : s.stoppers = [])
    (hf : ∀ p, (f p).status = p.status) : (s.modPart pr f).stoppers = [] :=
  State.stoppers_modWave h fun w hw =>
    Tbl.forall_mem_upd (P := fun p : Part => p.status.stops = false) hw fun p hp => by rw [hf, hp]

@[simp] theorem dropRepeat_status (p : Part) : (dropRepeat p).status = p.status := by
  unfold dropRepeat
  split
  · rfl
  · split <;> rfl

@[simp] theorem settleStack_status (n : Nat) (p : Part) : (settleStack n p).status = p.status := by
  induction n generalizing p with
  | zero => rfl
  | succ n ih =>
    cases hs : p.stack with
    | nil => simp only [settleStack, hs]
    | cons e r => simp only [settleStack, hs, apply_ite Part.status, ih, ite_self]

@[simp] theorem stepPc_status (p : Part) : (stepPc p).status = p.status := by
  unfold stepPc
  dsimp only
  split
  · rfl
  · split
    · split <;> rfl
    · rw [dropRepeat_status]

theorem State.stoppers_settlePart {s : State} {pr : PartRef} (h : s.stoppers = []) : (s.settlePart pr).stoppers = [] := by
  refine State.stoppers_modWave h fun w hw => ?_
  split
  · exact hw
  · next p hp =>
    split
    · exact hw
    · intro e he
      rcases Tbl.mem_put he with rfl | he
      · have hs := hw _ (Tbl.mem_of_get hp)
        simpa only [apply_ite Part.status, dropRepeat_status, settleStack_status, ite_self] using hs
      · exact hw e he

theorem State.stoppers_advance {s : State} {pr : PartRef} (h : s.stoppers = []) : (s.advance pr).stoppers = [] :=
  State.stoppers_settlePart (State.stoppers_modPart h stepPc_status)

theorem State.stoppers_countDone {s : State} {o : Who} {i : Instr} (h : s.stoppers = []) :
    (s.countDone o i).stoppers = [] := by
  unfold State.countDone
  split
  · exact h
  · exact State.stoppers_modPart h fun _ => rfl

theorem State.stoppers_begin {s : State} {o : Who} {i : Instr} (h : s.stoppers = []) : (s.begin o i).stoppers = [] :=
  State.stoppers_modPart (State.stoppers_modPart (s := s.modCore _ _) h fun _ => rfl) fun _ => rfl

theorem State.stoppers_landAll {s : State} (h : s.stoppers = []) : s.landAll.stoppers = [] := by
  refine List.foldlRecOn (motive := fun t : State => t.stoppers = []) _ _ h fun t ht x _ => ?_
  dsimp only
  split
  · exact ht
  · exact State.stoppers_modWave ht fun _ hw => hw

/-- With no part stopping, the end of an instruction changes no context. -/
theorem State.finish_ctxs {s : State} {o : Who} {i : Instr} (h : s.stoppers = []) : (s.finish o i).ctxs = s.ctxs := by
  have hland : ∀ t : State, t.landAll.ctxs = t.ctxs := fun t =>
    foldl_keeps State.ctxs (fun _ _ => by dsimp only; split <;> rfl) _ _
  have hstop : ((s.countDone o i).advance o.pr).landAll.retire.stoppers = [] :=
    State.stoppers_landAll (State.stoppers_advance (State.stoppers_countDone h))
  have hcount : (s.countDone o i).ctxs = s.ctxs := by
    unfold State.countDone
    split <;> rfl
  unfold State.finish State.settle State.finishStops
  rw [hstop, List.foldl_nil, State.retire_ctxs, hland]
  exact hcount

theorem State.finish_modCtx_ctx {s : State} {o : Who} {i : Instr} {n : Nat} {f : Context → Context} (h : s.stoppers = []) :
    ((s.modCtx n f).finish o i).ctx n = f (s.ctx n) := by
  rw [State.ctx, State.finish_ctxs (s := s.modCtx n f) h, State.modCtx_ctxs, Tbl.get_put_same, Option.getD_some]

/-! ### What is written (R271, R275, R378, R399) -/

/-- CUTCTL writes CUTP under its mask. -/
theorem cutctl_writes {s : State} {o : Who} {x : CtlOp} (h : Clear s o (.cutctl x) []) :
    ∃ t w, exec (.cutctl x) s = .next t ∧ t.waves.get o.pr.wave = some w ∧
      w.cutp = (o.w.setCutp o.p.quads (newCutp o.cutp x.imm)).cutp := by
  obtain ⟨w1, h1, e1⟩ := State.begin_wave (.cutctl x) h.issuer
  have h2 := State.modWave_wave (fun w => w.setCutp o.p.quads (newCutp o.cutp x.imm))
    (State.modWave_wave (fun w => w.putS x.dst.num.toNat false o.p.quads o.cutp.toNat) h1)
  obtain ⟨w3, h3, e3⟩ := (State.Steady.finish _ o (.cutctl x)).wave h2
  refine ⟨_, w3, (exec_cutctl x s).trans (State.issue_go h), h3, ?_⟩
  have hput : (w1.putS x.dst.num.toNat false o.p.quads o.cutp.toNat).cutp = w1.cutp := rfl
  rw [Wave.cutp_of_steady e3, Wave.setCutp, Wave.setCutp, hput, Wave.cutp_of_steady e1]

/-- The word that LOGCTL leaves: the bits that the mask of IMM32 names are IMM32's (R399). -/
def newLogctl (old : BitVec 5) (imm : Word) : BitVec 5 :=
  (old &&& ~~~ imm.extractLsb' 8 5) ||| (imm.extractLsb' 0 5 &&& imm.extractLsb' 8 5)

theorem getLsbD_newLogctl (old : BitVec 5) (imm : Word) {k : Nat} (hk : k < 5) :
    (newLogctl old imm).getLsbD k = if imm.getLsbD (8 + k) then imm.getLsbD k else old.getLsbD k := by
  cases hm : imm.getLsbD (8 + k) <;> simp [newLogctl, hk, hm]

/-- LOGCTL of a context that there is completes with its old word in Sd and its new word in place. -/
theorem exec_logctl_of_context {s : State} {o : Who} {x : CtlOp} {n : Nat} (h : Clear s o (.logctl x) [])
    (hn : (s.scalar o x.a 0).toNat = n) (hl : 1 ≤ n) (hu : n ≤ 1023) : exec (.logctl x) s =
      .next ((((s.begin o (.logctl x)).writeS o x.dst (s.ctx n).logctl.toNat).modCtx n fun c =>
        { c with logctl := newLogctl (s.ctx n).logctl x.imm }).finish o (.logctl x)) := by
  have hr : (decide (n < 1) || decide (1023 < n)) = false := by simp [Nat.not_lt.mpr hl, Nat.not_lt.mpr hu]
  rw [exec_logctl, execLogctl, State.issue_go h]
  simp only [State.begin_scalar, hn, hr, Bool.false_eq_true, if_false]
  rfl

/-- LOGCTL writes the bits of a context's word that its mask names. -/
theorem logctl_writes {s : State} {o : Who} {x : CtlOp} (h : Clear s o (.logctl x) [])
    (hl : 1 ≤ (s.scalar o x.a 0).toNat) (hu : (s.scalar o x.a 0).toNat ≤ 1023) (hs : s.stoppers = []) :
    ∃ t, exec (.logctl x) s = .next t ∧ ∀ k, k < 5 →
      (t.ctx (s.scalar o x.a 0).toNat).logctl.getLsbD k =
        if x.imm.getLsbD (8 + k) then x.imm.getLsbD k else (s.ctx (s.scalar o x.a 0).toNat).logctl.getLsbD k := by
  refine ⟨_, exec_logctl_of_context h rfl hl hu, fun k hk => ?_⟩
  have hwrite : ((s.begin o (.logctl x)).writeS o x.dst (s.ctx (s.scalar o x.a 0).toNat).logctl.toNat).stoppers = [] :=
    State.stoppers_modWave (State.stoppers_begin hs) fun w hw => by rw [Wave.Calm, Wave.putS_parts]; exact hw
  rw [State.finish_modCtx_ctx hwrite, getLsbD_newLogctl _ _ hk]

/-- Settles O24: SETFMT and WRSR by their own checks, CUTCTL and LOGCTL by what completion leaves of CUTP and of the
contexts. -/
theorem registerWrites : Obligations.RegisterWrites := by
  intro s o x
  refine ⟨fun h hl => ?setfmt, cutctl_writes, logctl_writes, fun h hn => ?wrsr⟩
  case setfmt =>
    have hv : (s.begin o (.setfmt x)).setfmtValue o x = s.setfmtValue o x := by
      simp only [State.setfmtValue, State.begin_scalar]
    rw [exec_setfmt, execSetfmt, State.issueIf_go h (if_pos hl), hv]
  case wrsr =>
    rw [exec_wrsr, execWrsr, State.issueIf_go h (by simp [Option.isSome_iff_ne_none.mp hn]), State.begin_scalar]

/-! ### Integers (R66, R87 to R89) -/

/-- A result of two integer operands. -/
theorem int2_result {s : State} {o : Who} {i : Instr} {x : AluOp} {wide : Bool} {f : Int → Int → Int} (h : Clear s o i [])
    (he : exec i s = s.perLane i x wide (int2 x f)) : LaneResult s o i x.h x.dst wide fun l =>
      intBits x.ty x.sat (f (s.intOperand o x.ty x.a l) (s.intOperand o x.ty x.b l)) :=
  perLane_result h he fun l => by simp [int2]

/-- A result of three integer operands. -/
theorem int3_result {s : State} {o : Who} {i : Instr} {x : AluOp} {wide : Bool} {f : Int → Int → Int → Int}
    (h : Clear s o i []) (he : exec i s = s.perLane i x wide fun s o l =>
      int2 x (fun a b => f a b (s.intOperand o x.ty x.c l)) s o l) :
    LaneResult s o i x.h x.dst wide fun l => intBits x.ty x.sat
      (f (s.intOperand o x.ty x.a l) (s.intOperand o x.ty x.b l) (s.intOperand o x.ty x.c l)) :=
  perLane_result h he fun l => by simp [int2]

/-- A write of V or S leaves the predicates. -/
theorem Wrote.p_eq {w w' : Wave} {d : Dst} {wide : Bool} {m : LaneMask} {qs : QuadMask} {f : Nat → Nat}
    (h : Wrote w w' d wide m qs f) (hd : d.cls = .v ∨ d.cls = .s) : w'.p = w.p := by
  unfold Wrote at h
  rcases hd with hd | hd <;> rw [hd] at h
  · exact h.1
  · exact h.2.1

/-- A write of V or S stays what it is when predicates change after it. -/
theorem Wrote.of_preds {w w1 w' : Wave} {d : Dst} {wide : Bool} {m : LaneMask} {qs : QuadMask} {f : Nat → Nat}
    (h : Wrote w w1 d wide m qs f) (hd : d.cls = .v ∨ d.cls = .s) (hv : w'.v = w1.v) (hs : w'.s = w1.s) :
    Wrote { w with p := w'.p } w' d wide m qs f := by
  unfold Wrote Wave.vreg Wave.sreg at *
  rcases hd with hd | hd <;> rw [hd] at h ⊢
  · obtain ⟨-, hs1, hr⟩ := h
    exact ⟨rfl, hs.trans hs1, by rw [hv]; exact hr⟩
  · obtain ⟨hv1, -, hr⟩ := h
    exact ⟨hv.trans hv1, rfl, by rw [hs]; exact hr⟩

theorem Wave.preg_congr {w w' : Wave} {r : Nat} (h : w'.p = w.p) : w'.preg r = w.preg r := by
  unfold Wave.preg; rw [h]

/-- ADDC's sum in V or S, and its carries in the predicate that SUBOP names. -/
theorem addc_result {s : State} {o : Who} {x : AluOp} (h : Clear s o (.addc x) [])
    (hd : x.dst.cls = .v ∨ x.dst.cls = .s) :
    ∃ t w, exec (.addc x) s = .next t ∧ t.waves.get o.pr.wave = some w ∧
      Wrote { o.w with p := w.p } w x.dst x.ty.isWide (o.lanes x.h) o.p.quads (fun l => addcSum x s o l % 2 ^ tyBits x.ty) ∧
      ∀ r l, l < 64 → (w.preg r).getLsbD l =
        if (o.lanes x.h).getLsbD l ∧ r = x.sub.toNat % 8 ∧ r ≠ 7 then addcSum x s o l / 2 ^ tyBits x.ty != 0
        else (o.w.preg r).getLsbD l := by
  have he : exec (.addc x) s = .next ((((s.begin o (.addc x)).writeDst o x.dst x.ty.isWide (o.lanes x.h)
      fun l => addcSum x s o l % 2 ^ tyBits x.ty).modWave o.pr.wave fun v =>
        v.setP (x.sub.toNat % 8) (o.lanes x.h) fun l => addcSum x s o l / 2 ^ tyBits x.ty != 0).finish o (.addc x)) := by
    simp [exec_addc, execAddc, State.issue_go h]
  obtain ⟨w1, h1, e1⟩ := State.begin_wave (.addc x) h.issuer
  obtain ⟨w2, h2, hwrote⟩ := State.writeDst_wrote x.dst x.ty.isWide (o.lanes x.h)
    (fun l => addcSum x s o l % 2 ^ tyBits x.ty) h1
  have h3 := State.modWave_wave (fun v => v.setP (x.sub.toNat % 8) (o.lanes x.h) fun l =>
    addcSum x s o l / 2 ^ tyBits x.ty != 0) h2
  obtain ⟨w4, h4, e4⟩ := (State.Steady.finish _ o (.addc x)).wave h3
  have hwrote := hwrote.of_regfile_before (Wave.regfile_of_steady e1)
  have e := Wave.regfile_of_steady e4
  simp only [Wave.regfile, Prod.mk.injEq, Wave.setP_v, Wave.setP_s] at e
  obtain ⟨hv, hp, hs⟩ := e
  refine ⟨_, w4, he, h4, hwrote.of_preds hd hv hs, fun r l hl => ?_⟩
  rw [Wave.preg_congr hp, Wave.preg_setP _ _ _ _ _ hl, Wave.preg_congr (hwrote.p_eq hd)]

/-- Settles O17: each instruction but ADDC writes one exact result, saturated or wrapped; ADDC writes twice. -/
theorem integerArithmeticResults : Obligations.IntegerArithmeticResults := by
  refine ⟨fun s o x => ⟨?iadd, ?isub, ?imul, ?imulh, ?imad, ?imin, ?imax, ?iabs, ?iadd3, ?sati, ?icmp⟩,
    fun s o x => addc_result⟩
  case iadd => exact fun h => int2_result h (f := fun a b => a + b) (exec_iadd x s)
  case isub => exact fun h => int2_result h (f := fun a b => a - b) (exec_isub x s)
  case imul => exact fun h => int2_result h (f := fun a b => a * b) (exec_imul x s)
  case imulh => exact fun h => int2_result h (f := fun a b => a * b / 2 ^ tyBits x.ty) (exec_imulh x s)
  case imad => exact fun h => int3_result h (f := fun a b c => a * b + c) (exec_imad x s)
  case imin => exact fun h => int2_result h (f := fun a b => min a b) (exec_imin x s)
  case imax => exact fun h => int2_result h (f := fun a b => max a b) (exec_imax x s)
  case iabs => exact fun h => perLane_result h (exec_iabs x s) fun l => by rw [State.begin_intOperand]
  case iadd3 => exact fun h => int3_result h (f := fun a b c => a + b + c) (exec_iadd3 x s)
  case sati => exact fun h => perLane_result h (exec_sati x s) fun l => by rw [State.begin_intOperand]
  case icmp => exact fun h => perLane_result h (exec_icmp x s) fun l => by simp only [State.begin_intOperand]

/-! ### Floating point (R61, R84, R90, R91) -/

/-- A result of two floating operands, rounded once. -/
theorem flt2_result {s : State} {o : Who} {i : Instr} {x : AluOp} {f : Who → Machine.Num → Machine.Num → Machine.Num}
    (h : Clear s o i []) (he : exec i s = s.perLane i x x.ty.isWide (flt2 x f)) :
    LaneResult s o i x.h x.dst x.ty.isWide fun l => finishFlt o.fmt (rmode o.fmt x.rnd) x.sat (tyFmt x.ty)
      (f o (s.fltOperand o (tyFmt x.ty) x.abs0 x.a l) (s.fltOperand o (tyFmt x.ty) x.abs1 x.b l)) :=
  perLane_result h he fun l => by simp [flt2, fltResult]

/-- Settles O19: a result of two operands is rounded once by `flt2`; the other instructions read their operands as before
the issue. -/
theorem floatResults : Obligations.FloatResults := by
  intro s o x
  refine ⟨?fadd, ?fsub, ?fmul, ?ffma, ?fscale, ?frnd, ?sqrt, ?fcmp, ?fmin, ?fmax, ?fmed3, ?fclass, ?ffrac⟩
  case fadd => exact fun h => flt2_result h (f := fun o a b => a.add (isRd x o) b) (exec_fadd x s)
  case fsub => exact fun h => flt2_result h (f := fun o a b => a.add (isRd x o) b.negate) (exec_fsub x s)
  case fmul => exact fun h => flt2_result h (f := fun _ a b => a.mul b) (exec_fmul x s)
  case ffma => exact fun h => perLane_result h (exec_ffma x s) fun l => by simp only [flt2, State.begin_fltOperand]; rfl
  case fscale =>
    exact fun h => perLane_result h (exec_fscale x s) fun l => by
      simp only [State.begin_fltOperand, State.begin_intOperand]; rfl
  case frnd => exact fun h => perLane_result h (exec_frnd x s) fun l => by simp only [State.begin_fltOperand]; rfl
  case sqrt => exact fun h => perLane_result h (exec_sqrt x s) fun l => by simp only [State.begin_fltOperand]; rfl
  case fcmp => exact fun h => perLane_result h (exec_fcmp x s) fun l => by simp only [State.begin_fltOperand]
  case fmin => exact fun h => perLane_result h (exec_fmin x s) fun l => by simp only [State.begin_fltBits]
  case fmax => exact fun h => perLane_result h (exec_fmax x s) fun l => by simp only [State.begin_fltBits]
  case fmed3 => exact fun h => perLane_result h (exec_fmed3 x s) fun l => by simp only [State.begin_fltBits]
  case fclass =>
    exact fun h => perLane_result h (exec_fclass x s) fun l => by simp only [State.begin_operand, State.begin_ctlOf]; rfl
  case ffrac =>
    exact fun h => perLane_result h (exec_ffrac x s) fun l => by
      cases hv : s.fltOperand o (tyFmt x.ty) x.abs0 x.a l <;> simp only [State.begin_fltOperand, hv]

/-! ### Conversions, functions and packed forms (R92 to R95) -/

/-- A function of R94, rounded to nearest even. -/
theorem fnRn_result {s : State} {o : Who} {i : Instr} {x : AluOp} {f : Machine.Num → Machine.Num}
    (h : Clear s o i []) (he : exec i s = s.perLane i x x.ty.isWide (fnRn x f)) :
    LaneResult s o i x.h x.dst x.ty.isWide fun l =>
      finishFlt o.fmt .rn x.sat .f32 (f (s.fltOperand o .f32 x.abs0 x.a l)) :=
  perLane_result h he fun l => by rw [fnRn, State.begin_fltOperand]

/-- Settles O20: a function of R94 is one rounding of its value; the other forms read their operands as before the issue,
and FTOI's three kinds of value are told apart. -/
theorem conversionFunctionAndPackedResults : Obligations.ConversionFunctionAndPackedResults := by
  intro s o x
  refine ⟨fun h => fnRn_result h (exec_exp2 x s), fun h => fnRn_result h (exec_log2 x s),
    fun h => fnRn_result h (exec_rsq x s), fun h => fnRn_result h (exec_sin x s),
    fun h => fnRn_result h (exec_cos x s), ?rcp, ?fcvt, ?ftoi, ?itof, ?fdot2, ?hfma2,
    ?hadd2, ?hmul2, ?fpk2, ?qdot4⟩
  case rcp => exact fun h => perLane_result h (exec_rcp x s) fun l => by simp only [State.begin_fltOperand]
  case fcvt =>
    exact fun h => perLane_result h (exec_fcvt x s) fun l => by
      simp only [State.begin_fltOperand, State.begin_operand, State.begin_ctlOf]; rfl
  case ftoi =>
    exact fun h => perLane_result h (exec_ftoi x s) fun l => by
      rw [State.begin_fltOperand]
      cases s.fltOperand o (tyFmt ((Ty.ofCode x.sub).getD .f32)) x.abs0 x.a l <;> rfl
  case itof => exact fun h => perLane_result h (exec_itof x s) fun l => by rw [State.begin_intOperand]; rfl
  case fdot2 =>
    exact fun h => perLane_result h (exec_fdot2 x s) fun l => by simp only [State.begin_half, State.begin_fltOperand]
  case hfma2 => exact fun h => perLane_result h (exec_hfma2 x s) fun l => by simp only [State.begin_half]
  case hadd2 => exact fun h => perLane_result h (exec_hadd2 x s) fun l => by simp only [State.begin_half]
  case hmul2 => exact fun h => perLane_result h (exec_hmul2 x s) fun l => by simp only [State.begin_half]
  case fpk2 =>
    exact fun h => perLane_result h (exec_fpk2 x s) fun l => by simp only [State.begin_operand, State.begin_fltOperand]
  case qdot4 =>
    exact fun h => perLane_result h (exec_qdot4 x s) fun l => by simp only [State.begin_dotByte, State.begin_intOperand]

/-! ### Cross-lane instructions (R79, R96 to R101) -/

@[simp] theorem State.begin_xkey (s : State) (o : Who) (i : Instr) (x : XlOp) : (s.begin o i).xkey o x = s.xkey o x := by
  rw [State.xkey, State.begin_ctlOf]; rfl

/-- An XSHUF whose pair has not ended waits for its partner. -/
theorem exec_xshuf_waits {s : State} {o : Who} {x : XlOp} {u : WorkUnit} (h : Clear s o (.xshuf x) [])
    (hu : ((s.begin o (.xshuf x)).enterKey o (s.xkey o x)).units.get o.g.unit = some u)
    (hd : xshufDead u (s.xkey o x) o.w.group o.w.index = false) :
    exec (.xshuf x) s = .next ((((s.begin o (.xshuf x)).enterKey o (s.xkey o x)).modPart o.pr fun p =>
      { p with timer := ktoClk o.cutp }).holdOn o.pr (.xshuf x) 12) := by
  simp only [exec_xshuf, execXshuf, State.issue_go h, State.begin_xkey, hu, hd, Bool.false_eq_true, if_false]

/-- Settles O21: the values exchanged read as before the issue; WRITELANE writes one lane of them, and XSHUF waits. -/
theorem crossLaneResults : Obligations.CrossLaneResults := by
  refine ⟨fun s o x => ⟨?qswz, ?ballot, ?vote, ?shfl, ?bcast, ?redux, ?scanx, ?matching, ?readlane, ?writelane⟩,
    fun s o x h u => exec_xshuf_waits h⟩
  case qswz => exact fun h => crossLane_result h (exec_qswz x s) fun l => s.begin_xval _ _ _ _ _
  case ballot => exact fun h => crossLane_result h (exec_ballot x s) fun l => by simp only [State.begin_xval]; rfl
  case vote => exact fun h => crossLane_result h (exec_vote x s) fun l => by simp only [State.begin_xval]; rfl
  case shfl =>
    exact fun h => crossLane_result h (exec_shfl x s) fun l => by
      simp only [State.begin_xval, State.begin_ctlOf, Bool.and_eq_true, decide_eq_true_eq, and_assoc]; rfl
  case bcast => exact fun h => crossLane_result h (exec_bcast x s) fun l => s.begin_xval _ _ _ _ _
  case redux => exact fun h => crossLane_result h (exec_redux x s) fun l => by simp only [State.begin_xval]; rfl
  case scanx => exact fun h => crossLane_result h (exec_scanx x s) fun l => by simp only [State.begin_xval]; rfl
  case matching => exact fun h => crossLane_result h (exec_match x s) fun l => by simp only [State.begin_xval]; rfl
  case readlane =>
    exact fun h => crossLane_result h (exec_readlane x s) fun l => by simp only [State.begin_xval, State.begin_ctlOf]; rfl
  case writelane =>
    intro h
    refine wrote_of_exec h.issuer ?_
    rw [exec_writelane, execWritelane, State.issue_go h]
    simp only [State.begin_xval, State.begin_ctlOf]
    rfl

end Sys2Proof.Machine
end

section
/-! PROOFS. The results of the logic, shift, field and counting instructions (R85 to R89) and of MRD, cells in error
included (R121), and the events that let parts go on which wait for one another or for a look (R100, R101, R173, R204,
R305, R308, R313, R316). -/

namespace Sys2Proof.Machine

open Sys2Proof

/-! ### Logic, shifts, fields and counts (R87 to R89) -/

/-- A logic result of two operands' raw bits. -/
theorem logic2_result {s : State} {o : Who} {i : Instr} {x : AluOp} {f : Nat → Nat → Nat} (h : Clear s o i [])
    (he : exec i s = s.perLane i x x.ty.isWide (logic2 x f)) : LaneResult s o i x.h x.dst x.ty.isWide fun l =>
      logicBits x (f (s.operand o (.raw (tyBits x.ty)) false x.a l) (s.operand o (.raw (tyBits x.ty)) false x.b l)) :=
  perLane_result h he fun l => by simp only [logic2, State.begin_operand]; rfl

/-- Settles O18: a logic result is one function of the raw bits; the other instructions read values and counts as before
the issue. -/
theorem logicAndShiftResults : Obligations.LogicAndShiftResults := by
  intro s o x
  refine ⟨fun h => logic2_result h (exec_and x s), fun h => logic2_result h (exec_or x s),
    fun h => logic2_result h (exec_xor x s), ?not, ?shl, ?shr, ?rot, ?bfx, ?bfi, ?popc, ?clz, ?brev⟩
  case not => exact fun h => perLane_result h (exec_not x s) fun l => by rw [State.begin_operand]; rfl
  case shl => exact fun h => perLane_result h (exec_shl x s) fun l => by rw [State.begin_bitsOf, State.begin_ctlOf]; rfl
  case shr => exact fun h => perLane_result h (exec_shr x s) fun l => by rw [State.begin_bitsOf, State.begin_ctlOf]; rfl
  case rot => exact fun h => perLane_result h (exec_rot x s) fun l => by rw [State.begin_bitsOf, State.begin_ctlOf]; rfl
  case bfx => exact fun h => perLane_result h (exec_bfx x s) fun l => by rw [State.begin_bitsOf, State.begin_ctlOf]; rfl
  case bfi =>
    exact fun h => perLane_result h (exec_bfi x s) fun l => by simp only [State.begin_bitsOf, State.begin_ctlOf]; rfl
  case popc => exact fun h => perLane_result h (exec_popc x s) fun l => by rw [State.begin_bitsOf]; rfl
  case clz => exact fun h => perLane_result h (exec_clz x s) fun l => by rw [State.begin_bitsOf]; rfl
  case brev => exact fun h => perLane_result h (exec_brev x s) fun l => by rw [State.begin_bitsOf]; rfl

/-! ### Reads of accumulator cells (R121; log entry 45) -/

/-- The cell that a lane of an MRD names is in error. -/
def mrdBad (s : State) (o : Who) (x : EngOp) (l : Nat) : Bool :=
  o.g.cellBad (x.mod.toNat % 8) (s.cellIndex o x.a l) (WF.cellWide x.mod)

/-- What MRD delivers in a lane: the bits of the cell, and 0 of one in error. -/
def mrdBits (s : State) (o : Who) (x : EngOp) (l : Nat) : Nat :=
  if mrdBad s o x l then 0
  else o.g.cellBits (x.mod.toNat % 8) (s.cellIndex o x.a l) (if WF.cellWide x.mod then 0 else 1)

/-- Cells in error are held against registers, and change none. -/
theorem State.holdCells_wave {s : State} {o : Who} {w : Wave} (x : EngOp) (two : Bool) (l : List Nat)
    (h : s.waves.get o.pr.wave = some w) :
    ∃ w', (s.holdCells o x two l).waves.get o.pr.wave = some w' ∧ w'.regfile = w.regfile := by
  unfold State.holdCells
  split
  · exact ⟨w, h, rfl⟩
  · exact ⟨_, State.modWave_wave _ h, rfl⟩

/-- MRD of tiles whose tokens the part holds writes the bits of its cells, zeros for those in error. -/
theorem mrd_result {s : State} {o : Who} {x : EngOp} (h : Clear s o (.mrd x) [])
    (hc : cellTrap o (x.mod.toNat % 8) (WF.cellWide x.mod) = none) :
    LaneResult s o (.mrd x) x.h x.dst (WF.cellWide x.mod) (mrdBits s o x) := by
  have hn : (x.mod.extractLsb' 0 3).toNat = x.mod.toNat % 8 := by simp
  have he : exec (.mrd x) s = .next ((((s.begin o (.mrd x)).writeDst o x.dst (WF.cellWide x.mod) (o.lanes x.h)
      (mrdBits s o x)).holdCells o x (WF.cellWide x.mod) ((maskBits (o.lanes x.h)).filter (mrdBad s o x))).finish o
        (.mrd x)) := by
    rw [exec_mrd, execMrd, State.issueIf_go h (by rw [hn]; exact hc)]
    simp only [State.begin_cellIndex, hn]
    rfl
  obtain ⟨w1, h1, e1⟩ := State.begin_wave (.mrd x) h.issuer
  obtain ⟨w2, h2, hwrote⟩ := State.writeDst_wrote x.dst (WF.cellWide x.mod) (o.lanes x.h) (mrdBits s o x) h1
  obtain ⟨w3, h3, e3⟩ := State.holdCells_wave x (WF.cellWide x.mod) ((maskBits (o.lanes x.h)).filter (mrdBad s o x)) h2
  obtain ⟨w4, h4, e4⟩ := (State.Steady.finish _ o (.mrd x)).wave h3
  exact ⟨_, w4, he, h4, (hwrote.of_regfile ((Wave.regfile_of_steady e4).trans e3)).of_regfile_before
    (Wave.regfile_of_steady e1)⟩

/-- The firmware's launch with the accumulators granted: its part holds the token of ACC0, whose cell 0 holds 7 and has
met an uncorrectable error. -/
def spoiledCell : State :=
  let s := (State.reset.withFetchWord 96 0x1C00).modUnit 1 fun u => { u with words := u.words.set 17 0x18 }
  (s.modGroup 2 fun g => { g with token := g.token.put 0 s.cur }.setCell 0 0 7).outside (.badAcc 2 0)

/-- MRD.N32 V2, V4 of ACC0. -/
def readCell : EngOp :=
  { h := { pneg := false, pred := 7, csel := .uncounted }, dst := { cls := .v, num := 2 },
    a := { neg := false, blane := 0, lmod := 0, cls := .v, num := 4 }, b := Src.none, c := Src.none, mod := 8, minw := 0 }

/-- The part can issue that MRD, whose lane 0 names a cell that holds 7 and receives 0. -/
def readsSpoiled (o : Who) : Bool :=
  spoiledCell.verdict o (.mrd readCell) [] == .go && cellTrap o 0 false == none && (o.lanes readCell.h).getLsbD 0 &&
    o.g.cellBits 0 (spoiledCell.cellIndex o readCell.a 0) 1 == 7 && mrdBits spoiledCell o readCell 0 == 0

theorem readsSpoiled_spoiledCell : (spoiledCell.who spoiledCell.cur).any readsSpoiled = true := by decide +kernel

/-- The V register that a result is written to, in a lane that receives it. -/
theorem Wrote.vreg_num {w w' : Wave} {d : Dst} {wide : Bool} {m : LaneMask} {qs : QuadMask} {f : Nat → Nat} {l : Nat}
    (h : Wrote w w' d wide m qs f) (hd : d.cls = .v) (hl : m.getLsbD l = true) :
    w'.vreg d.num.toNat l = BitVec.ofNat 32 (f l) := by
  unfold Wrote at h
  rw [hd] at h
  obtain ⟨-, -, hv⟩ := h
  rw [hv _ _ (BitVec.lt_of_getLsbD hl), if_neg (by omega), if_pos ⟨hl, rfl⟩]

/-- The word that a participating lane receives in V is one. -/
theorem LaneResult.word_unique {s : State} {o : Who} {i : Instr} {h : Hdr} {d : Dst} {wide : Bool} {f g : Nat → Nat}
    {l : Nat} (hf : LaneResult s o i h d wide f) (hg : LaneResult s o i h d wide g) (hd : d.cls = .v)
    (hl : (o.lanes h).getLsbD l = true) : BitVec.ofNat 32 (f l) = BitVec.ofNat 32 (g l) := by
  obtain ⟨t, w, ht, hw, hwf⟩ := hf
  obtain ⟨t', w', ht', hw', hwg⟩ := hg
  obtain rfl : t = t' := Host.Outcome.next.inj (ht.symm.trans ht')
  obtain rfl : w = w' := Option.some.inj (hw.symm.trans hw')
  exact (hwf.vreg_num hd hl).symm.trans (hwg.vreg_num hd hl)

/-- Refutes O22: its clause for MRD has the bits of every cell, here 7, where MRD delivers 0 for a cell in error. -/
theorem not_engineLaneResults : ¬ Obligations.EngineLaneResults := by
  intro hall
  obtain ⟨o, hwho, ho⟩ := Option.any_eq_true .. |>.mp readsSpoiled_spoiledCell
  simp only [readsSpoiled, Bool.and_eq_true, beq_iff_eq] at ho
  obtain ⟨⟨⟨⟨hgo, htoken⟩, hlane⟩, hcell⟩, hread⟩ := ho
  have hclear : Clear spoiledCell o (.mrd readCell) [] := Clear.of_verdict hwho hgo
  obtain ⟨hmrd, -⟩ := hall spoiledCell o readCell
  have hcontra : BitVec.ofNat 32 7 = BitVec.ofNat 32 0 := calc
    BitVec.ofNat 32 7 = BitVec.ofNat 32 (o.g.cellBits 0 (spoiledCell.cellIndex o readCell.a 0) 1) := by rw [hcell]
    _ = BitVec.ofNat 32 (mrdBits spoiledCell o readCell 0) :=
      (hmrd hclear htoken).word_unique (mrd_result hclear htoken) rfl hlane
    _ = BitVec.ofNat 32 0 := by rw [hread]
  exact absurd hcontra (by decide)

/-! ### Parts that wait -/

/-- The part that an event finds waiting in an instruction of some form. -/
theorem Waits.waiter {s : State} {p : PartRef} {o : Who} {i : Instr} {α : Type} (h : Waits s p o i)
    (f : Instr → Option α) : s.waiter p f = (f i).map fun x => (o, x) := by
  obtain ⟨hwho, hhold, hstatus⟩ := h
  simp only [State.waiter, hwho, hhold, hstatus]

theorem watchesHost_singleton {q : Piece} (h : ∀ a, q.loc ≠ .host a) : watchesHost [q] = false := by
  cases hq : q.loc with
  | host a => exact absurd hq (h a)
  | _ => simp [watchesHost, hq]

/-! ### Looks of MONW and CCWAIT (R204, R316) -/

section
variable {s s' t : State} {p : PartRef} {o : Who} {x : MemOp} {y : CtlOp} {q : Piece} {d : ReadOut}
  {may : Who → List Piece → Bool}

/-- A MONW that waits looks where its event allows it. -/
theorem Waits.monAgain (h : Waits s p o (.monw x)) (hc : s.monCheck o x = (s', .ok [q])) (hm : may o [q] = true) :
    s.monAgain p may = s'.monLook o x [q] := by
  obtain ⟨hwho, hhold, hstatus⟩ := h
  simp only [State.monAgain, hwho, hhold, hstatus, hc, hm, if_true]

/-- A CCWAIT that waits looks where its event allows it. -/
theorem Waits.ccAgain (h : Waits s p o (.ccwait y)) (hc : s.ccCheck o y = (s', .ok [q])) (hm : may o [q] = true) :
    s.ccAgain p may = s'.ccLook o y [q] := by
  simp only [State.ccAgain, h.waiter, Option.map_some, hc, hm, if_true]

/-- A look that reads without error what the MONW waits for ends the wait. -/
theorem State.monLook_ends (ha : s.admits o.g o.u (memOp o x 0 .load [q]) q false = true)
    (hs : (memOp o x 0 .load [q]).scope = 5 → s.snooping q = false) (hw : s.lookWaits o = false)
    (hr : (s.lookOut o (memOp o x 0 .load [q]) q).readPiece o.g.core o.u.mode x.space.toNat
      (max 2 (memOp o x 0 .load [q]).scope) x.evict.toNat q = (t, d))
    (he : d.errs.any (fun e => e != 0) = false) (hd : monHolds o x d.data = true) :
    s.monLook o x [q] =
      let u := (t.noteRun o.g o.u (memOp o x 0 .load [q]) q false).noteHint o.u.ctx x.evict.toNat q
      (if x.ord = 1 then u.receive o.g.core (memOp o x 0 .load [q]) true d.sig
        else u.modPart o.pr fun z => { z with sigs := joinSigs z.sigs (some d.sig) }).finish o (.monw x) := by
  have hsnoop : (((memOp o x 0 .load [q]).scope = 5 : Bool) && s.snooping q) = false := by
    by_cases h5 : (memOp o x 0 .load [q]).scope = 5
    · rw [hs h5, Bool.and_false]
    · rw [decide_eq_false h5, Bool.false_and]
  simp only [State.monLook, List.head?_cons, Option.getD_some, ha, hsnoop, hw, hr, he, hd, Bool.not_true, Bool.or_self,
    Bool.false_eq_true, if_false, if_true]

/-- A look that reads without error a count that has reached the comparand ends the wait. -/
theorem State.ccLook_ends (ha : s.admits o.g o.u (ccOp o [q]) q false = true) (hw : s.lookWaits o = false)
    (hr : (s.lookOut o (ccOp o [q]) q).readPiece o.g.core o.u.mode 0 3 0 q = (t, d))
    (he : d.errs.any (fun e => e != 0) = false) (hd : (o.sval2 y.b).toNat ≤ leNat d.data) :
    s.ccLook o y [q] = (((t.noteRun o.g o.u (ccOp o [q]) q false).receive o.g.core (ccOp o [q]) true d.sig).writeSS o
      y.dst (leNat d.data)).finish o (.ccwait y) := by
  simp only [State.ccLook, List.head?_cons, Option.getD_some, ha, hw, hr, he, hd, Bool.not_true, Bool.or_self,
    Bool.false_eq_true, if_false, if_true]

end

/-! ### Barriers, queues, raster order and the tile stream (R173, R305, R308, R313) -/

section
variable {s : State} {p : PartRef} {o : Who} {x : CtlOp} {y : EngOp} {q : Queue}

theorem exec_bwaitPass_passes (h : Waits s p o (.bwait x)) (hm : s.barrMoved o x = true)
    (hb : s.barrBad o.w.group (barrOf o x) = false) (ha : s.lsAdmits o (barrOf o x) 16 false = true)
    (hf : s.barrFault o x = (s, none)) :
    exec (.bwaitPass p) s = .next ((s.lsNote o (barrOf o x) 16 false).finish o (.bwait x)) := by
  simp only [exec_bwaitPass, stepBwaitPass, h.waiter, Option.map_some, hb, hm, ha, hf, Bool.and_self,
    Bool.false_eq_true, if_false, if_true]

theorem exec_qpushResume_pushes (h : Waits s p o (.qpush x)) (hq : o.queue x = some q) (hc : s.canPush o q = true) :
    exec (.qpushResume p) s = .next (s.doPush o x q) := by
  simp only [exec_qpushResume, stepQpushResume, h.waiter, Option.map_some, hq, hc, if_true]

theorem exec_qpopResume_pops (h : Waits s p o (.qpop x)) (hq : o.queue x = some q) (hc : s.canPop o q = true) :
    exec (.qpopResume p) s = .next (s.doPop o x q) := by
  simp only [exec_qpopResume, stepQpopResume, h.waiter, Option.map_some, hq, hc, if_true]

theorem exec_rosbAdmit_enters {t : TileState} (h : Waits s p o (.rosb x)) (ht : o.w.tile = some t)
    (hd : s.rosDue o t = true) : exec (.rosbAdmit p) s = .next (s.enterSection o x t) := by
  simp only [exec_rosbAdmit, stepRosbAdmit, h.waiter, Option.map_some, ht, hd, if_true]

theorem exec_tileRecordHandout_record {k : Nat} {r : TileRec} (h : Waits s p o (.tileq y))
    (hr : (s.readyRecs (clusterOf o.g.core) o.u.draw (o.u.peer.getD 0))[k]? = some r) :
    exec (.tileRecordHandout p k) s = .next ((s.takeRec (clusterOf o.g.core) r).1.landRec o y
      { words := (s.takeRec (clusterOf o.g.core) r).2.words, ticket := (s.takeRec (clusterOf o.g.core) r).2.ticket,
        held := false, done := false }) := by
  obtain ⟨hwho, hhold, hstatus⟩ := h
  simp only [exec_tileRecordHandout, stepTileRecordHandout, hwho, hhold, hstatus, hr]

theorem exec_tileRecordHandout_end {k : Nat} (h : Waits s p o (.tileq y))
    (hr : (s.readyRecs (clusterOf o.g.core) o.u.draw (o.u.peer.getD 0))[k]? = none)
    (he : s.streamOver (clusterOf o.g.core) o.u.draw (o.u.peer.getD 0) = true) :
    exec (.tileRecordHandout p k) s = .next (s.landRec o y endRec) := by
  obtain ⟨hwho, hhold, hstatus⟩ := h
  simp only [exec_tileRecordHandout, stepTileRecordHandout, hwho, hhold, hstatus, hr, he, if_true]

end

/-! ### Key exchanges (R100, R101) -/

/-- Two waves wait in XSHUFs of a key that pairs their groups, each in as many as the other before. -/
structure Matched (s : State) (o q : Who) (x y : XlOp) (e f : XPair) : Prop where
  mine : s.xwaiter o.pr.wave = some (o, x)
  theirs : s.xwaiter q.pr.wave = some (q, y)
  key : s.xkey q y = s.xkey o x
  unit : o.g.unit = q.g.unit
  entry : pairOf o.u (s.xkey o x) o.w.group = some e
  other : pairOf o.u (s.xkey o x) q.w.group = some f
  partner : e.partner = some q.w.group
  back : f.partner = some o.w.group
  index : o.w.index = q.w.index
  made : e.made o.w.index = f.made q.w.index

section
variable {r : State} {o q : Who} {x y : XlOp} {e f : XPair}

/-- Waves of the same width exchange their values. -/
theorem exec_xshufMatch_exchanges (h : Matched (r.seekPair o.pr.wave) o q x y e f) (hn : o.w.nquads = q.w.nquads) :
    exec (.xshufMatch o.pr.wave q.pr.wave) r =
      let s := r.seekPair o.pr.wave
      .next (((((s.exchange o x q y s).exchange q y o x s).modUnit o.g.unit fun u =>
        modPair (s.xkey o x) o.w.group (fun e => e.count o.w.index false)
          (modPair (s.xkey o x) q.w.group (fun e => e.count o.w.index false) u)).finish o (.xshuf x)).finish q
            (.xshuf y)) := by
  simp only [exec_xshufMatch, stepXshufMatch, h.mine, h.theirs, h.entry, h.other, h.unit, h.key, h.partner, h.back,
    h.made, ← h.index, hn, decide_true, Bool.and_self, bne_self_eq_false, Bool.false_eq_true, if_false, if_true]

/-- Waves of different width take XSHUF_SHAPE. -/
theorem exec_xshufMatch_shape (h : Matched (r.seekPair o.pr.wave) o q x y e f) (hn : o.w.nquads ≠ q.w.nquads) :
    exec (.xshufMatch o.pr.wave q.pr.wave) r =
      let s := r.seekPair o.pr.wave
      .next ((s.xshufTrap o (s.xkey o x) codeXshufShape false).xshufTrap q (s.xkey o x) codeXshufShape false) := by
  simp only [exec_xshufMatch, stepXshufMatch, h.mine, h.theirs, h.entry, h.other, h.unit, h.key, h.partner, h.back,
    h.made, ← h.index, bne_iff_ne.mpr hn, decide_true, Bool.and_self, if_true]

theorem exec_xshufTimeout_traps {s : State} (h : Waits s o.pr o (.xshuf x)) (ht : o.p.timer = 0) :
    exec (.xshufTimeout o.pr) s = .next (s.xshufTrap o (s.xkey o x) codeXshufTimeout true) := by
  obtain ⟨hwho, hhold, hstatus⟩ := h
  simp only [exec_xshufTimeout, stepXshufTimeout, hwho, hhold, hstatus, ht, if_true]

end

/-- Settles O46: a look that finds its condition ends the wait; the other events let their part go on by the guard that
they test. -/
theorem syncWaitsEnd : Obligations.SyncWaitsEnd := by
  refine ⟨fun s s' t p o x y q d => ⟨?monw, ?ccwait⟩, fun s p o x y q => ⟨?bwait, ?qpush, ?qpop, ?rosb, ?tileq⟩,
    fun r o q x y e f => ⟨?xshuf, ?timeout⟩⟩
  case monw =>
    intro h hc op ha hs hw hr he hd
    have look := State.monLook_ends ha hs hw hr he hd
    refine ⟨fun hm => ?_, fun ht => ?_⟩
    · have host := watchesHost_singleton (hm.resolve_left id)
      rw [exec_monwWake, stepMonwWake, h.monAgain hc (by rw [host, Bool.not_false]), look]
    · rw [exec_monwPollExpiry, stepMonwPollExpiry, h.monAgain hc (decide_eq_true ht), look]
  case ccwait =>
    intro h hc ha hw hr he hd
    have look := State.ccLook_ends ha hw hr he hd
    refine ⟨fun hm => ?_, fun ht => ?_⟩
    · have host := watchesHost_singleton (hm.resolve_left id)
      rw [exec_ccwaitWake, stepCcwaitWake, h.ccAgain hc (by rw [host, Bool.not_false]), look]
    · rw [exec_ccwaitPollExpiry, stepCcwaitPollExpiry, h.ccAgain hc (decide_eq_true ht), look]
  case bwait => exact fun h hm hb ha hf => exec_bwaitPass_passes h (bne_iff_ne.mpr hm) hb ha hf
  case qpush => exact exec_qpushResume_pushes
  case qpop => exact exec_qpopResume_pops
  case rosb => exact fun h t => exec_rosbAdmit_enters h
  case tileq => exact fun h => ⟨fun k r => exec_tileRecordHandout_record h, fun k => exec_tileRecordHandout_end h⟩
  case xshuf =>
    intro mine theirs key unit entry other partner back index made
    have h : Matched (r.seekPair o.pr.wave) o q x y e f :=
      ⟨mine, theirs, key, unit, entry, other, partner, back, index, made⟩
    exact ⟨exec_xshufMatch_exchanges h, exec_xshufMatch_shape h⟩
  case timeout => exact exec_xshufTimeout_traps

end Sys2Proof.Machine
end

section
/-! PROOFS. The matrix and ternary instructions as they issue (R105, R107, R119 to R122, R143 to R146), and the events of
the operations that they put into the table (R110, R111, R115, R132 to R137, R140). -/

namespace Sys2Proof.Machine

open Sys2Proof

/-! ### An issue that asks no slice for room -/

/-- An issue that needs no room in a slice's record ring (R394), and whose own checks pass, has its effect. -/
theorem State.issueWith_clear {α : Type} {s s' : State} {o : Who} {i : Instr} {check : Who → State → State × Except Stop α}
    {act : α → Who → State → State} {a : α} (h : Clear s o i []) (hc : check o s = (s', .ok a)) :
    s.issueWith i (fun _ _ => []) check act = .next (act a o (s'.begin o i)) :=
  State.issueWith_go (by rw [State.inRecord_nil]; exact h) hc

/-! ### Accumulator tokens and batches (R105, R114, R118, R120, R121) -/

@[simp] theorem State.begin_mwaitArgs (s : State) (o : Who) (i : Instr) (x : EngOp) :
    (s.begin o i).mwaitArgs o x = s.mwaitArgs o x := by
  unfold State.mwaitArgs
  rw [State.begin_scalar]

section
variable {s : State} {o : Who} {x : EngOp}

theorem exec_macq_held (h : Clear s o (.macq x) []) (ht : partHolds o x.dst.num.toNat = true) :
    exec (.macq x) s = .next ((s.begin o (.macq x)).finish o (.macq x)) := by
  rw [exec_macq, execMacq, State.issue_go h]
  simp only [ht, if_true]

theorem exec_macq_free (h : Clear s o (.macq x) []) (ht : partHolds o x.dst.num.toNat = false)
    (hg : (s.begin o (.macq x)).mayGrant o x.dst.num.toNat = true)
    (hw : (s.begin o (.macq x)).macqWaiters o.w.group x.dst.num.toNat = []) :
    exec (.macq x) s = .next ((s.begin o (.macq x)).grant o x) := by
  rw [exec_macq, execMacq, State.issue_go h]
  simp only [ht, hg, hw, List.isEmpty_nil, Bool.and_self, Bool.false_eq_true, if_false, if_true]

theorem exec_mrel_held (h : Clear s o (.mrel x) []) (ht : partHolds o x.dst.num.toNat = true) :
    exec (.mrel x) s = .next (((s.begin o (.mrel x)).modGroup o.w.group fun g =>
      { g with token := g.token.del x.dst.num.toNat }).finish o (.mrel x)) := by
  rw [exec_mrel, execMrel, State.issueIf_go h (if_pos ht)]

/-- The cells are those that A names before the issue, and their bits those of B. -/
theorem exec_mwr_held (h : Clear s o (.mwr x) []) (ht : cellTrap o x.dst.num.toNat (WF.cellWide x.mod) = none) :
    exec (.mwr x) s = .next (((s.begin o (.mwr x)).modGroup o.w.group fun g =>
      (maskBits (o.lanes x.h)).foldl (fun g l => g.putCell x.dst.num.toNat (s.cellIndex o x.a l)
        (if WF.cellWide x.mod then 0 else 1)
        (s.operand o (.int (if WF.cellWide x.mod then 64 else 32)) false x.b l)) g).finish o (.mwr x)) := by
  rw [exec_mwr, execMwr, State.issueIf_go h ht]
  simp only [State.begin_cellIndex, State.begin_operand]

theorem exec_mwait_over (h : Clear s o (.mwait x) [])
    (hr : waitRow (o.w.batches (s.mwaitArgs o x).1).closed (s.mwaitArgs o x).2 ≠ .range)
    (hd : waitRow (o.w.batches (s.mwaitArgs o x).1).closed (s.mwaitArgs o x).2 = .past ∨
      s.batchDone o.pr.wave (s.mwaitArgs o x).1 (s.mwaitArgs o x).2 = true) :
    exec (.mwait x) s =
      .next ((s.begin o (.mwait x)).passMwait o x (s.mwaitArgs o x).1 (s.mwaitArgs o x).2) := by
  have hdone : ∀ unit b, (s.begin o (.mwait x)).batchDone o.pr.wave unit b = s.batchDone o.pr.wave unit b := fun _ _ => rfl
  rw [exec_mwait, execMwait, State.issueWith_clear (s' := s) (a := ()) h (if_neg hr)]
  simp only [State.begin_mwaitArgs, hdone]
  rw [if_pos (by simpa using hd)]

end

/-- Settles O33: each instruction passes its checks, and its effect is that of the branch its hypotheses choose. -/
theorem accumulatorInstructionsComplete : Obligations.AccumulatorInstructionsComplete :=
  fun _ _ _ => ⟨exec_macq_held, exec_macq_free, exec_mrel_held, exec_mwr_held, exec_mwait_over⟩

/-! ### Checks of engine operations (R117, R122, R138) -/

theorem State.mmaCheck_quiet (s : State) (o : Who) (x : EngOp) (scaled : Bool) : Quiet s (s.mmaCheck o x scaled).1 := by
  unfold State.mmaCheck
  dsimp only
  split_ifs
  case neg => exact State.engineMap_quiet _ _ _ _
  all_goals exact Quiet.refl s

theorem State.drainCheck_quiet (s : State) (o : Who) (x : EngOp) : Quiet s (s.drainCheck o x).1 := by
  unfold State.drainCheck
  dsimp only
  split_ifs
  case neg => exact State.engineMap_quiet _ _ _ _
  all_goals exact Quiet.refl s

theorem State.taCheck_quiet (s : State) (o : Who) (bad : Bool) (more : Option TrapInfo) (reads writes : List Run) :
    Quiet s (s.taCheck o bad more reads writes).1 := by
  unfold State.taCheck
  cases more with
  | some t =>
    dsimp only
    split_ifs
    all_goals exact Quiet.refl s
  | none =>
    dsimp only
    split_ifs
    case neg => exact State.engineMap_quiet _ _ _ _
    all_goals exact Quiet.refl s

/-- A check that answers leaves the state that it answers with. -/
theorem Quiet.of_answer {α : Type} {s s' : State} {r : State × α} {a : α} (h : Quiet s r.1) (hr : r = (s', a)) :
    Quiet s s' := by
  rw [hr] at h
  exact h

/-! ### From the beginning of an instruction to the entry of its operation (R113, R133) -/

/-- A state on the way from an issue to its operation's entry: the wave's registers are as before, and the numbers of
operations given since do not repeat earlier ones. -/
structure Entering (s : State) (o : Who) (u : State) : Prop where
  regs : (u.waves.get o.pr.wave).map Wave.regfile = some o.w.regfile
  fresh : s.fresh ≤ u.fresh

namespace Entering

variable {s u : State} {o : Who}

theorem begun {s' : State} {i : Instr} {sl : List Nat} (h : Clear s o i sl) (hq : Quiet s s') :
    Entering s o (s'.begin o i) :=
  ⟨launch_regs i h.issuer hq, by rw [State.begin_fresh, hq.fresh]⟩

theorem fresh1 (h : Entering s o u) : Entering s o u.fresh1.1 := ⟨h.regs, h.fresh.trans (Nat.le_succ _)⟩

theorem splitCount (h : Entering s o u) (i : Instr) : Entering s o (u.splitCount o i).1 := by
  unfold State.splitCount
  split
  · exact h
  · exact ⟨(State.addOp_regfile _ _ _ _).trans h.regs, h.fresh1.fresh⟩

theorem taDecision (h : Entering s o u) (opc : Nat) : Entering s o (u.taDecision o opc) := by
  unfold State.taDecision
  split
  · have hq := u.decide_quiet o 6 opc o.pr.part o.p.pc.toNat o.p.quads.toNat 0
    exact ⟨(hq.regfile _).trans h.regs, by rw [hq.fresh]; exact h.fresh⟩
  · exact h

end Entering

/-- An entry that counts for an instruction since `s` is outstanding, where the instruction's CSEL names a counter. -/
def Counted (s : State) (o : Who) (i : Instr) (l : List Op) : Prop :=
  ∀ n, lineCounter o.p (headOf i).csel = some n →
    ∃ z ∈ l, z.wave = o.pr.wave ∧ z.ctr = some n ∧ z.quads = o.p.quads ∧ z.done = false ∧ s.fresh ≤ z.id

theorem Counted.mono {s : State} {o : Who} {i : Instr} {l l' : List Op} (h : Counted s o i l) (hl : l ⊆ l') :
    Counted s o i l' := by
  intro n hn
  obtain ⟨z, hz, hcounts⟩ := h n hn
  exact ⟨z, hl hz, hcounts⟩

/-- The counted half of a split operation is such an entry. -/
theorem Entering.counted {s u : State} {o : Who} (h : Entering s o u) (i : Instr) :
    Counted s o i (u.splitCount o i).1.ops := by
  intro n hn
  refine ⟨{ blankOp o u.fresh (some n) .done with start := u.time }, ?_, rfl, rfl, rfl, rfl, h.fresh⟩
  simp only [State.splitCount, hn]
  exact List.mem_append_right _ (List.mem_singleton_self _)

theorem State.taDecision_ops (s : State) (o : Who) (opc : Nat) : (s.taDecision o opc).ops = s.ops := by
  unfold State.taDecision
  split
  · exact (s.decide_quiet o 6 opc o.pr.part o.p.pc.toNat o.p.quads.toNat 0).ops
  · rfl

/-- An operation of a kind as a part issues it: one of all its quads, at its PC, not complete. -/
structure Op.IssuedBy (y : Op) (o : Who) (kind : OpKind) : Prop where
  kind : y.kind = kind
  wave : y.wave = o.pr.wave
  part : y.part = o.pr.part
  all : y.all = o.p.quads
  pc : y.pc = o.p.pc
  done : y.done = false

/-- The issue of an engine operation whose counted half has an entry of its own. -/
theorem launchEngine_of_counted {s u : State} {o : Who} {i : Instr} {y : Op} {kind : OpKind} {P : Op → Prop}
    (h : Entering s o u) (hc : Counted s o i u.ops) (he : exec i s = .next (u.launchEngine o y))
    (hp : P { y with start := u.time }) (hy : y.IssuedBy o kind) : Launches s o i kind P (Kept o) := by
  obtain ⟨v, hops, hwaves, hv⟩ : ∃ v : State, v.ops = u.ops ++ [{ y with start := u.time }] ∧
      v.waves = (u.addOp o y).waves ∧ u.launchEngine o y = (v.advance o.pr).settle := by
    unfold State.launchEngine
    split
    · exact ⟨_, rfl, rfl, rfl⟩
    · exact ⟨_, by simp, by simp, rfl⟩
  refine launches_of (he.trans (congrArg _ hv)) (by rw [hops]; simp) hp hy.kind hy.wave hy.part hy.all hy.pc hy.done ?_
    (fun _ => Kept.of_regfile) ?_
  · rw [hwaves, State.addOp_regfile, h.regs]
  · rw [hops]
    exact hc.mono (List.subset_append_left _ _)

theorem Launches.imp {s : State} {o : Who} {i : Instr} {kind : OpKind} {P Q : Op → Prop} {R : Wave → Prop}
    (h : Launches s o i kind P R) (hpq : ∀ y, P y → Q y) : Launches s o i kind Q R := by
  obtain ⟨t, w, y, he, hy, hp, hrest⟩ := h
  exact ⟨t, w, y, he, hy, hpq y hp, hrest⟩

/-! ### MMA and MMAS (R107, R119) -/

/-- The sectors of the block scales that a scaled operation reads. -/
def scalePieces (o : Who) (x : EngOp) (scaled : Bool) : List Piece :=
  let d := matrixDesc o x
  let n := 32 * (d.k / 32)
  if scaled then
    (if scalesA o.fmt then (localTile d.scales n).pieces o.w.group 2 [] else []) ++
    (if scalesB o.fmt then (localTile (d.scales + BitVec.ofNat 64 n) n).pieces o.w.group 3 [] else [])
  else []

/-- The operation of a multiplication reads the sectors of both operands, and then those of the scales. -/
theorem launches_issueMma {s s' : State} {o : Who} {i : Instr} {x : EngOp} {scaled : Bool} {m : List Mapped}
    (h : Clear s o i []) (hc : s.mmaCheck o x scaled = (s', .ok m))
    (he : exec i s = .next ((s'.begin o i).issueMma i o x scaled m)) :
    Launches s o i (if scaled then .mmas else .mma) (fun y => y.pieces = (matrixDesc o x).a.pieces o.w.group 0 m ++
      (matrixDesc o x).b.pieces o.w.group 1 m ++ scalePieces o x scaled ∧ y.dst = x.dst) (Kept o) := by
  have hb : Entering s o (s'.begin o i) := .begun h ((s.mmaCheck_quiet o x scaled).of_answer hc)
  exact launchEngine_of_counted (hb.splitCount i).fresh1 (hb.counted i) he ⟨rfl, rfl⟩ ⟨rfl, rfl, rfl, rfl, rfl, rfl⟩

theorem mma_launches {s s' : State} {o : Who} {x : EngOp} {m : List Mapped} (h : Clear s o (.mma x) [])
    (hc : s.mmaCheck o x false = (s', .ok m)) : Launches s o (.mma x) .mma (fun y => y.pieces =
      (matrixDesc o x).a.pieces o.w.group 0 m ++ (matrixDesc o x).b.pieces o.w.group 1 m ∧ y.dst = x.dst) (Kept o) :=
  (launches_issueMma h hc ((exec_mma x s).trans (State.issueWith_clear h hc))).imp fun _ ⟨hp, hd⟩ =>
    ⟨hp.trans (List.append_nil _), hd⟩

theorem mmas_launches {s s' : State} {o : Who} {x : EngOp} {m : List Mapped} (h : Clear s o (.mmas x) [])
    (hc : s.mmaCheck o x true = (s', .ok m)) : Launches s o (.mmas x) .mmas (fun y =>
      (matrixDesc o x).a.pieces o.w.group 0 m ++ (matrixDesc o x).b.pieces o.w.group 1 m <+: y.pieces ∧ y.dst = x.dst)
        (Kept o) :=
  (launches_issueMma h hc ((exec_mmas x s).trans (State.issueWith_clear h hc))).imp fun _ ⟨hp, hd⟩ =>
    ⟨⟨_, hp.symm⟩, hd⟩

/-! ### MDRAIN (R122) -/

theorem mdrain_launches {s s' : State} {o : Who} {x : EngOp} {m : List Mapped} (h : Clear s o (.mdrain x) [])
    (hc : s.drainCheck o x = (s', .ok m)) : Launches s o (.mdrain x) .mdrain
      (fun y => y.pieces = (drainTile o x).pieces o.w.group 0 m ∧ y.dst = x.dst) (Kept o) := by
  have hb : Entering s o (s'.begin o (.mdrain x)) := .begun h ((s.drainCheck_quiet o x).of_answer hc)
  exact launchEngine_of hb.fresh1.regs hb.fresh ((exec_mdrain x s).trans (State.issueWith_clear h hc))
    ⟨rfl, rfl⟩ rfl rfl rfl rfl rfl rfl rfl rfl

/-! ### The ternary array (R143 to R146) -/

section
variable {s s' : State} {o : Who} {x : EngOp} {m : List Mapped}

/-- The state before a decision of the array, where its checks pass. -/
theorem Entering.of_taCheck {i : Instr} {bad : Bool} {more : Option TrapInfo} {reads writes : List Run}
    (h : Clear s o i []) (hc : s.taCheck o bad more reads writes = (s', .ok m)) : Entering s o (s'.begin o i) :=
  .begun h ((s.taCheck_quiet o bad more reads writes).of_answer hc)

/-- The issue of an operation of the array that counts until it completes. -/
theorem launchTa_of {u : State} {i : Instr} {y : Op} {kind : OpKind} {P : Op → Prop} {opc : Nat} (h : Entering s o u)
    (hf : s.fresh ≤ y.id) (he : exec i s = .next (u.launchTa o opc y))
    (hp : ∀ z : Op, z.pieces = y.pieces → z.dst = y.dst → z.args = y.args → P z) (hy : y.IssuedBy o kind)
    (hq : y.quads = o.p.quads) (hctr : y.ctr = lineCounter o.p (headOf i).csel) : Launches s o i kind P (Kept o) := by
  refine launchEngine_of (h.taDecision opc).regs ?_ he (hp _ rfl rfl rfl) hy.kind hy.wave hy.part hy.all hy.pc hy.done hq hctr
  exact hf

/-- The issue of one whose counted half has an entry of its own. -/
theorem launchTa_of_counted {u : State} {i : Instr} {y : Op} {kind : OpKind} {P : Op → Prop} {opc : Nat}
    (h : Entering s o u) (hc : Counted s o i u.ops) (he : exec i s = .next (u.launchTa o opc y))
    (hp : ∀ z : Op, z.pieces = y.pieces → z.dst = y.dst → z.args = y.args → P z) (hy : y.IssuedBy o kind) :
    Launches s o i kind P (Kept o) :=
  launchEngine_of_counted (h.taDecision opc) (u.taDecision_ops o opc ▸ hc) he (hp _ rfl rfl rfl)
    ⟨hy.kind, hy.wave, hy.part, hy.all, hy.pc, hy.done⟩

theorem twldPlane_lt (x : EngOp) : twldPlane x < 2 ^ 32 := by
  unfold twldPlane
  split <;> decide

theorem twld_launches (h : Clear s o (.twld x) []) (hc : s.taCheck o (twldBad o x) (twldTrap o x)
      (if twldGlobal x then pageRuns (o.spair x.a.num.toNat) 13312 else []) [] = (s', .ok m)) :
    Launches s o (.twld x) .twld (fun y => y.pieces = twldPieces o x m ∧ y.arg 1 = twldPlane x) (Kept o) := by
  have hb := Entering.of_taCheck h hc
  refine launchTa_of_counted (hb.splitCount (.twld x)).fresh1 (hb.counted (.twld x))
    ((exec_twld x s).trans (State.issueWith_clear h hc))
    (fun z hz _ ha => ⟨hz, ?_⟩) ⟨rfl, rfl, rfl, rfl, rfl, rfl⟩
  rw [Op.arg, ha]
  exact (BitVec.toNat_ofNat ..).trans (Nat.mod_eq_of_lt (twldPlane_lt x))

theorem tmac_launches (h : Clear s o (.tmac x) []) (hc : s.taCheck o (tmacBad o x) none [] [] = (s', .ok m)) :
    Launches s o (.tmac x) .tmac (fun y => y.dst = x.dst ∧ y.arg 3 = (tmacDesc o x).1 % 2 ^ 32 ∧
      y.arg 4 = (tmacDesc o x).2.1 % 2 ^ 32) (Kept o) := by
  have hb := Entering.of_taCheck h hc
  refine launchTa_of_counted (hb.splitCount (.tmac x)).fresh1 (hb.counted (.tmac x))
    ((exec_tmac x s).trans (State.issueWith_clear h hc))
    (fun z _ hd ha => ⟨hd, ?_, ?_⟩) ⟨rfl, rfl, rfl, rfl, rfl, rfl⟩
  · rw [Op.arg, ha]; exact BitVec.toNat_ofNat ..
  · rw [Op.arg, ha]; exact BitVec.toNat_ofNat ..

theorem tdrain_launches (h : Clear s o (.tdrain x) []) (hc : s.taCheck o (drainDesc o x).bad none []
      (if (drainDesc o x).tile.glob then (drainDesc o x).tile.pages else []) = (s', .ok m)) :
    Launches s o (.tdrain x) .tdrain (fun y => y.dst = x.dst ∧
      (drainDesc o x).tile.pieces o.w.group 0 m <+: y.pieces) (Kept o) := by
  have hb := Entering.of_taCheck h hc
  exact launchTa_of hb.fresh1 hb.fresh ((exec_tdrain x s).trans (State.issueWith_clear h hc))
    (fun z hz hd _ => ⟨hd, hz ▸ ⟨_, (List.append_assoc ..).symm⟩⟩) ⟨rfl, rfl, rfl, rfl, rfl, rfl⟩ rfl rfl

/-- Both forms of TZERO: the operation names the accumulator, and the plane by MOD. -/
theorem launches_zeroInstr {i : Instr} (h : Clear s o i []) (hc : s.taCheck o false none [] [] = (s', .ok m))
    (he : exec i s = zeroInstr i x s) (hh : (headOf i).csel = x.h.csel) : Launches s o i .tzero
      (fun y => y.dst = x.dst ∧ y.arg 1 = if x.mod.getLsbD 1 then 1 else 0) (Kept o) := by
  have hb := Entering.of_taCheck h hc
  refine launchTa_of hb.fresh1 hb.fresh (he.trans (State.issueWith_clear h hc)) (fun z _ hd ha => ⟨hd, ?_⟩)
    ⟨rfl, rfl, rfl, rfl, rfl, rfl⟩ rfl (by rw [hh]; rfl)
  simp only [Op.arg, ha]
  split <;> rfl

end

/-- Settles O34: after the checks and the decision of the array, the operation enters the table with its pieces and
arguments, and the counted half beside it where it retires earlier. -/
theorem matrixInstructionsIssue : Obligations.MatrixInstructionsIssue := by
  intro s s' o x m operands
  refine ⟨mma_launches, mmas_launches, mdrain_launches, twld_launches, tmac_launches, tdrain_launches, ?tzero, ?plane⟩
  case tzero => exact fun h hc => (launches_zeroInstr h hc (exec_tzero x s) rfl).imp fun _ => And.left
  case plane => exact fun h hc => (launches_zeroInstr h hc (exec_tzeroPlane x s) rfl).imp fun _ => And.right

/-! ### Operations and their pieces (R110, R192) -/

theorem Live.id_eq {s : State} {id : Nat} {kind : OpKind} {x : Op} {g : Group} {u : WorkUnit}
    (h : Live s id kind x g u) : x.id = id := by
  obtain ⟨hop, -⟩ := h
  exact beq_iff_eq.mp (List.find?_some (p := fun o : Op => o.id == id) hop)

theorem Live.kind_eq {s : State} {id : Nat} {kind : OpKind} {x : Op} {g : Group} {u : WorkUnit}
    (h : Live s id kind x g u) : x.kind = kind := by
  obtain ⟨-, -, hkind, -⟩ := h
  exact hkind

theorem Op.mem_pick_nil {x : Op} {i : Nat} : i ∈ x.pick [] ↔ i < x.pieces.length ∧ x.seen.get i = none := by
  simp [Op.pick]

theorem Tbl.put_ne_nil {α : Type} (t : Tbl α) (k : Nat) (v : α) : t.put k v ≠ [] := by
  intro h
  have := t.get_put_same k v
  rw [h] at this
  cases this

/-- A run of writes of one value. -/
theorem Tbl.get_foldl_put {α : Type} (v : α) (l : List Nat) (t : Tbl α) (k : Nat) :
    Tbl.get (l.foldl (fun t i => Tbl.put t i v) t) k = if k ∈ l then some v else t.get k := by
  induction l generalizing t with
  | nil => simp
  | cons i r ih =>
    rw [List.foldl_cons, ih, Tbl.get_put]
    by_cases hr : k ∈ r <;> simp [hr]

/-- An operation with some pieces performed. -/
def Op.marked (x : Op) (l : List Nat) : Op := { x with seen := l.foldl (fun t i => Tbl.put t i []) x.seen }

theorem Op.marked_seen_ne_none {x : Op} {i : Nat} (h : i < x.pieces.length) : (x.marked (x.pick [])).seen.get i ≠ none := by
  rw [Op.marked, Tbl.get_foldl_put]
  split
  · exact Option.some_ne_none _
  · rename_i hopen
    exact fun hnone => hopen (Op.mem_pick_nil.mpr ⟨h, hnone⟩)

/-- With every open piece performed, none is open. -/
theorem Op.opens_marked (x : Op) : (x.marked (x.pick [])).opens = [] := by
  unfold Op.opens
  rw [List.map_eq_nil_iff, List.filter_eq_nil_iff]
  intro e he
  rw [Option.isNone_iff_eq_none]
  exact Op.marked_seen_ne_none (List.snd_lt_of_mem_zipIdx he)

/-- The counted half of an operation retires where no piece is open (R113). -/
def State.retireRead (s : State) (id : Nat) : State :=
  match s.op id with
  | some y => if y.opens.isEmpty then s.retireCount y else s
  | none => s

theorem State.retireRead_eq (s : State) (id : Nat) : s.retireRead id = match s.op id with
    | some y => if y.opens = [] then s.retireCount y else s
    | none => s := by
  unfold State.retireRead
  cases s.op id with
  | none => rfl
  | some y => simp only [List.isEmpty_iff]

/-! ### The fine matrix unit (R110, R111, R115, R119, R122) -/

section
variable {r : State} {id : Nat} {kind : OpKind} {x : Op} {g : Group} {u : WorkUnit}

/-- Every operand sector is read, and the counter retires where none is left. -/
theorem exec_fmuOperandsConsumed_all (h : Live r id kind x g u) (hk : (kind = .mma || kind = .mmas) = true)
    (hc : r.clearOf x (x.piecesAt (x.pick [])) = true) : exec (.fmuOperandsConsumed id []) r =
      .next (((x.pick []).foldl (fun s i => s.fetchPiece id i)
        (r.tellFabric u x false (x.piecesAt (x.pick [])))).retireRead id) := by
  rw [exec_fmuOperandsConsumed, stepFmuOperandsConsumed, State.liveOp_of_live h hk]
  exact congrArg Host.Outcome.next (if_pos hc)

theorem State.finishMma_result (ha : x.acc = []) (hz : x.arg 3 = 1 ∨ g.tilesBad x.tiles = false) :
    r.finishMma g x = (r.modGroup x.group fun g => g.matrix x).opDone x.id :=
  if_pos (by simpa [ha] using hz)

theorem State.finishMma_zeros (hb : x.acc ≠ [] ∨ x.arg 3 ≠ 1 ∧ g.tilesBad x.tiles = true) :
    r.finishMma g x = ((r.modGroup x.group fun g => g.zeroTiles x.tiles).batchFault x 0 0x602 x.dst.num.toNat 0 0 0).opDone
      x.id :=
  if_neg (by simpa [or_iff_not_imp_left] using hb)

/-- A multiplication that is the oldest of its core and has read its operands is finished. -/
theorem exec_fmuOpComplete_mma (h : Live r id kind x g u) (hk : kind = .mma ∨ kind = .mmas)
    (hh : r.fmuHead g x = true) (ho : x.opens = []) : exec (.fmuOpComplete id []) r = .next (r.finishMma g x) := by
  have hlive := State.liveOp_of_live h (k := fun k => k = .mma || k = .mmas || k = .mdrain)
    (by rcases hk with rfl | rfl <;> rfl)
  have hnot : x.kind ≠ .mdrain := by rw [h.kind_eq]; rcases hk with rfl | rfl <;> decide
  rw [exec_fmuOpComplete, stepFmuOpComplete, hlive]
  simp only [hh, hnot, ho, Bool.not_true, Bool.false_eq_true, if_false, List.isEmpty_nil, if_true]

/-- The sectors of a drain that are open are written, of the cells as `g` holds them. -/
def State.drainAll (s : State) (g : Group) (x : Op) : State :=
  ((x.indexed (x.pick [])).foldl (fun s e =>
    s.engineWrite g.core e.2.loc (((g.drained x).drop e.2.off).take e.2.len)) s).modOp x.id fun _ => x.marked (x.pick [])

/-- A drain of sound cells writes the rest of its sectors and is complete; Z zeroes its tile. -/
theorem State.drainWrites_sound (ha : x.acc = []) (hb : g.tilesBad x.tiles = false) :
    r.drainWrites g x (x.pick []) = ((if x.arg 1 = 1 then (r.drainAll g x).modGroup x.group fun g => g.zeroTiles x.tiles
      else r.drainAll g x).opDone x.id) := by
  have hopens : Op.opens { x with seen := (x.pick []).foldl (fun t i => Tbl.put t i []) x.seen } = [] := x.opens_marked
  have hacc : x.acc.isEmpty = true := List.isEmpty_iff.mpr ha
  unfold State.drainWrites
  simp only [hb, Bool.false_eq_true, if_false, hopens, List.isEmpty_nil, if_true, hacc, Bool.not_true, Bool.or_false,
    decide_eq_true_eq]
  rfl

/-- One of a tile with a cell in error writes zeros, zeroes its tile and reports MATRIX_DATA. -/
theorem State.drainWrites_bad (hb : g.tilesBad x.tiles = true) :
    r.drainWrites g x (x.pick []) =
      (((((r.modGroup x.group fun g => g.zeroTiles x.tiles).drainAll (g.zeroTiles x.tiles)
        { x with acc := x.acc.put 0 [1] }).modGroup x.group fun g => g.zeroTiles x.tiles).batchFault
          { x with acc := x.acc.put 0 [1] } 0 0x602 x.dst.num.toNat 0 0 0).opDone x.id) := by
  have hopens : Op.opens { x with acc := x.acc.put 0 [1], seen := (x.pick []).foldl (fun t i => Tbl.put t i []) x.seen } = [] :=
    Op.opens_marked { x with acc := x.acc.put 0 [1] }
  have hacc : (x.acc.put 0 [1]).isEmpty = false := List.isEmpty_eq_false_iff.mpr (Tbl.put_ne_nil _ _ _)
  unfold State.drainWrites
  simp only [hb, if_true, hopens, List.isEmpty_nil, hacc, Bool.not_false, Bool.or_true, Bool.false_eq_true, if_false]
  rfl

theorem exec_fmuOpComplete_mdrain (h : Live r id .mdrain x g u) (hh : r.fmuHead g x = true)
    (hc : r.clearOf x (x.piecesAt (x.pick [])) = true) : exec (.fmuOpComplete id []) r =
      .next ((r.tellFabric u x false (x.piecesAt (x.pick []))).drainWrites g x (x.pick [])) := by
  have hlive := State.liveOp_of_live h (k := fun k => k = .mma || k = .mmas || k = .mdrain) rfl
  rw [exec_fmuOpComplete, stepFmuOpComplete, hlive]
  simp only [hh, hc, h.kind_eq, Bool.not_true, Bool.false_eq_true, if_false, if_true]

end

/-! ### The ternary array (R132 to R137, R140, R143 to R146) -/

section
variable {s : State} {id : Nat} {kind : OpKind} {x : Op} {g : Group} {u : WorkUnit}

/-- Every source sector is read, and the counter retires where none is left. -/
theorem exec_taOperandsConsumed_all (h : Live s id kind x g u) (hk : isTa kind = true)
    (hc : s.clearOf x (x.piecesAt (x.readOnly (x.pick []))) = true)
    (hn : s.notTurning (x.piecesAt (x.readOnly (x.pick []))) = true) : exec (.taOperandsConsumed id []) s =
      .next (((x.readOnly (x.pick [])).foldl (fun s i => s.taFetch id i)
        (s.tellFabric u x false (x.piecesAt (x.readOnly (x.pick []))))).retireRead id) := by
  rw [exec_taOperandsConsumed, stepTaOperandsConsumed, State.liveOp_of_live h hk]
  exact congrArg Host.Outcome.next (if_pos (Bool.and_eq_true_iff.mpr ⟨hc, hn⟩))

/-- A TMAC that nothing delays starts, and takes its effect. -/
theorem exec_taOpStart_tmac (h : Live s id .tmac x g u) (ha : x.arg 2 ≠ 1) (hd : (s.taBefore g x).any x.delays = false)
    (ho : x.opens = []) : exec (.taOpStart id) s =
      .next ((s.modOp id fun y => { y with args := y.args.set 2 1 }).runTmac g x) := by
  rw [exec_taOpStart, stepTaOpStart, State.liveOp_of_live h rfl]
  simp only [ha, hd, h.kind_eq, ho, List.isEmpty_nil, decide_true, decide_false, Bool.not_true, Bool.or_false, Bool.and_false,
    Bool.false_eq_true, if_false, if_true]

/-- A drain or a TZERO that nothing delays starts. -/
theorem exec_taOpStart_other (h : Live s id kind x g u) (hk : kind = .tdrain ∨ kind = .tzero) (ha : x.arg 2 ≠ 1)
    (hd : (s.taBefore g x).any x.delays = false) : exec (.taOpStart id) s =
      .next (s.modOp id fun y => { y with args := y.args.set 2 1 }) := by
  have hlive := State.liveOp_of_live h (k := fun k => k = .tmac || k = .tdrain || k = .tzero)
    (by rcases hk with rfl | rfl <;> rfl)
  have hnot : x.kind ≠ .tmac := by rw [h.kind_eq]; rcases hk with rfl | rfl <;> decide
  rw [exec_taOpStart, stepTaOpStart, hlive]
  simp only [ha, hd, hnot, decide_false, Bool.false_and, Bool.or_self, Bool.false_eq_true, if_false]

theorem State.taReady_of_live (h : Live s id kind x g u) (ha : x.arg 2 = 1)
    (hp : (s.taBefore g x).any x.precedes = false) : s.taReady id kind = some (x, g) := by
  rw [State.taReady, State.liveOp_of_live h (decide_eq_true rfl)]
  simp only [ha, hp, decide_true, Bool.not_false, Bool.and_self, if_true]

theorem exec_twldComplete_ready (h : s.taReady id .twld = some (x, g)) (ho : x.opens = []) :
    exec (.twldComplete id) s = .next ((s.loadPlane x).opDone id) := by
  rw [exec_twldComplete, stepTwldComplete, h]
  simp only [ho, List.isEmpty_nil, if_true]

theorem exec_tmacComplete_ready (h : s.taReady id .tmac = some (x, g)) :
    exec (.tmacComplete id) s = .next (s.opDone id) := by
  rw [exec_tmacComplete, stepTmacComplete, h]

theorem exec_tzeroComplete_plane (h : s.taReady id .tzero = some (x, g)) (hc : x.code = 1) :
    exec (.tzeroComplete id) s = .next ((s.modGroup x.group fun g => g.setPlane (x.arg 1) []).opDone id) := by
  rw [exec_tzeroComplete, stepTzeroComplete, h]
  simp only [hc, if_true]

theorem exec_tzeroComplete_sums (h : s.taReady id .tzero = some (x, g)) (hc : x.code ≠ 1) :
    exec (.tzeroComplete id) s = .next ((s.modGroup x.group fun g =>
      { g with tacc := g.tacc.filter fun e => e.1 / 16384 != x.dst.num.toNat,
               taccErr := g.taccErr.filter fun i => i / 16384 != x.dst.num.toNat }).opDone id) := by
  rw [exec_tzeroComplete, stepTzeroComplete, h]
  simp only [hc, if_false]

/-- The destination sectors of a drain that are still to be written. -/
def Op.destinations (x : Op) : List Nat :=
  (x.pick []).filter fun i => match x.pieces[i]? with | some p => p.lane = 0 | none => false

/-- A drain `y` writes the sectors `l`, and with its last it is complete; those of an F32 destination that it met in error,
and a row of its sums in error, are kept for its report. -/
def State.drainPart (s : State) (g : Group) (id : Nat) (y : Op) (l : List Nat) (last : Bool) : State :=
  let hit := l.filter fun i => match y.pieces[i]? with | some p => y.code = 0 && s.badAt p.loc p.len | none => false
  let z := { y.marked l with acc := hit.foldl (fun t i => Tbl.put t i [1]) (y.withRow g).acc }
  let t := ((y.piecesAt l).foldl (fun t p => t.drainSector g y (s.drainErr g y) p) s).modOp id fun _ => z
  if last then t.endDrain z else t

/-- The rest of a drain's sectors are written in one step, after the scales that are left have been read. -/
theorem exec_tdrainComplete_all (h : Live s id .tdrain x g u) (ha : x.arg 2 = 1)
    (hp : (s.taBefore g x).any x.precedes = false)
    (hc : s.clearOf x (x.piecesAt (x.destinations ++ x.readOnly (x.pick []))) = true)
    (hd : s.drainClear g x (x.piecesAt x.destinations) = true) {v : State}
    (hv : (s.tellFabric u x false (x.piecesAt x.destinations)).drainScales x = v) :
    exec (.tdrainComplete id []) s = .next (match v.op id with
      | none => v
      | some y => v.drainPart g id y x.destinations true) := by
  have hlast : x.destinations.all x.destinations.contains = true := by simp
  have hgo : (decide (x.arg 2 = 0) || !s.clearOf x (x.piecesAt (x.destinations ++ x.readOnly (x.pick []))) ||
      !s.drainClear g x (x.piecesAt x.destinations) ||
      (x.destinations.all x.destinations.contains && (s.taBefore g x).any x.precedes)) = false := by
    simp [ha, hc, hd, hp]
  have hrun : exec (.tdrainComplete id []) s = .next (match v.op id with
      | none => v
      | some y => v.drainPart g id y x.destinations (x.destinations.all x.destinations.contains)) := by
    rw [exec_tdrainComplete, stepTdrainComplete, State.liveOp_of_live h rfl, ← hv]
    exact congrArg Host.Outcome.next (if_neg (ne_true_of_eq_false hgo))
  rw [hrun, hlast]

end

/-! ### The statement -/

/-- Settles O51: each event finds its operation in the table and takes the branch that the hypotheses choose; where every
piece that is open is performed, none is left open. -/
theorem engineOperationsComplete : Obligations.EngineOperationsComplete := by
  refine ⟨fun r id x g u => ⟨fun h => ?mma, fun h hh hc hs => ?mdrain⟩, fun s id x g u kind => ?ternary⟩
  case mma =>
    obtain ⟨kind, hk, h⟩ : ∃ kind, (kind = .mma ∨ kind = .mmas) ∧ Live r id kind x g u :=
      h.elim (fun h => ⟨_, .inl rfl, h⟩) fun h => ⟨_, .inr rfl, h⟩
    have hid := h.id_eq
    refine ⟨fun hc => ?_, fun hh ho ha hz => ?_, fun hh ho hb => ?_⟩
    · exact (exec_fmuOperandsConsumed_all h (by simpa using hk) hc).trans
        (congrArg Host.Outcome.next (State.retireRead_eq _ id))
    · rw [exec_fmuOpComplete_mma h hk hh ho, State.finishMma_result ha hz, hid]
    · rw [exec_fmuOpComplete_mma h hk hh ho, State.finishMma_zeros hb, hid]
  case mdrain =>
    have hid := h.id_eq
    subst hid
    refine ⟨fun ha hb => ?_, fun hb => ?_⟩
    · rw [exec_fmuOpComplete_mdrain h hh hc, State.drainWrites_sound ha hb, State.drainAll, Op.marked, hs]
    · rw [exec_fmuOpComplete_mdrain h hh hc, State.drainWrites_bad hb, State.drainAll, Op.marked]
      simp only [hs]
  case ternary =>
    refine ⟨fun hk h hc hn => ?_, fun h ha hd => ⟨?_, ?_⟩, fun h ha hp ho => ?_, fun h ha hp => ?_, fun h ha hp => ?_,
      fun h ha hp => ?_, fun h ha hp hc hd => ?_⟩
    · exact (exec_taOperandsConsumed_all h (by rcases hk with rfl | rfl <;> rfl) hc hn).trans
        (congrArg Host.Outcome.next (State.retireRead_eq _ id))
    · rintro rfl ho
      exact exec_taOpStart_tmac h ha hd ho
    · exact fun hk => exec_taOpStart_other h hk ha hd
    · exact exec_twldComplete_ready (State.taReady_of_live h ha hp) ho
    · exact exec_tmacComplete_ready (State.taReady_of_live h ha hp)
    · exact exec_tzeroComplete_plane (State.taReady_of_live h ha hp)
    · exact exec_tzeroComplete_sums (State.taReady_of_live h ha hp)
    · exact exec_tdrainComplete_all h ha hp hc hd rfl

end Sys2Proof.Machine
end

section
/-! PROOFS. TQNT (R148), and copies, writes of the weight store and multicast deliveries: how they issue (R150, R237 to R239,
R244) and what their events do (R131, R240 to R243, R246, R354, R355). -/

namespace Sys2Proof.Machine

open Sys2Proof

/-! ### TQNT (R148) -/

@[simp] theorem Num.isNan_negate (a : Machine.Num) : a.negate.isNan = a.isNan := by
  cases a <;> rfl

/-- The magnitude of a number is NaN where the number is. -/
theorem Num.isNan_magnitude (b : Machine.Num) : (if b.sign then b.negate else b).isNan = b.isNan := by
  split
  · exact Num.isNan_negate b
  · rfl

/-- Settles O13: each lane's trit, where the threshold is NaN exactly where B is. -/
theorem tqntQuantises : Obligations.TqntQuantises := by
  intro s o x h
  refine (laneResult_of_exec h.issuer ((exec_tqnt x s).trans (State.issue_go h))).congr fun l => ?_
  simp only [State.begin_fltOperand, quantTrit, Num.isNan_magnitude]
  rfl

/-! ### The issue of a copy (R237 to R239, R244) -/

theorem State.copyCheck_quiet (s : State) (o : Who) (x : EngOp) (gather : Bool) : Quiet s (s.copyCheck o x gather).1 := by
  unfold State.copyCheck
  dsimp only
  split
  · exact Quiet.refl s
  · split
    · exact Quiet.refl s
    · exact State.engineMap_quiet _ _ _ _

theorem Who.channel_lt (o : Who) : o.channel < 16 := by
  simp only [Who.channel]; omega

/-- The handle of the copy that a part issues next: the serial that follows the channel's last, and the channel. -/
def State.copyHandle (s : State) (o : Who) : Word :=
  ((s.channel (clusterOf o.g.core) o.channel).issued + 1) ++ BitVec.ofNat 4 o.channel

theorem State.copyHandle_toNat (s : State) (o : Who) : (s.copyHandle o).toNat =
    ((s.channel (clusterOf o.g.core) o.channel).issued.toNat + 1) % 2 ^ 28 * 16 + o.channel := by
  have hch : o.channel < 2 ^ 4 := o.channel_lt
  rw [State.copyHandle, BitVec.toNat_append, BitVec.toNat_ofNat, Nat.mod_eq_of_lt hch,
    ← Nat.shiftLeft_add_eq_or_of_lt hch, Nat.shiftLeft_eq, BitVec.toNat_add]
  rfl

@[simp] theorem State.begin_copyHandle (s : State) (o : Who) (i : Instr) : (s.begin o i).copyHandle o = s.copyHandle o := rfl

/-- An operation enters the table and its part goes on, with a word written to an S register of a wave whose registers are
otherwise those of the issuer. -/
theorem launches_writeS {s u : State} {o : Who} {i : Instr} {y : Op} {kind : OpKind} {P : Op → Prop} {d : Dst} {v : Nat}
    (hr : (u.waves.get o.pr.wave).map Wave.regfile = some o.w.regfile)
    (he : exec i s = .next (((u.writeS o d v).advance o.pr).settle)) (hm : y ∈ u.ops) (hp : P y) (hy : y.IssuedBy o kind)
    (hc : Counted s o i u.ops) : Launches s o i kind P (fun w => Wrote o.w w (sDst d) false 0 o.p.quads fun _ => v) := by
  obtain ⟨w, hw, hregs⟩ := Option.map_eq_some_iff.mp hr
  have hwrote : Wrote o.w (w.putS d.num.toNat false o.p.quads v) (sDst d) false 0 o.p.quads fun _ => v :=
    (wrote_dst w (sDst d) false 0 o.p.quads fun _ => v).of_regfile_before hregs
  refine launches_of he hm hp hy.kind hy.wave hy.part hy.all hy.pc hy.done ?_ (fun _ => hwrote.of_regfile) hc
  rw [State.writeS, State.modWave_wave _ hw]
  rfl

/-- What the issue of a copy does: an operation enters the table, and the handle is written. -/
theorem State.issueCopy_eq (s : State) (i : Instr) (o : Who) (x : EngOp) (gather scatter : Bool) (m : List Mapped) :
    ∃ u : State, s.issueCopy i o x gather scatter m = ((u.writeS o x.dst (s.copyHandle o).toNat).advance o.pr).settle ∧
      (u.waves.get o.pr.wave).map Wave.regfile = (s.waves.get o.pr.wave).map Wave.regfile ∧
      ∃ y : Op, u.ops = s.ops ++ [y] ∧ y.IssuedBy o .copy ∧ y.pieces = copyPieces o (copyDesc o x gather) scatter m ∧
        y.quads = o.p.quads ∧ y.ctr = lineCounter o.p (headOf i).csel ∧ y.id = s.fresh := by
  refine ⟨_, rfl, ?_, ?_⟩
  · simp only [apply_ite State.waves, State.recallLines_waves, ite_self, State.sendPieces_waves, State.addOp_regfile]
    rfl
  · simp only [apply_ite State.ops, State.recallLines_ops, ite_self, State.sendPieces_ops, State.addOp_ops]
    exact ⟨_, rfl, ⟨rfl, rfl, rfl, rfl, rfl, rfl⟩, rfl, rfl, rfl, rfl⟩

/-- A copy that passes its checks enters its channel. -/
theorem launches_issueCopy {s s' : State} {o : Who} {i : Instr} {x : EngOp} {gather scatter : Bool} {m : List Mapped}
    (h : Clear s o i []) (hc : s.copyCheck o x gather = (s', .ok m))
    (he : exec i s = .next ((s'.begin o i).issueCopy i o x gather scatter m)) :
    Launches s o i .copy (fun y => y.pieces = copyPieces o (copyDesc o x gather) scatter m)
      (fun w => Wrote o.w w (sDst x.dst) false 0 o.p.quads fun _ =>
        ((s'.channel (clusterOf o.g.core) o.channel).issued.toNat + 1) % 2 ^ 28 * 16 + o.channel) := by
  have hb : Entering s o (s'.begin o i) := .begun h ((s.copyCheck_quiet o x gather).of_answer hc)
  obtain ⟨u, hu, hregs, y, hops, hy, hpieces, hq, hctr, hid⟩ := (s'.begin o i).issueCopy_eq i o x gather scatter m
  have hmem : y ∈ u.ops := hops ▸ List.mem_append_right _ (List.mem_singleton_self y)
  rw [hu, State.begin_copyHandle] at he
  rw [← State.copyHandle_toNat]
  exact launches_writeS (hregs.trans hb.regs) he hmem hpieces hy fun n hn =>
    ⟨y, hmem, hy.wave, hctr.trans hn, hq, hy.done, hid ▸ hb.fresh⟩

/-! ### The issue of a write of the weight store (R150) -/

theorem State.mem_sendPieces_addOp (s : State) (o : Who) (y : Op) (r w : List Piece) :
    { y with start := s.time } ∈ ((s.addOp o y).sendPieces o y r w).ops := by
  rw [State.sendPieces_ops, State.addOp_ops]
  exact List.mem_append_right _ (List.mem_singleton_self _)

/-- A WSWRITE that passes its checks enters the table with a source and a destination sector for every 32 bytes. -/
theorem wswrite_launches {s s' : State} {o : Who} {x : EngOp} {m : List Mapped} (h : Clear s o (.wswrite x) [])
    (hbad : wsBad (wsArgs o x).1 (wsArgs o x).2.1 (wsArgs o x).2.2 = false) (hr : s.wsReaders (dieOf o.g.core) = false)
    (hm : s.engineMap o (pageRuns (wsArgs o x).2.1 (wsArgs o x).2.2) [] = (s', .ok m)) :
    Launches s o (.wswrite x) .wsWrite (fun y => y.pieces.length = 2 * ((wsArgs o x).2.2 / 32)) (Kept o) := by
  have hb : Entering s o (s'.begin o (.wswrite x)) := .begun h ((s.engineMap_quiet o _ _).of_answer hm)
  have he := (exec_wswrite x s).trans (State.issueWith_clear (s' := s') (a := m) h (by simp [hbad, hr, hm]))
  refine launches_of he (State.mem_sendPieces_addOp ..) ?pieces rfl rfl rfl rfl rfl rfl ?regs (fun _ => Kept.of_regfile)
    fun n hn => ⟨_, State.mem_sendPieces_addOp .., rfl, hn, rfl, rfl, hb.fresh⟩
  case pieces =>
    simp only [List.length_append, List.length_map, List.length_range]
    exact (Nat.two_mul _).symm
  case regs =>
    rw [State.sendPieces_waves, State.addOp_regfile]
    exact hb.regs

/-- Settles O32: the three copies are one issue; WSWRITE passes the two checks of its own and that of its pages. -/
theorem copiesIssue : Obligations.CopiesIssue := by
  intro s s' o x m
  refine ⟨⟨fun h hc => ?bcopy, fun h hc => ?gcopy, fun h hc => ?scopy⟩, wswrite_launches⟩
  case bcopy => exact launches_issueCopy h hc ((exec_bcopy x s).trans (State.issueWith_clear h hc))
  case gcopy => exact launches_issueCopy h hc ((exec_gcopy x s).trans (State.issueWith_clear h hc))
  case scopy => exact launches_issueCopy h hc ((exec_scopy x s).trans (State.issueWith_clear h hc))

/-! ### Copies as they perform (R237, R240 to R243) -/

/-- The destination sectors of a copy that are still to be written, by number. -/
def Op.unwritten (x : Op) : List Nat := (List.range (x.arg 0)).filter fun i => (x.seen.get (x.arg 0 + i)).isNone

/-- The source sectors that those writes still need. -/
def Op.unread (x : Op) : List Nat := x.sources (x.unwritten.filter fun i => (x.seen.get i).isNone)

section
variable {s : State} {id : Nat} {x : Op} {g : Group} {u : WorkUnit} (h : Live s id .copy x g u)
include h

/-- With nothing named, every sector that is left is read and written. -/
theorem exec_copyWritePerformed_all (ht : s.copyTurn g x = true) (hc : s.clearOf x (x.countPiece ++
      x.piecesAt (x.unread ++ x.unwritten ++ x.unwritten.map fun i => x.arg 0 + i)) = true) :
    exec (.copyWritePerformed id []) s = .next (x.unwritten.foldl (fun s i => s.copyWrite g u id i)
      (x.unread.foldl (fun s i => s.copyFetch id i) ((s.startCopy g x).tellFabric u x false
        (x.piecesAt (x.unread ++ x.unwritten.map fun i => x.arg 0 + i))))) := by
  rw [exec_copyWritePerformed, stepCopyWritePerformed, State.liveOp_of_live h rfl]
  exact congrArg Host.Outcome.next (if_pos (Bool.and_eq_true_iff.mpr ⟨ht, hc⟩))

/-- A copy whose writes are performed, at the head of its channel, counts down at its barrier or writes its stamp, and is
closed. -/
theorem exec_copyComplete_head (hh : s.copyHead g x = true)
    (hw : ∀ i, i < x.arg 0 → (x.seen.get (x.arg 0 + i)).isSome = true)
    (hc : s.clearOf x (x.countPiece ++ x.pieces.drop (2 * x.arg 0)) = true)
    (hr : x.pieces.drop (2 * x.arg 0) = [] ∨ s.releaseReady x = true)
    (hn : x.scope = 5 → ∀ p ∈ x.pieces.drop (2 * x.arg 0), s.snooping p = false) {t : State}
    (ht : (s.startCopy g x).tellFabric u x true (x.pieces.drop (2 * x.arg 0)) = t) :
    exec (.copyComplete id) s = .next ((if x.arg 1 = 0 then (if x.arg 6 = 0 then t else t.countDown x (x.arg 6))
      else if (x.seen.get (2 * x.arg 0)).isSome then t else t.writeStamp g x).closeCopy g x (copyFaults x)) := by
  have hall : ((List.range (x.arg 0)).all fun i => (x.seen.get (x.arg 0 + i)).isSome) = true := by simpa using hw
  have hready : ((x.pieces.drop (2 * x.arg 0)).isEmpty || s.releaseReady x) = true := by
    rwa [Bool.or_eq_true, List.isEmpty_iff]
  have hsnoop : (decide (x.scope = 5) && (x.pieces.drop (2 * x.arg 0)).any s.snooping) = false := by
    by_cases h5 : x.scope = 5
    · simpa [h5] using hn h5
    · simp [h5]
  subst ht
  rw [exec_copyComplete, stepCopyComplete, State.liveOp_of_live h rfl]
  exact congrArg Host.Outcome.next (if_pos (by rw [hh, hall, hc, hready, hsnoop]; rfl))

end

/-! ### Writes of the weight store (R131, R150) -/

/-- No byte of memory is in error. -/
def State.Sound (s : State) : Prop := s.mem.bad = []

namespace State.Sound

theorem badAt {s : State} (h : s.Sound) (l : Loc) (n : Nat) : s.badAt l n = false := by
  rw [State.badAt, show s.mem.bad = [] from h]
  rfl

theorem setBytes {s : State} (h : s.Sound) (l : Loc) (d : List Byte) : (s.setBytes l d).Sound := by
  unfold State.setBytes
  rw [show s.mem.bad = [] from h]
  cases l <;> exact h

theorem dropFixed {s : State} (h : s.Sound) (l : Loc) : (s.dropFixed l).Sound := by
  cases l <;> exact h

theorem resolveFixed {s : State} (h : s.Sound) (l : Loc) : (s.resolveFixed l).Sound := by
  unfold State.resolveFixed
  split
  · exact h
  · have hd := h.dropFixed l
    dsimp only
    rw [show (s.dropFixed l).mem.bad = [] from hd]
    exact hd.setBytes _ _

theorem readAt {s : State} (h : s.Sound) (l : Loc) (n : Nat) : (s.readAt l n).1.Sound :=
  List.foldlRecOn (motive := State.Sound) _ _ h fun _ ht _ _ => ht.resolveFixed _

end State.Sound

/-- An engine's read of memory without errors is a read of the bytes. -/
theorem State.engineRead_of_sound {s : State} {l : Loc} {n : Nat} (h : s.Sound) (hl : ∀ a, l ≠ .ctrl a) :
    s.engineRead l n = ((s.readAt l n).1, (s.readAt l n).2, false) := by
  unfold State.engineRead
  split
  · exact absurd rfl (hl _)
  · rw [h.badAt]
    rfl

/-- An engine's write of the weight store sets its bytes. -/
theorem State.engineWrite_ws (s : State) (core d a : Nat) (b : List Byte) :
    s.engineWrite core (.ws d a) b = s.setBytes (.ws d a) b := by
  have hsettle : s.settleFixed (.ws d a) b.length = s := List.foldl_fixed' (fun _ => rfl) _
  show (s.settleFixed (.ws d a) b.length).setBytes (.ws d a) b = _
  rw [hsettle]

/-- Two runs of steps that agree wherever an invariant of the second holds. -/
theorem foldl_congr_of_invariant {β : Type} {f g : State → β → State} {I : State → Prop} {l : List β}
    (hstep : ∀ t, I t → ∀ b ∈ l, f t b = g t b ∧ I (g t b)) {s : State} (hs : I s) : l.foldl f s = l.foldl g s := by
  induction l generalizing s with
  | nil => rfl
  | cons b r ih =>
    obtain ⟨hb, hI⟩ := hstep s hs b List.mem_cons_self
    rw [List.foldl_cons, List.foldl_cons, hb, ih (fun t ht c hc => hstep t ht c (List.mem_cons_of_mem b hc)) hI]

/-- One sector of a WSWRITE: its source's bytes are set at its place in the weight store. -/
def State.wsSector (s : State) (x : Op) (i : Nat) : State :=
  match x.pieces[i]?, x.pieces[x.arg 0 + i]? with
  | some p, some q => (s.readAt p.loc p.len).1.setBytes q.loc (s.readAt p.loc p.len).2
  | _, _ => s

theorem State.wsSector_of_some (s : State) {x : Op} {i : Nat} {p q : Piece} (hp : x.pieces[i]? = some p)
    (hq : x.pieces[x.arg 0 + i]? = some q) :
    s.wsSector x i = (s.readAt p.loc p.len).1.setBytes q.loc (s.readAt p.loc p.len).2 := by
  rw [State.wsSector, hp, hq]

theorem State.wsSector_of_none (s : State) {x : Op} {i : Nat}
    (hn : ∀ p q, x.pieces[i]? = some p → x.pieces[x.arg 0 + i]? = some q → False) : s.wsSector x i = s := by
  unfold State.wsSector
  split
  · next p q hp hq => exact (hn p q hp hq).elim
  · rfl

theorem State.Sound.wsSector {s : State} (h : s.Sound) (x : Op) (i : Nat) : (s.wsSector x i).Sound := by
  unfold State.wsSector
  split
  · exact (h.readAt _ _).setBytes _ _
  · exact h

theorem State.wsSector_ops (s : State) (x : Op) (i : Nat) : (s.wsSector x i).ops = s.ops := by
  unfold State.wsSector
  split
  · exact (same_setBytes _ _ _).ops.trans (State.readAt_quiet _ _ _).ops
  · rfl

/-- A WSWRITE whose sources are without errors writes its sectors and is complete. -/
theorem exec_wswriteComplete_sound {s : State} {id : Nat} {x : Op} {g : Group} {u : WorkUnit} (h : Live s id .wsWrite x g u)
    (hc : s.clearOf x x.pieces = true) (hs : s.Sound) (ha : x.acc = [])
    (hp : ∀ i p q, i < x.arg 0 → x.pieces[i]? = some p → x.pieces[x.arg 0 + i]? = some q →
      (∀ a, p.loc ≠ .ctrl a) ∧ ∃ d a, q.loc = .ws d a) :
    exec (.wswriteComplete id) s = .next (((List.range (x.arg 0)).foldl (fun s i => s.wsSector x i)
      (s.tellFabric u x false x.pieces)).opDone id) := by
  obtain ⟨hmem, -, htold⟩ := tellFabric_spec u x false x.pieces s
  have hsound : (s.tellFabric u x false x.pieces).Sound := by rw [State.Sound, hmem]; exact hs
  have hkeep := (State.foldl_keeps State.ops (fun s i => s.wsSector_ops x i) (List.range (x.arg 0))
    (s.tellFabric u x false x.pieces)).trans htold.ops
  have ⟨hop, _⟩ := h
  rw [exec_wswriteComplete, stepWswriteComplete, State.liveOp_of_live h rfl]
  refine congrArg Host.Outcome.next ((if_pos hc).trans ?_)
  dsimp only
  rw [foldl_congr_of_invariant (g := fun s i => s.wsSector x i) (I := State.Sound) (fun t ht i hi => ?sector) hsound]
  case sector =>
    refine ⟨?_, ht.wsSector x i⟩
    split
    · next p q hpi hqi =>
      obtain ⟨hctrl, d, a, hq⟩ := hp i p q (List.mem_range.mp hi) hpi hqi
      rw [State.engineRead_of_sound ht hctrl, State.wsSector_of_some t hpi hqi, hq]
      exact State.engineWrite_ws ..
    · next hnone => exact (State.wsSector_of_none t hnone).symm
  have hfound : ((List.range (x.arg 0)).foldl (fun s i => s.wsSector x i) (s.tellFabric u x false x.pieces)).op id =
      some x := by rw [State.op, hkeep]; exact hop
  rw [hfound]
  simp only [State.wsFault, ha, List.isEmpty_nil, if_true]

/-- The window of a bank has ended: the one part that waited for it waits for what it waited for before. -/
theorem exec_wsWindowEnd_single {s : State} {die bank : Nat} {pr : PartRef} {o : Who} (hb : s.windows bank = [])
    (hp : s.parts = [pr]) (hw : s.who pr = some o) (h19 : o.p.stall = 19) (hd : dieOf o.g.core = die)
    (ht : s.turnsFor o (fun _ => true) = false) : exec (.wsWindowEnd die bank) s =
      .next (s.modPart pr fun p => { p with stall := plainReason p }) := by
  have hfreed : (decide (o.p.stall = 19) && decide (dieOf o.g.core = die) && !s.turnsFor o fun _ => true) = true := by
    rw [decide_eq_true h19, decide_eq_true hd, ht]
    rfl
  rw [exec_wsWindowEnd, stepWsWindowEnd, hb, hp, List.foldl_cons, hw]
  exact congrArg Host.Outcome.next (if_pos hfreed)

/-! ### Deliveries of a multicast (R246, R354, R355) -/

/-- The open pieces of a multicast's delivery, numbered. -/
def Op.deliveries (x : Op) (own member : Nat) : List (Nat × Piece) :=
  x.indexed ((x.pick []).filter fun i => match x.pieces[i]? with
    | some p => p.goesTo own member
    | none => false)

/-- One piece of a delivery at its member: an MCST's bytes are written, an MRED's combined with those there, whose error is
a fault of the operation. -/
def State.castPiece (s : State) (g : Group) (u : WorkUnit) (x : Op) (member : Nat) (va : Dword) (p : Piece) : State :=
  if x.kind = .mcst then s.castWrite g u x p
  else match s.castReduce g u x p with
    | (s, true) => s.castFault x codeMemData 4 (member / 256) va 0
    | (s, false) => s

theorem State.castPiece_mcst {x : Op} (h : x.kind = .mcst) (s : State) (g : Group) (u : WorkUnit) (member : Nat) (va : Dword)
    (p : Piece) : s.castPiece g u x member va p = s.castWrite g u x p :=
  if_pos h

theorem State.castPiece_mred {x : Op} (h : x.kind = .mred) (s : State) (g : Group) (u : WorkUnit) (member : Nat) (va : Dword)
    (p : Piece) : s.castPiece g u x member va p = if (s.castReduce g u x p).2
      then (s.castReduce g u x p).1.castFault x codeMemData 4 (member / 256) va 0 else (s.castReduce g u x p).1 := by
  rw [State.castPiece, if_neg (by rw [h]; decide)]
  rcases s.castReduce g u x p with ⟨t, _ | _⟩ <;> rfl

/-- A delivery of the pieces `l` is over: it no longer drains its group, and its pieces are performed. -/
def State.drainCast (s : State) (id : Nat) (va : Dword) (l : List (Nat × Piece)) : State :=
  (s.modColl (collAddr va).1 fun c => { c with drain := c.drain - 1 }).modOp id fun y =>
    { y with seen := l.foldl (fun t d => Tbl.put t d.1 []) y.seen }

/-- With its last delivery a multicast is done, and one that releases has then released. -/
def State.closeCast (s : State) (g : Group) (x : Op) (id : Nat) : State :=
  match s.op id with
  | some y => if y.opens.isEmpty then (if x.carries then s.afterRelease g.core else s).opDone id else s
  | none => s

theorem State.closeCast_eq (s : State) (g : Group) (x : Op) (id : Nat) : s.closeCast g x id = match s.op id with
    | some y => if y.opens = [] then (if x.carries then s.afterRelease g.core else s).opDone id else s
    | none => s := by
  unfold State.closeCast
  cases s.op id with
  | none => rfl
  | some y => simp only [List.isEmpty_iff]

section
variable {s : State} {id member : Nat} {kind : OpKind} {x : Op} {g : Group} {u : WorkUnit} {e : Nat × Piece}
  {l : List (Nat × Piece)} (h : Live s id kind x g u) (hk : kind = .mcst ∨ kind = .mred)
  (hl : x.deliveries s.link.devid.toNat member = e :: l) (hc : s.clearOf x (e.2 :: l.map (·.2)) = true)
  (hr : x.releases = true → s.releaseReady x = true)
  (ha : ∀ d ∈ e :: l, s.admits g u x d.2 true = true ∧ s.ticketTurn g u x d.2 = true)
include h hk hl hc hr ha

/-- A delivery that nothing holds back is performed at its member, or lost away from this device. -/
theorem exec_mcstDeliveryPerformed_ready {lost : Bool} (hm : lost = true → member % 256 ≠ s.link.devid.toNat) :
    exec (.mcstDeliveryPerformed id member lost) s = .next (((if lost then
        s.castFault x codeLoss 0 (member / 256) e.2.va (BitVec.ofNat 32 (Config.fabricPort (member % 256)))
      else (e :: l).foldl (fun t d => (t.tellFabric u x x.carries [d.2]).castPiece g u x member e.2.va d.2) s).drainCast id
        e.2.va (e :: l)).closeCast g x id) := by
  have hlive := State.liveOp_of_live h (k := fun k => k = .mcst || k = .mred) (by rcases hk with rfl | rfl <;> rfl)
  have hgo : (lost && decide (member % 256 = s.link.devid.toNat) || !s.clearOf x ((e :: l).map fun d => d.2) ||
      x.releases && !s.releaseReady x || !((e :: l).all fun d => s.admits g u x d.2 true && s.ticketTurn g u x d.2)) =
      false := by
    have hlost : (lost && decide (member % 256 = s.link.devid.toNat)) = false := by
      cases lost with
      | true => simpa using hm rfl
      | false => rfl
    have hrel : (x.releases && !s.releaseReady x) = false := by
      cases hx : x.releases with
      | true => simp [hr hx]
      | false => rfl
    have hadm : ((e :: l).all fun d => s.admits g u x d.2 true && s.ticketTurn g u x d.2) = true :=
      List.all_eq_true.mpr fun d hd => Bool.and_eq_true_iff.mpr (ha d hd)
    rw [hlost, hrel, hadm, List.map_cons, hc]
    rfl
  rw [exec_mcstDeliveryPerformed, stepMcstDeliveryPerformed, hlive]
  refine congrArg Host.Outcome.next ?_
  dsimp only
  split
  · next hnil => exact absurd (hnil.symm.trans hl) (List.cons_ne_nil e l).symm
  · next i p r hcons =>
    obtain ⟨rfl, rfl⟩ := List.cons.inj (hcons.symm.trans hl)
    rw [hcons]
    exact if_neg (ne_true_of_eq_false hgo)

end

/-- Settles O50: each event finds its operation in the table, and its guard holds; the reads of a WSWRITE meet no error, and
the pieces of a delivery are those of an MCST or of an MRED. -/
theorem copiesAndDeliveriesPerform : Obligations.CopiesAndDeliveriesPerform := by
  refine ⟨fun s id x g u => ⟨?copyWrites, ?copyComplete, ?wswrite, ?window⟩,
    fun s id member x g u e l hl hc hr ha => ⟨fun h => ?mcst, fun h => ?mred, fun h hm => ?lost⟩⟩
  case copyWrites => exact exec_copyWritePerformed_all
  case copyComplete =>
    refine fun h hh hw hc hr hn => ⟨fun hb => ?_, fun hb hnew => ?_⟩
    · rw [exec_copyComplete_head h hh hw hc hr hn rfl, if_pos hb]
    · rw [exec_copyComplete_head h hh hw hc hr hn rfl, if_neg hb, if_neg (by simp [hnew])]
  case wswrite => exact exec_wswriteComplete_sound
  case window => exact fun _ _ _ _ => exec_wsWindowEnd_single
  case mcst =>
    rw [exec_mcstDeliveryPerformed_ready h (.inl rfl) hl hc hr ha (lost := false) nofun, State.closeCast_eq]
    simp only [State.castPiece_mcst h.kind_eq]
    rfl
  case mred =>
    rw [exec_mcstDeliveryPerformed_ready h (.inr rfl) hl hc hr ha (lost := false) nofun, State.closeCast_eq]
    simp only [State.castPiece_mred h.kind_eq]
    rfl
  case lost =>
    obtain ⟨kind, hk, h⟩ : ∃ kind, (kind = .mcst ∨ kind = .mred) ∧ Live s id kind x g u :=
      h.elim (fun h => ⟨_, .inl rfl, h⟩) fun h => ⟨_, .inr rfl, h⟩
    rw [exec_mcstDeliveryPerformed_ready h hk hl hc hr ha (lost := true) fun _ => hm, State.closeCast_eq]
    rfl

end Sys2Proof.Machine
end

section
/-! PROOFS. EDGE (R172); the sampler, raster, image and ray instructions as they issue (R157, R163, R170, R171, R173 to R177),
and the events of the operations that they put into the table (R155, R167). -/

namespace Sys2Proof.Machine

open Sys2Proof

/-! ### EDGE (R156, R172) -/

/-- The edges that pass at a pixel, edge e in bit e. -/
def Edges.passes (t : Edges) (px py : Nat) : Nat :=
  let pass := fun e => if t.pass e px py then 2 ^ e else 0
  pass 0 + pass 1 + pass 2

theorem Edges.passes_lt (t : Edges) (px py : Nat) : t.passes px py < 8 := by
  have hle (e : Nat) : (if t.pass e px py then 2 ^ e else 0) ≤ 2 ^ e := by split <;> simp
  have h0 := hle 0
  have h1 := hle 1
  have h2 := hle 2
  simp only [Edges.passes]
  omega

/-- EDGE's word at a position: the passes of its pixel, and covered above them. -/
theorem Edges.bits_eq (t : Edges) (pos : Nat) : t.bits pos = t.passes (pixelOf pos).1 (pixelOf pos).2 +
    8 * if t.covers (pixelOf pos).1 (pixelOf pos).2 then 1 else 0 := by
  simp only [mul_ite, Nat.mul_one, Nat.mul_zero]
  rfl

/-- Bit 3 of EDGE's word is covered. -/
theorem Edges.bits_div_eight (t : Edges) (pos : Nat) :
    t.bits pos / 8 = if t.covers (pixelOf pos).1 (pixelOf pos).2 then 1 else 0 := by
  have := t.passes_lt (pixelOf pos).1 (pixelOf pos).2
  rw [Edges.bits_eq]
  omega

/-- Settles O14: the word that a V destination receives is the passes and covered above them, and a P destination receives
what stands above the passes. -/
theorem edgeWritesCoverage : Obligations.EdgeWritesCoverage := by
  intro s o x h
  refine (laneResult_of_exec h.issuer ((exec_edge x s).trans (State.issue_go h))).congr fun l => ?_
  simp only [State.begin_ctlOf, Edges.bits_div_eight]
  split
  · rfl
  · exact Edges.bits_eq ..

/-! ### Operations of the sampler as they issue (R157, R163, R170, R171) -/

/-- What is quiet keeps a state on the way to its operation's entry. -/
theorem Entering.of_quiet {s u v : State} {o : Who} (h : Entering s o u) (hq : Quiet u v) : Entering s o v :=
  ⟨(hq.regfile _).trans h.regs, by rw [hq.fresh]; exact h.fresh⟩

section
variable {s : State} {o : Who} {i : Instr} {x : EngOp}

/-- A sampler instruction puts one operation into the table, with words of each participating lane; with no such lane it is
complete at once. -/
def Samples (s : State) (o : Who) (i : Instr) (x : EngOp) (code span : Nat) (words : Nat → List Word) : Prop :=
  (o.lanes x.h = 0 → exec i s = .next ((s.begin o i).finish o i)) ∧
  (o.lanes x.h ≠ 0 → Launches s o i .sample (fun y => y.code = code ∧ y.dst = x.dst ∧ y.span = span ∧
    y.mask = o.lanes x.h ∧ y.lanes = (maskBits (o.lanes x.h)).map fun l => (l, words l)) (Kept o))

theorem samples_issueSample {code span : Nat} {args : List Word} {words : Nat → List Word} (h : Clear s o i [])
    (he : exec i s = .next ((s.begin o i).issueSample i o x code span args words)) (hi : (headOf i).csel = x.h.csel) :
    Samples s o i x code span words := by
  have hb : Entering s o (s.begin o i) := .begun h (Quiet.refl s)
  refine ⟨fun hm => ?none, fun hm => ?some⟩
  case none => rw [he, State.issueSample, if_pos hm]
  case some =>
    rw [State.issueSample, if_neg hm] at he
    exact launchEngine_of hb.fresh1.regs hb.fresh he ⟨rfl, rfl, rfl, rfl, rfl⟩ rfl rfl rfl rfl rfl rfl rfl (by rw [hi]; rfl)

/-- SMP, SMPL, SMPG, GATH4 and TXLD with legal descriptors; GATH4 has no H, and TXLD no sampler descriptor. -/
theorem samples_sampleInstr {code : Nat} {words : Who → Nat → List Word} (h : Clear s o i [])
    (he : exec i s = sampleInstr i x code words s) (hi : (headOf i).csel = x.h.csel)
    (ht : texBad (texWords o x.b) = false) (hs : (code != 0xA4 && smpBad (o.sreg x.c.num.toNat)) = false) :
    Samples s o i x code (if code != 0xA3 && WF.modH x then 2 else 4) (words o) :=
  samples_issueSample h (he.trans (State.issueIf_go h (by rw [ht, hs]; rfl))) hi

/-- LDEC of a table at a multiple of 64; its position is that of B before the issue. -/
theorem ldec_samples (h : Clear s o (.ldec x) []) (ha : (o.spair x.c.num.toNat).toNat % 64 = 0) :
    Samples s o (.ldec x) x 0xA5 1
      fun l => runWords o x.a 4 l ++ [BitVec.ofNat 32 (s.operand o (.int 32) false x.b l)] := by
  have he := (exec_ldec x s).trans (State.issueIf_go h (by rw [ha]; rfl))
  simp only [State.begin_ctlOf] at he
  exact samples_issueSample h he rfl

/-! ### RTRACE, IMGST, EMIT and TILEQ as they issue (R173 to R176) -/

theorem exec_rtrace_noLane (h : Clear s o (.rtrace x) []) (ha : (o.spair x.b.num.toNat).toNat % 64 = 0)
    (hm : o.lanes x.h = 0) : exec (.rtrace x) s = .next ((s.begin o (.rtrace x)).finish o (.rtrace x)) := by
  rw [exec_rtrace, execRtrace, State.issueIf_go h (by rw [ha]; rfl)]
  exact congrArg Host.Outcome.next (if_pos hm)

theorem rtrace_launches (h : Clear s o (.rtrace x) []) (ha : (o.spair x.b.num.toNat).toNat % 64 = 0)
    (hm : o.lanes x.h ≠ 0) : Launches s o (.rtrace x) .trace (fun z => z.mask = o.lanes x.h ∧
      z.lanes = (maskBits (o.lanes x.h)).map fun l => (l, runWords o x.a 8 l)) (Kept o) := by
  have hb : Entering s o (s.begin o (.rtrace x)) := .begun h (Quiet.refl s)
  have he := (exec_rtrace x s).trans (State.issueIf_go h (by rw [ha]; rfl))
  rw [if_neg hm] at he
  exact launchEngine_of hb.fresh1.regs hb.fresh he ⟨rfl, rfl⟩ rfl rfl rfl rfl rfl rfl rfl rfl

/-- The pieces of an image store: the texels that its lanes store, where they lie. -/
def imgPieces (o : Who) (x : EngOp) (m : List Mapped) : List Piece :=
  (imgTexels o x).map fun t =>
    { lane := t.1, off := 0, va := t.2.1, loc := mapAt m t.2.1, len := t.2.2.length, data := t.2.2, hs := false }

theorem imgst_launches {s' : State} {m : List Mapped} (h : Clear s o (.imgst x) [])
    (ht : texBad (texWords o x.c) = false) (hf : texFmt (texWords o x.c) ≠ 0) (hl : imgTexels o x ≠ [])
    (hm : s.engineMap o [] ((imgTexels o x).map fun t =>
      { lane := some t.1, off := 0, va := t.2.1, len := t.2.2.length }) = (s', .ok m)) :
    Launches s o (.imgst x) .image (fun z => z.pieces = lastWriters (imgPieces o x m)) (Kept o) := by
  have hb : Entering s o (s'.begin o (.imgst x)) := .begun h ((s.engineMap_quiet o _ _).of_answer hm)
  have he := (exec_imgst x s).trans (State.issueWith_clear (s' := s') (a := m) h (by simp [ht, hf, hm]))
  rw [if_neg (by simpa using hl)] at he
  exact launchEngine_of hb.fresh1.regs hb.fresh he rfl rfl rfl rfl rfl rfl rfl rfl rfl

/-- The wave's EMIT count goes up, and a cut wave's EMIT is a decision (R312). -/
def State.countEmit (s : State) (o : Who) : State :=
  let s := s.modWave o.pr.wave fun w => { w with seqs := { w.seqs with emit := w.seqs.emit + 1 } }
  if 1 < o.w.parts.length then s.decide o 8 0 o.pr.part o.p.pc.toNat o.p.quads.toNat o.w.seqs.emit.toNat else s

theorem State.countEmit_quiet (s : State) (o : Who) : Quiet s (s.countEmit o) := by
  unfold State.countEmit
  refine (Quiet.modWave s o.pr.wave ?_).trans (Quiet.ite (State.decide_quiet ..) (Quiet.refl _))
  exact fun w => rfl

theorem emitCheck_of_geometry (hk : o.u.kindCode = 1) (hd : o.w.parts.length ≤ 1 ∨ s.mayDecide o 8 = true) :
    emitCheck o s = (s, .ok ()) := by
  have hgo : (decide (1 < o.w.parts.length) && !s.mayDecide o 8) = false := by
    rcases hd with hd | hd <;> simp [hd]
  rw [emitCheck, hk, hgo]
  rfl

theorem emit_launches (h : Clear s o (.emit x) []) (hk : o.u.kindCode = 1)
    (hd : o.w.parts.length ≤ 1 ∨ s.mayDecide o 8 = true) (hm : o.lanes x.h ≠ 0) :
    Launches s o (.emit x) .emit (fun z => z.mask = o.lanes x.h ∧
      z.args = [if x.mod.getLsbD 0 then 1 else 0, o.w.seqs.emit]) (Kept o) := by
  have hb : Entering s o ((s.begin o (.emit x)).countEmit o) :=
    (Entering.begun h (Quiet.refl s)).of_quiet (State.countEmit_quiet ..)
  have he := (exec_emit x s).trans (State.issueWith_clear h (emitCheck_of_geometry hk hd))
  rw [if_neg hm] at he
  exact launchEngine_of hb.fresh1.regs hb.fresh he ⟨rfl, rfl⟩ rfl rfl rfl rfl rfl rfl rfl rfl

theorem exec_tileq_end (h : Clear s o (.tileq x) []) (ht : tileqTrap o s = none)
    (hw : o.w.tile.map (·.words) = some endRec.words) :
    exec (.tileq x) s = .next ((s.begin o (.tileq x)).landRec o x endRec) := by
  rw [exec_tileq, execTileq, State.issueIf_go h ht, if_pos hw]

theorem exec_tileq_waits (h : Clear s o (.tileq x) []) (ht : tileqTrap o s = none)
    (hw : o.w.tile.map (·.words) ≠ some endRec.words) :
    exec (.tileq x) s = .next (((s.begin o (.tileq x)).retireTile o).holdOn o.pr (.tileq x) 13) := by
  rw [exec_tileq, execTileq, State.issueIf_go h ht, if_neg hw]

end

/-- Settles O35: the six sampler instructions are one issue; each other instruction passes its check and takes the branch
that the hypotheses choose. -/
theorem graphicsInstructionsComplete : Obligations.GraphicsInstructionsComplete := by
  refine ⟨fun s o x => ⟨?smp, ?smpl, ?smpg, ?gath4, ?txld, ldec_samples⟩,
    fun s s' o x y m => ⟨fun h ha => ⟨exec_rtrace_noLane h ha, rtrace_launches h ha⟩, imgst_launches, emit_launches,
      fun h ht => ⟨exec_tileq_end h ht, exec_tileq_waits h ht⟩, fun h hc => ?rninv, fun h hc => ?rninvAll⟩⟩
  case smp => exact fun h ⟨ht, hs⟩ => samples_sampleInstr h (exec_smp x s) rfl ht (by rw [hs]; rfl)
  case smpl => exact fun h ⟨ht, hs⟩ => samples_sampleInstr h (exec_smpl x s) rfl ht (by rw [hs]; rfl)
  case smpg => exact fun h ⟨ht, hs⟩ => samples_sampleInstr h (exec_smpg x s) rfl ht (by rw [hs]; rfl)
  case gath4 => exact fun h ⟨ht, hs⟩ => samples_sampleInstr h (exec_gath4 x s) rfl ht (by rw [hs]; rfl)
  case txld => exact fun h ht => samples_sampleInstr h (exec_txld x s) rfl ht rfl
  case rninv => exact (exec_rninv y s).trans (State.issueWith_clear h hc)
  case rninvAll => exact (exec_rninvAll y s).trans (State.issueWith_clear h hc)

/-! ### Samples, rays, images and triangles as they complete (R155, R167, R171, R174 to R176) -/

section
variable {s : State} {id : Nat} {x : Op} {g : Group} {u : WorkUnit}

theorem exec_samplerComplete_all (h : Live s id .sample x g u)
    (hf : s.portWaits (clusterOf g.core) u.netClass 2 = false) : exec (.samplerComplete id []) s =
      .next ((x.lanesLeft.foldl (fun s lane => s.finishLane g u id lane) s).closeUnit id codeSampler) := by
  rw [exec_samplerComplete, stepSamplerComplete, State.liveOp_of_live h rfl]
  exact congrArg Host.Outcome.next (if_neg (ne_true_of_eq_false hf))

theorem exec_rtraceComplete_all (h : Live s id .trace x g u)
    (hf : s.portWaits (clusterOf g.core) u.netClass 2 = false) : exec (.rtraceComplete id []) s =
      .next ((x.lanesLeft.foldl (fun s lane => s.traceLane g u id lane) s).closeUnit id codeRay) := by
  rw [exec_rtraceComplete, stepRtraceComplete, State.liveOp_of_live h rfl]
  exact congrArg Host.Outcome.next (if_neg (ne_true_of_eq_false hf))

/-- Texels of an image store are written, in the core's texel cache too (R169). -/
def State.storeTexels (s : State) (g : Group) (u : WorkUnit) (x : Op) (l : List Nat) : State :=
  ((x.piecesAt l).foldl (fun s p =>
    ((s.tellFabric u x false [p]).engineWrite g.core p.loc p.data).texUpdate g.core p) s).modOp x.id
      fun y => { y with seen := l.foldl (fun t i => Tbl.put t i []) y.seen }

/-- An image store with no texel left is complete. -/
def State.closeImage (s : State) (id : Nat) : State :=
  match s.op id with
  | some y => if y.opens = [] then s.opDone id else s
  | none => s

theorem exec_imgstComplete_all (h : Live s id .image x g u) (hc : s.clearOf x (x.piecesAt (x.pick [])) = true)
    (hi : s.imageClear g u x (x.piecesAt (x.pick [])) = true) : exec (.imgstComplete id []) s =
      .next ((s.storeTexels g u x (x.pick [])).closeImage id) := by
  simp only [State.closeImage, ← List.isEmpty_iff]
  rw [exec_imgstComplete, stepImgstComplete, State.liveOp_of_live h rfl, State.storeTexels, h.id_eq]
  exact congrArg Host.Outcome.next (if_pos (Bool.and_eq_true_iff.mpr ⟨hc, hi⟩))

theorem exec_rasterAccept_read {w : Wave} {p : WorkUnit} {tw th : Nat} (h : Live s id .emit x g u)
    (hw : s.waves.get x.wave = some w) (hd : s.drawOf u = some (p, tw, th)) (hp : p.words ≠ []) :
    exec (.rasterAccept id) s =
      .next (((maskBits x.mask).foldl (fun s lane => s.emitLane g w u.draw p tw th x lane) s).opDone id) := by
  rw [exec_rasterAccept, stepRasterAccept, State.liveOp_of_live h rfl]
  simp only [hw, hd, hp, decide_false, Bool.false_and, Bool.false_eq_true, if_false]

end

/-- Settles O52: each event finds its operation in the table and passes its guard; with nothing named it takes every lane
or texel that is left. -/
theorem graphicsOperationsComplete : Obligations.GraphicsOperationsComplete := by
  intro s id x g u
  refine ⟨exec_samplerComplete_all, exec_rtraceComplete_all, fun h hc hi => ?image,
    fun h w p tw th => exec_rasterAccept_read h⟩
  case image =>
    obtain rfl := h.id_eq
    exact exec_imgstComplete_all h hc hi

end Sys2Proof.Machine
end

section
/-! PROOFS. The homes of device memory and the turning windows of the weight store (R130, R181), and the waits that nothing
holds (R203, R224, R258, R271, R273, R274). -/

namespace Sys2Proof.Machine

open Sys2Proof

/-! ### Homes of device memory (R181) -/

/-- Numbers of one granule of 2^k agree in the fields above bit k. -/
theorem field_eq_of_granule {a b k lo : Nat} (hi : Nat) (hk : k ≤ lo) (h : a / 2 ^ k = b / 2 ^ k) :
    field a hi lo = field b hi lo := by
  have hdiv (v : Nat) : v / 2 ^ lo = v / 2 ^ k / 2 ^ (lo - k) := by
    rw [Nat.div_div_eq_div_mul, ← Nat.pow_add, Nat.add_sub_cancel' hk]
  rw [field, field, hdiv a, hdiv b, h]

/-- An aligned 512-byte granule has one channel. -/
theorem channel_eq_of_granule {a b : Nat} (h : a / 512 = b / 512) : channel a = channel b := by
  have hfield (hi lo : Nat) (hlo : 9 ≤ lo) : field a hi lo = field b hi lo := field_eq_of_granule hi hlo h
  simp only [channel, hfield _ 9 (by decide), hfield _ 15 (by decide), hfield _ 21 (by decide), hfield _ 27 (by decide),
    hfield _ 33 (by decide)]

theorem channel_lt (a : Nat) : channel a < 64 := by
  have hfield (hi lo : Nat) (h : hi + 1 - lo = 6) : field a hi lo < 2 ^ 6 := h ▸ Nat.mod_lt _ (Nat.two_pow_pos _)
  exact Nat.xor_lt_two_pow (Nat.xor_lt_two_pow (Nat.xor_lt_two_pow (Nat.xor_lt_two_pow (hfield 14 9 rfl) (hfield 20 15 rfl))
    (hfield 26 21 rfl)) (hfield 32 27 rfl)) (hfield 38 33 rfl)

/-- The slice is the channel with bit 8 of the offset below it. -/
theorem homeSlice_eq (a : Nat) : homeSlice a = 2 * channel a + a / 256 % 2 := rfl

/-- An aligned 256-byte granule has one home slice. -/
theorem homeSlice_eq_of_granule {a b : Nat} (h : a / 256 = b / 256) : homeSlice a = homeSlice b := by
  rw [homeSlice_eq, homeSlice_eq, h, channel_eq_of_granule (a := a) (b := b) (by omega)]

theorem homeSlice_lt (a : Nat) : homeSlice a < 128 := by
  have := channel_lt a
  rw [homeSlice_eq]
  omega

/-! ### Turning windows of the weight store (R130) -/

/-- Long enough after a wrap, a bank turns in the first 1,200 ns of its phase. -/
theorem State.turning_ws_iff {s : State} (die a : Nat) (hw : s.wrapped = false ∨ 1200 ≤ s.time.toNat) :
    s.turning (.ws die a) = true ↔ bankPhase s.time.toNat (wsBank a) < 1200 := by
  have hafter : (s.wrapped && bankPhase (2 ^ 48) (wsBank a) < 1200 && bankPhase (2 ^ 48) (wsBank a) + s.time.toNat < 1200) =
      false := by
    rcases hw with hw | hw
    · rw [hw]; rfl
    · rw [decide_eq_false (p := bankPhase (2 ^ 48) (wsBank a) + s.time.toNat < 1200) (by omega), Bool.and_false]
  simp only [State.turning, State.windows, hafter, Bool.false_eq_true, if_false, List.append_nil, bne_iff_ne, ne_eq]
  split <;> simp [*]

/-- The phase of a bank, as R130's formula. -/
theorem bankPhase_eq (t : Nat) {b : Nat} (hb : b < 64) : (bankPhase t b : Int) = ((t : Int) - 1000 * (b : Nat)) % 64000 := by
  unfold bankPhase
  omega

/-- Windows last 1,200 ns and begin 1,000 ns apart: of three banks one is outside its own. -/
theorem not_three_bankPhase {t a b c : Nat} (ha : a < 64) (hb : b < 64) (hc : c < 64) (hab : a ≠ b) (hbc : b ≠ c)
    (hac : a ≠ c) : ¬(bankPhase t a < 1200 ∧ bankPhase t b < 1200 ∧ bankPhase t c < 1200) := by
  unfold bankPhase
  omega

/-- Settles O15: the channel's fields start at bit 9 and the slice adds bit 8; the windows are phases of the banks. -/
theorem homesAndWindows : Obligations.HomesAndWindows := by
  refine ⟨fun _ _ => homeSlice_eq_of_granule, fun _ _ => channel_eq_of_granule,
    fun a => ⟨homeSlice_lt a, homeSlice_eq a⟩, by decide, fun s die a b c hw => ?windows⟩
  have hbank (x : Nat) : x / 256 % 64 < 64 := Nat.mod_lt _ (by decide)
  have hturn (x : Nat) : s.turning (.ws die x) = true ↔ bankPhase s.time.toNat (x / 256 % 64) < 1200 :=
    State.turning_ws_iff die x hw
  refine ⟨?formula, fun hab hbc hac => ?atMostTwo⟩
  case formula => rw [hturn, ← bankPhase_eq _ (hbank a)]; omega
  case atMostTwo =>
    rw [hturn, hturn, hturn]
    exact not_three_bankPhase (hbank a) (hbank b) (hbank c) hab hbc hac

/-! ### Waits that nothing holds (R203, R224, R258, R273, R274) -/

section
variable {s : State} {o : Who} {x : CtlOp}

/-- A wave of one part has nobody to knit with. -/
theorem exec_knit_alone (h : Clear s o (.knit x) []) (hl : o.p.late = false) (hp : o.w.parts.length = 1) :
    exec (.knit x) s = .next (((s.begin o (.knit x)).advance o.pr).settle) := by
  rw [exec_knit, execKnit, State.issueWith_clear (s' := s) (a := ()) h (by simp [hl])]
  simp only [hl, hp, Bool.false_eq_true, if_false, if_true]

theorem State.begin_satisfied (s : State) (o : Who) (i : Instr) (n a : Nat) :
    (s.begin o i).satisfied o n a = s.satisfied o n a := rfl

/-- Every quad of the part is satisfied where its count is low enough in each. -/
theorem State.satisfied_eq_quads {n a : Nat} (h : ∀ q ∈ maskBits o.p.quads, s.count o.pr.wave n q ≤ a) :
    s.satisfied o n a = o.p.quads := by
  refine BitVec.eq_of_getLsbD_eq fun q hq => ?_
  rw [State.satisfied, getLsbD_maskOf]
  cases hb : o.p.quads.getLsbD q with
  | false => simp
  | true => simp [hq, h q (mem_maskBits.mpr ⟨hq, hb⟩)]

/-- Whether a fault is pending is a fact of the part's wave, not of the state. -/
theorem State.raisePending_eq_none_iff {t : State} {ctrs : Nat → Bool} {pc : Dword} :
    t.raisePending o ctrs pc = none ↔ s.raisePending o ctrs pc = none := by
  unfold State.raisePending
  split <;> simp

theorem exec_waitn_low (h : Clear s o (.waitn x) [])
    (hq : ∀ q ∈ maskBits o.p.quads, s.count o.pr.wave (x.imm.toNat % 16) q ≤ (s.scalar o x.a 0).toNat)
    (hp : s.raisePending o (fun n => n = x.imm.toNat % 16) o.p.pc = none) :
    exec (.waitn x) s = .next ((s.begin o (.waitn x)).finish o (.waitn x)) := by
  have hn : (waitnArgs o x).1 = x.imm.toNat % 16 := by simp [waitnArgs]
  have hpass : (s.begin o (.waitn x)).raisePending o (fun n => n = x.imm.toNat % 16) o.p.pc = none :=
    State.raisePending_eq_none_iff.mpr hp
  rw [exec_waitn, execWaitn, State.issue_go h]
  simp only [hn, State.begin_scalar, State.begin_satisfied, State.satisfied_eq_quads hq, if_true, State.passWaitn, hpass]

theorem exec_yield_clear (h : Clear s o (.yield x) []) :
    exec (.yield x) s = .next (((s.begin o (.yield x)).finish o (.yield x)).yield o.pr) :=
  (exec_yield x s).trans (State.issue_go h)

/-- SLEEP of at most one clock acts as YIELD. -/
theorem exec_sleep_short (h : Clear s o (.sleep x) []) (hn : (s.scalar o x.a x.imm).toNat ≤ 1) :
    exec (.sleep x) s = .next (((s.begin o (.sleep x)).finish o (.sleep x)).yield o.pr) := by
  rw [exec_sleep, execSleep, State.issue_go h, State.begin_scalar]
  exact congrArg Host.Outcome.next (if_pos ((Nat.min_le_left _ _).trans hn))

/-- A longer one waits, for at most 2^24 clocks. -/
theorem exec_sleep_long (h : Clear s o (.sleep x) []) (hn : 1 < (s.scalar o x.a x.imm).toNat) :
    exec (.sleep x) s = .next (((s.begin o (.sleep x)).modPart o.pr fun p =>
      { p with timer := min (s.scalar o x.a x.imm).toNat (2 ^ 24) }).holdOn o.pr (.sleep x) 30) := by
  rw [exec_sleep, execSleep, State.issue_go h, State.begin_scalar]
  exact congrArg Host.Outcome.next (if_neg (Nat.not_le.mpr (lt_min hn (by decide))))

theorem State.begin_fenceWaits (s : State) (o : Who) (i : Instr) (x : CtlOp) :
    (s.begin o i).fenceWaits o x = s.fenceWaits o x := rfl

theorem State.begin_fencexWaits (s : State) (o : Who) (i : Instr) (x : CtlOp) :
    (s.begin o i).fencexWaits o x = s.fencexWaits o x := rfl

theorem exec_fence_passes (h : Clear s o (.fence x) []) (hw : s.fenceWaits o x = false) :
    exec (.fence x) s = .next ((s.begin o (.fence x)).passFence o x) := by
  rw [exec_fence, execFence, State.issue_go h, State.begin_fenceWaits]
  exact congrArg Host.Outcome.next (if_neg (ne_true_of_eq_false hw))

theorem exec_fencex_passes (h : Clear s o (.fencex x) []) (hw : s.fencexWaits o x = false) :
    exec (.fencex x) s = .next ((s.begin o (.fencex x)).passFencex o x) := by
  rw [exec_fencex, execFencex, State.issue_go h, State.begin_fencexWaits]
  exact congrArg Host.Outcome.next (if_neg (ne_true_of_eq_false hw))

end

/-- Settles O28: each instruction passes R52's checks and takes the branch in which nothing makes it wait. -/
theorem waitsComplete : Obligations.WaitsComplete := fun _ _ _ =>
  ⟨exec_knit_alone, exec_waitn_low, exec_yield_clear, exec_sleep_short, exec_sleep_long, exec_fence_passes,
    exec_fencex_passes⟩

end Sys2Proof.Machine
end

section
/-! PROOFS. A store as its event performs it (R182, R191, R213, R219), and the errors that are held when a load lands (R2,
R193, R194). -/

namespace Sys2Proof.Machine

open Sys2Proof

/-! ### Numbers of pieces (R192) -/

/-- With nothing named, the pieces that an event performs are all that are open. -/
theorem Op.pickAll_nil (x : Op) (write : Bool) : x.pickAll write [] = x.pick [] := if_pos rfl

/-- Of an operation that has performed no piece, every one is open. -/
theorem Op.pick_nil_of_unseen {x : Op} (h : x.seen = []) : x.pick [] = List.range x.pieces.length := by
  simp [Op.pick, h]

theorem Op.map_fst_indexed {x : Op} {l : List Nat} (h : ∀ i ∈ l, i < x.pieces.length) : (x.indexed l).map (·.1) = l := by
  induction l with
  | nil => rfl
  | cons i r ih =>
    obtain ⟨hi, hr⟩ := List.forall_mem_cons.mp h
    have hstep : x.indexed (i :: r) = (i, x.pieces[i]) :: x.indexed r := by simp [Op.indexed, hi]
    rw [hstep, List.map_cons, ih hr]

theorem Op.map_snd_indexed (x : Op) (l : List Nat) : (x.indexed l).map (·.2) = x.piecesAt l := by
  simp [Op.indexed, Op.piecesAt, List.map_filterMap, Function.comp_def]

theorem Op.piecesAt_range (x : Op) : x.piecesAt (List.range x.pieces.length) = x.pieces := by
  rw [Op.piecesAt]
  induction x.pieces with
  | nil => rfl
  | cons p r ih => simpa [List.range_succ_eq_map, List.filterMap_map, Function.comp_def] using ih

/-! ### Operations by number -/

theorem map_id_replaceFirst {f : Op → Op} (p : Op → Bool) (hf : ∀ y, (f y).id = y.id) (l : List Op) :
    (replaceFirst p f l).map Op.id = l.map Op.id := by
  induction l with
  | nil => rfl
  | cons y r ih =>
    unfold replaceFirst
    split <;> simp [hf, ih]

/-- An operation that is changed is found by its number as changed. -/
theorem find?_replaceFirst_id {f : Op → Op} {k : Nat} {x : Op} (hf : ∀ y, (f y).id = y.id) {l : List Op}
    (h : l.find? (fun y => y.id == k) = some x) :
    (replaceFirst (fun y => y.id == k) f l).find? (fun y => y.id == k) = some (f x) := by
  induction l with
  | nil => cases h
  | cons y r ih =>
    unfold replaceFirst
    rw [List.find?_cons] at h
    split
    · next hy =>
      rw [hy] at h
      rw [List.find?_cons, hf, hy, Option.some.inj h]
    · next hy =>
      have hy : (y.id == k) = false := by simpa using hy
      rw [hy] at h
      rw [List.find?_cons, hy, ih h]

/-- With numbers of one operation each, whatever has the number is what was changed. -/
theorem exists_of_mem_replaceFirst_id {f : Op → Op} {k : Nat} {z : Op} {l : List Op}
    (hl : (l.map Op.id).Nodup) (hz : z ∈ replaceFirst (fun y => y.id == k) f l) (hk : z.id = k) : ∃ y, z = f y := by
  induction l with
  | nil => cases hz
  | cons y r ih =>
    obtain ⟨hy, hr⟩ := List.nodup_cons.mp hl
    unfold replaceFirst at hz
    split at hz
    · next hyk =>
      rcases List.mem_cons.mp hz with rfl | hz
      · exact ⟨y, rfl⟩
      · exact absurd (List.mem_map.mpr ⟨z, hz, hk.trans (beq_iff_eq.mp hyk).symm⟩) hy
    · next hyk =>
      rcases List.mem_cons.mp hz with rfl | hz
      · exact absurd (beq_iff_eq.mpr hk) hyk
      · exact ih hr hz

/-- Retirement makes no operation: each has the number and the state of one before. -/
theorem exists_of_mem_retireFrom {z : Op} (l : List Op) (b : List (Nat × Nat × QuadMask)) (h : z ∈ retireFrom b l) :
    ∃ y ∈ l, z.id = y.id ∧ z.done = y.done := by
  induction l generalizing b with
  | nil => cases h
  | cons x r ih =>
    have hkept (z' : Op) (hid : z'.id = x.id) (hdone : z'.done = x.done) (c : List (Nat × Nat × QuadMask))
        (h : z ∈ z' :: retireFrom c r) : ∃ y ∈ x :: r, z.id = y.id ∧ z.done = y.done := by
      rcases List.mem_cons.mp h with rfl | h
      · exact ⟨x, List.mem_cons_self, hid, hdone⟩
      · obtain ⟨y, hy, e⟩ := ih c h
        exact ⟨y, List.mem_cons_of_mem x hy, e⟩
    have hgone (c : List (Nat × Nat × QuadMask)) (h : z ∈ retireFrom c r) : ∃ y ∈ x :: r, z.id = y.id ∧ z.done = y.done :=
      hkept x rfl rfl c (List.mem_cons_of_mem x h)
    unfold retireFrom at h
    split at h
    · split at h
      · exact hgone _ h
      · exact hkept x rfl rfl _ h
    · next n _ =>
      dsimp only at h
      generalize (if x.done then x.quads &&& blockedAt b x.wave n else x.quads) = left at h
      split at h
      · exact hgone _ h
      · exact hkept { x with quads := left } rfl rfl _ h

/-- A completed operation is done, where numbers are of one operation each. -/
theorem State.done_of_mem_opDone {s : State} {id : Nat} {z : Op} (hs : (s.ops.map Op.id).Nodup)
    (hz : z ∈ (s.opDone id).ops) (hid : z.id = id) : z.done = true := by
  rw [State.opDone, (State.settle_quiet _).ops] at hz
  obtain ⟨y, hy, hyid, hydone⟩ := exists_of_mem_retireFrom _ _ hz
  rw [State.landAll_ops] at hy
  obtain ⟨x, rfl⟩ := exists_of_mem_replaceFirst_id hs hy (hyid.symm.trans hid)
  exact hydone

/-! ### A store that is complete (R182, R219) -/

/-- What the bytes of every location are made of. -/
def State.content (s : State) : Store × Tbl Group := (s.mem, s.groups)

theorem State.byteAt_of_content {s t : State} (h : t.content = s.content) (l : Loc) : t.byteAt l = s.byteAt l :=
  State.byteAt_of_mem (congrArg Prod.fst h) (congrArg Prod.snd h) l

theorem State.content_landAll (s : State) : s.landAll.content = s.content :=
  foldl_keeps State.content (fun _ _ => by dsimp only; split <;> rfl) _ _

/-- With no part stopping, settling saves none. -/
theorem State.content_settle {s : State} (h : s.stoppers = []) : s.settle.content = s.content := by
  have hstop : s.landAll.retire.stoppers = [] := State.stoppers_landAll h
  rw [State.settle, State.finishStops, hstop]
  exact s.content_landAll

theorem State.content_pend (s : State) (k : Nat) (f : Pending) : (s.pend k f).content = s.content := by
  unfold State.pend
  split <;> rfl

theorem State.stoppers_pend {s : State} (h : s.stoppers = []) (k : Nat) (f : Pending) : (s.pend k f).stoppers = [] := by
  unfold State.pend
  split
  · exact h
  · exact State.stoppers_modWave h fun _ hw => hw

theorem State.ids_pend (s : State) (k : Nat) (f : Pending) : (s.pend k f).ops.map Op.id = s.ops.map Op.id := by
  unfold State.pend
  split
  · exact map_id_replaceFirst (f := fun x => { x with owed := x.owed ++ [f] }) _ (fun _ => rfl) _
  · rfl

/-- What the end of a store does before it is marked complete: its release has gone out, and its faults are pending. -/
def State.storeEnd (s : State) (g : Group) (x : Op) : State := (if x.carries then s.afterRelease g.core else s).pendErr x

theorem State.storeDone_eq (s : State) (g : Group) (x : Op) : s.storeDone g x = (s.storeEnd g x).opDone x.id := rfl

/-- What `afterRelease` leaves, for any view of the state that a core's entry is no part of. -/
theorem State.afterRelease_keeps {γ : Type} (v : State → γ) (hv : ∀ (t : State) k f, v (t.modCore k f) = v t) (s : State)
    (k : Nat) : v (s.afterRelease k) = v s := by
  unfold State.afterRelease
  split
  · exact hv _ _ _
  · rfl

/-- The same of the end of a store, for a view that pending faults are no part of either. -/
theorem State.storeEnd_keeps {γ : Type} (v : State → γ) (hv : ∀ (t : State) k f, v (t.modCore k f) = v t)
    (hp : ∀ (t : State) k f, v (t.pend k f) = v t) (s : State) (g : Group) (x : Op) : v (s.storeEnd g x) = v s := by
  refine (foldl_keeps v (fun t f => hp t x.wave f) _ _).trans ?_
  split
  · exact s.afterRelease_keeps v hv g.core
  · rfl

theorem State.stoppers_storeEnd {s : State} (h : s.stoppers = []) (g : Group) (x : Op) : (s.storeEnd g x).stoppers = [] := by
  refine List.foldlRecOn (motive := fun t : State => t.stoppers = []) _ _ ?_ fun t ht f _ => State.stoppers_pend ht _ _
  split
  · exact (s.afterRelease_keeps State.stoppers (fun _ _ _ => rfl) g.core).trans h
  · exact h

/-- The completion of a store changes no byte. -/
theorem State.byteAt_storeDone {s : State} (h : s.stoppers = []) (g : Group) (x : Op) (l : Loc) :
    (s.storeDone g x).byteAt l = s.byteAt l := by
  refine State.byteAt_of_content ?_ l
  calc (s.storeDone g x).content
      = ((s.storeEnd g x).modOp x.id fun y => { y with done := true }).content :=
        State.content_settle (State.stoppers_storeEnd h g x)
    _ = s.content := s.storeEnd_keeps State.content (fun _ _ _ => rfl) State.content_pend g x

/-- The completion of a store leaves it done. -/
theorem State.done_of_mem_storeDone {s : State} {g : Group} {x z : Op} (hs : (s.ops.map Op.id).Nodup)
    (hz : z ∈ (s.storeDone g x).ops) (hid : z.id = x.id) : z.done = true := by
  rw [State.storeDone_eq] at hz
  refine State.done_of_mem_opDone ?_ hz hid
  rwa [s.storeEnd_keeps (fun t => t.ops.map Op.id) (fun _ _ _ => rfl) State.ids_pend]

/-! ### A store as it performs (R182, R191, R213) -/

/-- The marks that a run of pieces leaves at the operation of a number. -/
def markPieces (k : Nat) (l : List (Nat × Piece)) (ops : List Op) : List Op :=
  l.foldl (fun o e => replaceFirst (fun y => y.id == k) (fun y => { y with seen := y.seen.put e.1 [] }) o) ops

theorem find?_markPieces {k : Nat} (l : List (Nat × Piece)) {ops : List Op} {x : Op}
    (h : ops.find? (fun y => y.id == k) = some x) :
    (markPieces k l ops).find? (fun y => y.id == k) = some (x.marked (l.map (·.1))) := by
  induction l generalizing ops x with
  | nil => exact h
  | cons e r ih => exact ih (find?_replaceFirst_id (f := fun y => { y with seen := y.seen.put e.1 [] }) (fun _ => rfl) h)

theorem map_id_markPieces (k : Nat) (l : List (Nat × Piece)) (ops : List Op) :
    (markPieces k l ops).map Op.id = ops.map Op.id := by
  induction l generalizing ops with
  | nil => rfl
  | cons e r ih =>
    exact (ih _).trans (map_id_replaceFirst (f := fun y => { y with seen := y.seen.put e.1 [] }) _ (fun _ => rfl) _)

/-- With nothing named, every open piece of a store that may be performed is written. -/
theorem exec_storePerformed_all {s : State} {id : Nat} {x : Op} {g : Group} {u : WorkUnit} (h : Live s id .store x g u)
    (hm : s.mayPerform g u x true (x.piecesAt (x.pick [])) = true)
    (hop : (s.writeFrom g u x (x.indexed (x.pick []))).op id = some (x.marked (x.pick []))) :
    exec (.storePerformed id []) s =
      .next ((s.writeFrom g u x (x.indexed (x.pick []))).storeDone g (x.marked (x.pick []))) := by
  rw [exec_storePerformed, stepStorePerformed, State.liveOp_of_live h rfl]
  simp only [Op.pickAll_nil, hm, if_true, hop, Op.opens_marked, List.isEmpty_nil]

/-- Settles O48: the run of its pieces writes them and marks them all, and the completion that follows changes no byte. -/
theorem storesPerform : Obligations.StoresPerform := by
  intro s id x g u h hseen hmisc hplain hmode hfixed hlink hstop hmay
  have hpick : x.pick [] = List.range x.pieces.length := Op.pick_nil_of_unseen hseen
  have hfst : (x.indexed (x.pick [])).map (·.1) = x.pick [] := Op.map_fst_indexed fun i hi => (Op.mem_pick_nil.mp hi).1
  have hsnd : (x.indexed (x.pick [])).map (·.2) = x.pieces := by rw [Op.map_snd_indexed, hpick, Op.piecesAt_range]
  have hpieces {e : Nat × Piece} (he : e ∈ x.indexed (x.pick [])) : e.2 ∈ x.pieces := hsnd ▸ List.mem_map_of_mem he
  obtain ⟨-, hwaves, hops, houtside, hinside⟩ :=
    writeFrom_spec g u x hmode hmisc (x.indexed (x.pick [])) s ⟨hfixed, hlink⟩ fun e he => hplain e.2 (hpieces he)
  have ⟨hop, _⟩ := h
  obtain rfl : x.id = id := h.id_eq
  replace hops : (s.writeFrom g u x (x.indexed (x.pick []))).ops = markPieces x.id (x.indexed (x.pick [])) s.ops := hops
  have hmarked : (s.writeFrom g u x (x.indexed (x.pick []))).op x.id = some (x.marked (x.pick [])) := by
    rw [State.op, hops, find?_markPieces _ hop, hfst]
  have hcalm : (s.writeFrom g u x (x.indexed (x.pick []))).stoppers = [] := by rwa [State.stoppers, hwaves]
  have hmay' : s.mayPerform g u x true (x.piecesAt (x.pick [])) = true := by rwa [hpick, Op.piecesAt_range]
  refine ⟨_, exec_storePerformed_all h hmay' hmarked, fun hnodup y hy hyid => ?done, fun l hl => ?outside,
    fun hapart p hp i hi => ?inside⟩
  case done =>
    refine State.done_of_mem_storeDone ?_ hy hyid
    rwa [hops, map_id_markPieces]
  case outside =>
    rw [State.byteAt_storeDone hcalm]
    exact houtside l fun e he => hl e.2 (hpieces he)
  case inside =>
    obtain ⟨e, he, rfl⟩ := List.mem_map.mp (hsnd ▸ hp)
    rw [State.byteAt_storeDone hcalm]
    exact hinside (hsnd ▸ hapart) e he i hi

/-! ### Loads that land (R2, R193, R194) -/

/-- An earlier load of the part met an uncorrectable error, which is held against its V2 in lane 0. -/
def heldV2 (o : Who) : HeldErr := { cls := 0, num := 2, unit := 0, pc := o.p.pc, addr := 0x200000, loss := none }

/-- A later load of V2 in lane 0, which has read its word without an error. -/
def reloadV2 (o : Who) : Op :=
  { blankOp o 1 none .load with
    code := 4, dst := { cls := .v, num := 2 }, span := 1, mask := 1, seen := [(0, [7, 0, 0, 0])],
    pieces := [{ lane := 0, off := 0, va := 0x200000, loc := .dev 0x200000, len := 4, data := [], hs := false }] }

/-- The later load writes its word, and its write ends the hold. -/
def reloadEndsHold (o : Who) : Bool :=
  let w := Wave.landV { o.w with errs := [heldV2 o] } (reloadV2 o)
  w.vreg 2 0 == 7 && w.errs == []

theorem reloadEndsHold_firmware :
    ((State.reset.withFetchWord 96 0x1C00).who (State.reset.withFetchWord 96 0x1C00).cur).any reloadEndsHold = true := by
  decide +kernel

/-- Refutes O47: its last clause keeps every held error of the wave, where the write of a register ends those held against it
(R2), here the one of V2 in lane 0. -/
theorem not_loadsPerform : ¬ Obligations.LoadsPerform := by
  rintro ⟨-, hland⟩
  obtain ⟨o, -, ho⟩ := Option.any_eq_true .. |>.mp reloadEndsHold_firmware
  simp only [reloadEndsHold, Bool.and_eq_true, beq_iff_eq] at ho
  obtain ⟨-, hended⟩ := ho
  obtain ⟨-, -, hkept, -⟩ := hland { o.w with errs := [heldV2 o] } (reloadV2 o) rfl
  exact absurd (hkept.symm.trans hended) (List.cons_ne_nil _ _)

end Sys2Proof.Machine
end

section
/-! PROOFS. Power and time (R222, R402 to R407): the windows of a core's planisher and of its islands, the ramps of a
cluster, the sensors with the levels that a sample makes due, and the events that end power and the count of time. -/

namespace Sys2Proof.Machine

open Sys2Proof

/-! ### Runs of updates that each change one unit -/

/-- A run of updates that each change what is read at their own number changes each number of the run once. -/
theorem get_foldl_of_nodup {σ α : Type} {get : σ → Nat → α} {f : σ → Nat → σ} {F : Nat → α → α}
    (hf : ∀ t c k, get (f t c) k = if k = c then F c (get t c) else get t k) {l : List Nat} (hl : l.Nodup)
    (s : σ) (k : Nat) :
    get (l.foldl f s) k = if k ∈ l then F k (get s k) else get s k := by
  induction l generalizing s with
  | nil => simp
  | cons c r ih =>
    obtain ⟨hc, hr⟩ := List.nodup_cons.mp hl
    rw [List.foldl_cons, ih hr, hf]
    by_cases hk : k = c
    · subst hk
      simp [hc]
    · simp [hk]

theorem State.cluster_modCluster (s : State) (c : Nat) (f : Cluster → Cluster) (k : Nat) :
    (s.modCluster c f).cluster k = if k = c then f (s.cluster c) else s.cluster k := by
  by_cases h : k = c <;> simp [State.cluster, Tbl.get_put, h]

@[simp] theorem State.cluster_modCluster_same (s : State) (c : Nat) (f : Cluster → Cluster) :
    (s.modCluster c f).cluster c = f (s.cluster c) := by
  rw [State.cluster_modCluster, if_pos rfl]

/-- A run of updates of clusters, each once. -/
theorem State.cluster_foldl_modCluster (s : State) (F : Nat → Cluster → Cluster) {l : List Nat} (hl : l.Nodup) (k : Nat) :
    (l.foldl (fun t c => t.modCluster c (F c)) s).cluster k = if k ∈ l then F k (s.cluster k) else s.cluster k :=
  get_foldl_of_nodup (get := State.cluster) (fun t c k => t.cluster_modCluster c (F c) k) hl s k

theorem State.die_modDie (s : State) (d : Nat) (f : Assay → Assay) (k : Nat) :
    (s.modDie d f).die k = if k = d then f (s.die d) else s.die k := by
  by_cases h : k = d <;> simp [State.die, Tbl.get_put, h]

theorem State.modDie_congr {s : State} {d : Nat} {f g : Assay → Assay} (h : f (s.die d) = g (s.die d)) :
    s.modDie d f = s.modDie d g := by
  rw [State.modDie, State.modDie, h]

theorem State.modDie_modDie (s : State) (d : Nat) (f g : Assay → Assay) :
    (s.modDie d f).modDie d g = s.modDie d fun a => g (f a) := by
  rw [State.modDie, State.die_modDie, if_pos rfl]
  simp [State.modDie]

/-- A run of updates of dies, each once. -/
theorem State.die_foldl_modDie (s : State) (F : Nat → Assay → Assay) {l : List Nat} (hl : l.Nodup) (k : Nat) :
    (l.foldl (fun t d => t.modDie d (F d)) s).die k = if k ∈ l then F k (s.die k) else s.die k :=
  get_foldl_of_nodup (get := State.die) (fun t d k => t.die_modDie d (F d) k) hl s k

/-! ### Records of the monitors (R391, R398) -/

/-- What a die's assay is once its monitor has recorded: a frozen ring counts the record as dropped. -/
def Assay.noted (x : Assay) (time : Time) (d : Nat) (e : EvRec) : Assay :=
  let line := evBytes time.toNat x.seq.toNat (1536 + d) e
  { (if x.frozen then { x with drop := if x.drop = BitVec.allOnes 32 then x.drop else x.drop + 1 }
     else { x with recs := x.recs.put (x.tail.toNat % 4096) line, tail := x.tail + 1 }) with seq := x.seq + 1 }

/-- A record of a monitor: it names no part, no quads and no DSEQ. -/
def monitorRec (code ctx data pc : Nat) : EvRec :=
  { kind := 17, code := code, wid := ctx, part := 0, pc := pc, dseq := 0, qmask := 0, data := data }

theorem State.platform_eq_modDie (s : State) (d code ctx data pc : Nat) :
    s.platform d code ctx data pc = s.modDie d fun a => a.noted s.time d (monitorRec code ctx data pc) := by
  rw [State.platform, State.assay, State.modDie_modDie]
  refine State.modDie_congr ?_
  unfold Assay.noted
  split <;> rfl

@[simp] theorem State.cluster_platform (s : State) (d code ctx data pc k : Nat) :
    (s.platform d code ctx data pc).cluster k = s.cluster k := rfl

@[simp] theorem State.platform_heat (s : State) (d code ctx data pc : Nat) :
    (s.platform d code ctx data pc).heat = s.heat := rfl

/-- A record on every die is one on each, at one time. -/
theorem State.platformAll_eq_modDie (s : State) (code ctx data : Nat) :
    s.platformAll code ctx data =
      (List.range 4).foldl (fun t d => t.modDie d fun a => a.noted s.time d (monitorRec code ctx data 0)) s := by
  refine foldl_congr_of_invariant (I := fun t => t.time = s.time) (fun t ht d _ => ?_) rfl
  rw [← ht]
  exact ⟨t.platform_eq_modDie d code ctx data 0, rfl⟩

theorem State.die_platformAll (s : State) (code ctx data : Nat) {k : Nat} (hk : k < 4) :
    (s.platformAll code ctx data).die k = (s.die k).noted s.time k (monitorRec code ctx data 0) := by
  rw [State.platformAll_eq_modDie, s.die_foldl_modDie (fun d a => a.noted s.time d (monitorRec code ctx data 0))
    List.nodup_range, if_pos (List.mem_range.mpr hk)]

/-! ### Windows of the islands (R402) -/

/-- 90 of 100 are 9 of 10. -/
theorem lowRail_share (m n : Nat) : 9 * n ≤ 10 * m ↔ 90 * n ≤ 100 * m := by omega

theorem exec_lowRailWake_of_ready {s : State} {k j : Nat} (hj : j < 4) (hl : (s.core k).isl.low.getLsbD j = true)
    (hr : (s.slotted k j).any (fun p => p.2.isReady) = true) :
    exec (.lowRailWake k j) s = .next (s.modCore k fun c => { c with isl := c.isl.startWake (bit1 4 j) }) := by
  rw [exec_lowRailWake, stepLowRailWake, if_pos]
  simp [hj, hl, hr]

/-- An island that has woken. -/
def Islands.woken (i : Islands) (j : Nat) : Islands :=
  { i with low := i.low &&& ~~~ bit1 4 j, wake := i.wake &&& ~~~ bit1 4 j }

/-- The parts that are tried anew change no core. -/
theorem exec_lowRailWakeDone_isl {s : State} {k j : Nat} (hj : j < 4) (hw : (s.core k).isl.wake.getLsbD j = true)
    (ht : (s.core k).isl.timer.getD j 0 = 0) :
    ∃ t, exec (.lowRailWakeDone k j) s = .next t ∧ (t.core k).isl = (s.core k).isl.woken j := by
  have hdue : (decide (j < 4) && (s.core k).isl.wake.getLsbD j && decide ((s.core k).isl.timer.getD j 0 = 0)) = true := by
    simpa [hj, hw] using ht
  rw [exec_lowRailWakeDone, stepLowRailWakeDone, if_pos hdue]
  refine ⟨_, rfl, ?_⟩
  dsimp only
  rw [State.foldl_keeps fun t => (t.core k).isl]
  · rw [State.modCore_core, if_pos rfl, Islands.woken]
  · exact fun _ _ => rfl

/-! ### Ramps (R405) -/

/-- The registers of a cluster that is sent from its point to another. -/
def Dvfs.sentTo (d : Dvfs) (k : Nat) : Dvfs :=
  if d.cpt = k then d
  else { d with
    cpt := if k < d.cpt then k else d.cpt, tpt := k, ramp := true, left := 4000 * ((d.cpt - k) + (k - d.cpt)) }

theorem Dvfs.sentTo_rests {d : Dvfs} {a k : Nat} (hr : d.ramp = false) (ha : d.cpt = a) (hk : a = k) :
    (d.sentTo k).ramp = false ∧ (d.sentTo k).cpt = a := by
  rw [Dvfs.sentTo, if_pos (ha.trans hk)]
  exact ⟨hr, ha⟩

/-- The point changes at once where it is lowered. -/
theorem Dvfs.sentTo_begins {d : Dvfs} {a k : Nat} (ha : d.cpt = a) (hk : a ≠ k) :
    (d.sentTo k).ramp = true ∧ (d.sentTo k).tpt = k ∧ (d.sentTo k).left = 4000 * ((a - k) + (k - a)) ∧
      (d.sentTo k).cpt = if k < a then k else a := by
  subst ha
  simp [Dvfs.sentTo, hk]

theorem Dvfs.qpt_sentTo (d : Dvfs) (k : Nat) : (d.sentTo k).qpt = d.qpt := by
  unfold Dvfs.sentTo
  split <;> rfl

theorem State.dvfs_setPoint (s : State) (c k : Nat) :
    ((s.setPoint c k).cluster c).dvfs = { (s.cluster c).dvfs with cpt := k } := by
  unfold State.setPoint
  split
  · next h => rw [← h]
  · simp

@[simp] theorem State.setPoint_heat (s : State) (c k : Nat) : (s.setPoint c k).heat = s.heat := by
  unfold State.setPoint
  split <;> rfl

theorem State.dvfs_startRamp {s : State} {c k : Nat} (h : (s.cluster c).dvfs.cpt ≠ k) :
    ((s.startRamp c k).cluster c).dvfs = (s.cluster c).dvfs.sentTo k := by
  simp only [State.startRamp, Dvfs.sentTo, if_neg h]
  split
  · simp [State.dvfs_setPoint]
  · simp

theorem State.dvfs_rampTo {s : State} {c : Nat} (k : Nat) (h : (s.cluster c).dvfs.ramp = false) :
    ((s.rampTo c k).cluster c).dvfs = (s.cluster c).dvfs.sentTo k := by
  by_cases hk : (s.cluster c).dvfs.cpt = k
  · simp [State.rampTo, Dvfs.sentTo, hk]
  · simp [State.rampTo, h, hk, State.dvfs_startRamp hk]

/-- A cluster stands at the target of its ramp. -/
def State.atTarget (s : State) (c : Nat) : State :=
  (s.modCluster c fun x => { x with dvfs := { x.dvfs with ramp := false } }).setPoint c (s.cluster c).dvfs.tpt

/-- The registers of a cluster that stands at the target of its ramp. -/
def Dvfs.arrived (d : Dvfs) : Dvfs := { d with ramp := false, cpt := d.tpt }

theorem State.dvfs_atTarget (s : State) (c : Nat) : ((s.atTarget c).cluster c).dvfs = (s.cluster c).dvfs.arrived := by
  simp [State.atTarget, State.dvfs_setPoint, Dvfs.arrived]

theorem State.trip2_atTarget (s : State) (c : Nat) : (s.atTarget c).trip2 = s.trip2 := by
  simp [State.atTarget, State.trip2]

section
variable {s : State} {c : Nat} (hr : (s.cluster c).dvfs.ramp = true) (hl : (s.cluster c).dvfs.left = 0)
include hr hl

theorem exec_dvfsRampEnd_of_reached : exec (.dvfsRampEnd c) s = .next (
    if s.trip2 then (s.atTarget c).rampTo c 9
    else if (s.cluster c).dvfs.qpt = 0 then s.atTarget c
    else ((s.atTarget c).modCluster c fun x => { x with dvfs := { x.dvfs with qpt := 0 } }).rampTo c
      (s.cluster c).dvfs.qpt) := by
  rw [← s.trip2_atTarget c, exec_dvfsRampEnd, stepDvfsRampEnd, if_neg]
  · rfl
  · simp [hr, hl]

/-- In trip 2 the next ramp is to point 9, and the queued request stays. -/
theorem exec_dvfsRampEnd_in_trip2 (h : s.trip2 = true) : ∃ t, exec (.dvfsRampEnd c) s = .next t ∧
    (t.cluster c).dvfs = (s.cluster c).dvfs.arrived.sentTo 9 := by
  refine ⟨_, exec_dvfsRampEnd_of_reached hr hl, ?_⟩
  rw [if_pos h, State.dvfs_rampTo 9 (by rw [State.dvfs_atTarget]; rfl), State.dvfs_atTarget]

/-- Else the queued request starts it and is taken, where one is queued. -/
theorem exec_dvfsRampEnd_of_clear (h : s.trip2 = false) : ∃ t, exec (.dvfsRampEnd c) s = .next t ∧
    (t.cluster c).dvfs = if (s.cluster c).dvfs.qpt = 0 then (s.cluster c).dvfs.arrived
      else { (s.cluster c).dvfs.arrived with qpt := 0 }.sentTo (s.cluster c).dvfs.qpt := by
  refine ⟨_, exec_dvfsRampEnd_of_reached hr hl, ?_⟩
  rw [if_neg (Bool.eq_false_iff.mp h)]
  split
  · exact s.dvfs_atTarget c
  · rw [State.dvfs_rampTo, State.cluster_modCluster_same]
    · simp [State.dvfs_atTarget]
    · simp [State.dvfs_atTarget, Dvfs.arrived]

end

/-! ### Sensors and levels (R401, R407) -/

/-- The sensors' registers of the clusters and of the islands take a sample. -/
def State.sense (s : State) (r : ThermalIn) : State :=
  r.rails.foldl (fun s e => if e.1 < 2048 then s.modCore (e.1 / 4) fun c =>
      { c with isl := { c.isl with vmon := c.isl.vmon.set (e.1 % 4) e.2 } } else s)
    (allClusters.foldl (fun s c => s.modCluster c fun x =>
      { x with tsens := r.temps.getD c 0, pmon := r.process.getD c x.pmon }) s)

theorem State.sense_heat (s : State) (r : ThermalIn) : (s.sense r).heat = s.heat := by
  rw [State.sense, State.foldl_keeps State.heat, State.foldl_keeps State.heat]
  · exact fun _ _ => rfl
  · intro t e
    split <;> rfl

theorem State.tsens_sense (s : State) (r : ThermalIn) {c : Nat} (hc : c < 64) :
    ((s.sense r).cluster c).tsens = r.temps.getD c 0 := by
  rw [State.sense, State.foldl_keeps fun t => (t.cluster c).tsens]
  · rw [allClusters, s.cluster_foldl_modCluster
      (fun c x => { x with tsens := r.temps.getD c 0, pmon := r.process.getD c x.pmon }) List.nodup_range,
      if_pos (List.mem_range.mpr hc)]
  · intro t e
    split <;> rfl

/-- A level of the ladder is due at a temperature: at or above its threshold while it is clear, at or below that less 3 °C
while it is active, and only after 20 ms in its state. -/
def levelDue (trips : List Trip) (temp : BitVec 16) (n : Nat) : Bool :=
  let x := trips.getD (n - 1) { active := false, dwell := 0 }
  decide (20000000 ≤ x.dwell) &&
    (if x.active then decide (temp.toInt ≤ tripLimit n - 48) else decide (tripLimit n ≤ temp.toInt))

theorem tripDue_eq_levelDue (s : State) {n : Nat} (hn : n ∈ [1, 2, 3]) :
    s.tripDue n = levelDue s.heat.trips s.heat.pktemp n := by
  have hrange : 1 ≤ n ∧ n ≤ 3 := by
    simp only [List.mem_cons, List.not_mem_nil, or_false] at hn
    omega
  simp [State.tripDue, levelDue, hrange]

/-- The registers of a sample, with the levels that it makes due. -/
def Thermal.sampled (h : Thermal) (r : ThermalIn) : Thermal :=
  { h with
    pktemp := hottest r.temps, pkpwr := r.pkpwr, modpwr := r.modpwr,
    due := [1, 2, 3].filter (levelDue h.trips (hottest r.temps)) }

theorem exec_thermalSample_of_none_due {s : State} {r : ThermalIn} (hlen : r.temps.length = 66) (hdue : s.heat.due = []) :
    exec (.thermalSample r) s = .next { s.sense r with heat := s.heat.sampled r } := by
  rw [exec_thermalSample, stepThermalSample, if_neg (by simp [hlen]), hdue]
  rw [← s.sense_heat r, Thermal.sampled, ← List.filter_congr fun n hn => tripDue_eq_levelDue { s.sense r with
    heat := { (s.sense r).heat with pktemp := hottest r.temps, pkpwr := r.pkpwr, modpwr := r.modpwr } } hn]
  rfl

/-- The change that is first of those due is made, and no other. -/
theorem exec_tripChange_of_first {s : State} {level : Nat} {l : List Nat} (h : s.heat.due = level :: l) :
    exec (.tripChange level) s = .next ({ s with heat := { s.heat with due := l } }.changeTrip level) := by
  rw [exec_tripChange, stepTripChange, if_pos (by rw [h]; rfl), State.nextTrip]
  simp only [h]

theorem exec_tripChange_of_not_first {s : State} {level : Nat} (h : s.heat.due.head? ≠ some level) :
    exec (.tripChange level) s = .next s := by
  rw [exec_tripChange, stepTripChange, if_neg h]

/-- Settles O60: each event passes its guard, and a ramp's end and a sample are read off from the registers that they
leave. That bubbled parts are tried anew and that clocks past the 4,096th count for the next window are choices of the
model (log 79, 64). -/
theorem powerAndTime : Obligations.PowerAndTime := by
  refine ⟨fun s k h => ?planisher, fun s k j hj => ⟨fun h => ?window, exec_lowRailWake_of_ready hj, fun hw ht => ?woken⟩,
    fun s c level r => ⟨fun hr hl => ?ramp, fun hlen hdue => ?sample,
      fun l h => ?trip, exec_tripChange_of_not_first, fun code n m k hk => s.die_platformAll code n m hk,
      ⟨_, exec_trip4PowerOff s, rfl, rfl⟩, fun h => ?wrap⟩⟩
  case planisher => rw [exec_planisherWindow, stepPlanisherWindow, if_neg (Nat.not_lt.mpr h)]
  case window =>
    rw [exec_lowRailWindow, stepLowRailWindow, if_neg]
    · simp only [Bool.and_eq_true, decide_eq_true_eq, lowRail_share, and_assoc]
    · simpa [hj] using h
  case woken =>
    obtain ⟨t, ht, hisl⟩ := exec_lowRailWakeDone_isl hj hw ht
    exact ⟨t, ht, by rw [hisl]; rfl, by rw [hisl]; rfl⟩
  case ramp =>
    cases htrip : s.trip2 with
    | true =>
      obtain ⟨t, ht, hdvfs⟩ := exec_dvfsRampEnd_in_trip2 hr hl htrip
      refine ⟨t, ht, fun _ => ?_, nofun⟩
      simp only [hdvfs]
      exact ⟨fun h9 => Dvfs.sentTo_begins rfl h9, fun h9 => Dvfs.sentTo_rests rfl rfl h9, Dvfs.qpt_sentTo _ 9⟩
    | false =>
      obtain ⟨t, ht, hdvfs⟩ := exec_dvfsRampEnd_of_clear hr hl htrip
      refine ⟨t, ht, nofun, fun _ => ?_⟩
      by_cases h0 : (s.cluster c).dvfs.qpt = 0
      · simp only [hdvfs, if_pos h0]
        exact ⟨fun h => absurd h0 h, fun _ => ⟨rfl, rfl⟩, h0⟩
      · simp only [hdvfs, if_neg h0]
        exact ⟨fun _ hq => Dvfs.sentTo_begins rfl (Ne.symm hq),
          fun hq => Dvfs.sentTo_rests rfl rfl (hq.resolve_left h0).symm, Dvfs.qpt_sentTo _ _⟩
  case sample =>
    refine ⟨_, exec_thermalSample_of_none_due hlen hdue, rfl, rfl, rfl, fun c hc => s.tsens_sense r hc, rfl,
      List.filter_congr fun n hn => ?_⟩
    simp only [List.mem_cons, List.not_mem_nil, or_false] at hn
    obtain rfl | rfl | rfl := hn <;> rfl
  case trip =>
    refine (exec_tripChange_of_first h).trans ?_
    unfold State.changeTrip
    rfl
  case wrap =>
    rw [exec_deviceTimeWrap, stepDeviceTimeWrap, if_pos h]
    exact ⟨_, rfl, rfl, rfl, rfl⟩

end Sys2Proof.Machine
end

section
/-! PROOFS. Atomics and multicasts as they issue (R229 to R233, R245, R246), the steps of an atomic and what they store
(R229, R230, R232), and the early resolution of a fixed-order accumulator (R235, R397). -/

namespace Sys2Proof.Machine

open Sys2Proof

/-! ### From the beginning of an atomic to the entry of its operation (R231, R234, R236) -/

namespace Entering

variable {s u : State} {o : Who}

/-- Two ways to the entry of an operation. -/
theorem ite {v : State} {c : Prop} [Decidable c] (hu : Entering s o u) (hv : Entering s o v) :
    Entering s o (if c then u else v) := by
  split
  · exact hu
  · exact hv

/-- What keeps every wave and does not number operations leads on. -/
theorem of_waves_eq {v : State} (h : Entering s o u) (hw : v.waves = u.waves) (hf : v.fresh = u.fresh) :
    Entering s o v :=
  ⟨by rw [hw, h.regs], by rw [hf]; exact h.fresh⟩

/-- What leaves registers, operations and numbers as they are leads on. -/
theorem quiet {v : State} (h : Entering s o u) (hq : Quiet u v) : Entering s o v :=
  ⟨(hq.regfile _).trans h.regs, by rw [hq.fresh]; exact h.fresh⟩

/-- The numbering of a wave's atomics (R236) leaves its registers. -/
theorem numberAtom (h : Entering s o u) :
    Entering s o (u.modWave o.pr.wave fun w => { w with seqs := { w.seqs with atom := w.seqs.atom + 1 } }) :=
  h.quiet (Quiet.modWave u o.pr.wave fun _ => by rfl)

theorem bankDecision (h : Entering s o u) (ps : List Piece) : Entering s o (u.bankDecision o ps) := by
  unfold State.bankDecision
  split
  · split
    · exact .ite (h.quiet (u.decide_quiet o _ _ _ _ _ _)) h
    · exact h
  · exact h

theorem recallLines (h : Entering s o u) (l : List Piece) : Entering s o (u.recallLines l) :=
  h.of_waves_eq (u.recallLines_waves l) (State.foldl_keeps State.fresh (fun _ _ => by split <;> rfl) _ _)

theorem addDrains (h : Entering s o u) (x : MemOp) : Entering s o (u.addDrains o x) :=
  h.of_waves_eq (State.foldl_keeps State.waves (fun _ _ => by rfl) _ u)
    (State.foldl_keeps State.fresh (fun _ _ => by rfl) _ u)

end Entering

/-! ### The issue of an atomic (R229 to R233) -/

section
variable {s s' : State} {o : Who} {i : Instr} {x : MemOp} {kind : OpKind} {code : Nat} {ps : List Piece}

/-- An atomic whose accesses and whose bank let it go has its effect. -/
theorem State.atomInstr_go (h : Clear s o i (inRecord o (sliceUse (atomReq x (atomBytes code)) o s)))
    (hc : s.checkAccess o (atomReq x (atomBytes code) o) (fun _ => []) = (s', none, .ok ps))
    (hb : s'.bankReady o ps = true) :
    s.atomInstr i x kind code = .next ((s'.begin o i).issueAtom i o x kind code ps) :=
  State.issueCut_go h (by simp only [hc, hb, if_true])

/-- An atomic without a participating lane is complete. -/
theorem State.issueAtom_nil (s : State) : s.issueAtom i o x kind code [] = s.finish o i := rfl

/-- An atomic with pieces enters the table, with a result for ATOM and ATOMC only. -/
theorem launches_issueAtom {sl : List Nat} (h : Clear s o i sl) (hq : Quiet s s') (hps : ps ≠ [])
    (hh : (headOf i).csel = x.h.csel) (he : exec i s = .next ((s'.begin o i).issueAtom i o x kind code ps)) :
    Launches s o i kind (fun y => y.pieces = ps ∧ y.code = code ∧ y.dst = x.reg ∧
      y.span = if kind = .atom then atomBytes code / 4 else 0) (Kept o) := by
  have hd := (Entering.begun h hq).bankDecision ps
  rw [State.issueAtom, if_neg (by simpa using hps)] at he
  exact launchOp_of ((Entering.ite hd.fresh1.numberAtom hd.fresh1).recallLines _).regs hd.fresh he
    ⟨rfl, rfl, rfl, rfl⟩ rfl rfl rfl rfl rfl rfl rfl (by rw [hh]; rfl)

/-- The issue of an atomic instruction, with and without a participating lane. -/
theorem atomInstr_issues (hh : (headOf i).csel = x.h.csel) (he : exec i s = s.atomInstr i x kind code)
    (h : Clear s o i (inRecord o (sliceUse (atomReq x (atomBytes code)) o s)))
    (hc : s.checkAccess o (atomReq x (atomBytes code) o) (fun _ => []) = (s', none, .ok ps))
    (hb : s'.bankReady o ps = true) :
    (ps = [] → exec i s = .next ((s'.begin o i).finish o i)) ∧
    (ps ≠ [] → Launches s o i kind (fun y => y.pieces = ps ∧ y.code = code ∧ y.dst = x.reg ∧
      y.span = if kind = .atom then atomBytes code / 4 else 0) (Kept o)) := by
  have hgo := he.trans (State.atomInstr_go h hc hb)
  refine ⟨?_, fun hps => launches_issueAtom h ((s.checkAccess_quiet o _ _).of_answer hc) hps hh hgo⟩
  rintro rfl
  rw [hgo, State.issueAtom_nil]

end

/-! ### The issue of a multicast (R245, R246) -/

section
variable {s : State} {o : Who} {i : Instr} {x : MemOp} {kind : OpKind} {data : Nat → List Byte}

/-- The deliveries of a multicast are those of its groups before the issue. -/
@[simp] theorem State.begin_multiPieces (s : State) (o : Who) (i : Instr) (x : MemOp) (data : Nat → List Byte) :
    (s.begin o i).multiPieces o x data = s.multiPieces o x data := rfl

/-- A multicast without a delivery is complete. -/
theorem State.issueMulti_nil (h : s.multiPieces o x data = []) : s.issueMulti i o x kind data = s.finish o i := by
  rw [State.issueMulti, h]
  rfl

/-- A multicast with deliveries enters the table with them. -/
theorem launches_issueMulti {sl : List Nat} (h : Clear s o i sl) (hps : s.multiPieces o x data ≠ [])
    (hh : (headOf i).csel = x.h.csel) (he : exec i s = .next ((s.begin o i).issueMulti i o x kind data)) :
    Launches s o i kind (fun y => y.pieces = s.multiPieces o x data) (Kept o) := by
  have hb : Entering s o (s.begin o i) := .begun h (Quiet.refl s)
  rw [State.issueMulti, State.begin_multiPieces, if_neg (by simpa using hps)] at he
  exact launchOp_of ((Entering.ite hb.fresh1.numberAtom hb.fresh1).addDrains x).regs hb.fresh he rfl rfl rfl rfl rfl rfl
    rfl rfl (by rw [hh]; rfl)

/-- The issue of a multicast, with and without a delivery. -/
theorem multicast_issues {sl : List Nat} (hh : (headOf i).csel = x.h.csel) (h : Clear s o i sl)
    (he : exec i s = .next ((s.begin o i).issueMulti i o x kind data)) :
    (s.multiPieces o x data = [] → exec i s = .next ((s.begin o i).finish o i)) ∧
    (s.multiPieces o x data ≠ [] → Launches s o i kind (fun y => y.pieces = s.multiPieces o x data) (Kept o)) := by
  refine ⟨fun hps => ?_, fun hps => launches_issueMulti h hps hh he⟩
  rw [he, State.issueMulti_nil (by rwa [State.begin_multiPieces])]

/-- An MCST that no trap of R245 stops has its effect. -/
theorem exec_mcst_go (h : Clear s o (.mcst x) (inRecord o (multiSlices x (sizeBytes x.szty.toNat) o s)))
    (hc : s.collTrap o x (sizeBytes x.szty.toNat) = none) :
    exec (.mcst x) s = .next ((s.begin o (.mcst x)).issueMulti (.mcst x) o x .mcst
      fun l => storeBytes x.szty.toNat (storeWords o x l)) := by
  rw [exec_mcst, execMcst]
  exact State.issueWith_go (a := ()) h (by simp only [hc])

/-- An MRED that no trap of R245 stops has its effect. -/
theorem exec_mred_go (h : Clear s o (.mred x) (inRecord o (multiSlices x (atomBytes x.szty.toNat) o s)))
    (hc : s.collTrap o x (atomBytes x.szty.toNat) = none) :
    exec (.mred x) s = .next ((s.begin o (.mred x)).issueMulti (.mred x) o x .mred
      fun l => leBytes (atomBytes x.szty.toNat) (atomOperand o x (atomBytes x.szty.toNat) 0 l)) := by
  rw [exec_mred, execMred]
  exact State.issueWith_go (a := ()) h (by simp only [hc])

end

/-- Settles O31: the three atomics are one issue and the two multicasts another; each enters the table after what numbers
and counts it has left the registers as they were. -/
theorem atomicsAndMulticastsIssue : Obligations.AtomicsAndMulticastsIssue := by
  refine ⟨fun s s' o x ps => ⟨?atom, ?atomc, ?red⟩, fun s o x => ⟨?mcst, ?mred⟩⟩
  case atom => exact atomInstr_issues rfl (exec_atom x s)
  case atomc => exact atomInstr_issues rfl (exec_atomc x s)
  case red => exact atomInstr_issues rfl (exec_red x s)
  case mcst => exact fun h hc => multicast_issues rfl h (exec_mcst_go h hc)
  case mred => exact fun h hc => multicast_issues rfl h (exec_mred_go h hc)

/-! ### Steps and early resolution (R232, R233, R235, R397) -/

/-- With no lane named, every step that is left is performed, and the last completes the atomic. -/
theorem exec_atomicStep_all {s : State} {id : Nat} {kind : OpKind} {x : Op} {g : Group} {u : WorkUnit}
    (h : Live s id kind x g u) (hk : kind = .atom ∨ kind = .red) (hm : s.atomMay g u x (x.pick []) = true) {t : State}
    (ht : (x.pick []).foldl (fun s i => (s.tellFabric u x x.carries (x.piecesAt [i])).atomStep g u id i) s = t) :
    exec (.atomicStep id []) s = .next (match t.op id with
      | some y => if y.opens = [] then t.atomDone g y else t
      | none => t) := by
  have hlive := State.liveOp_of_live h (k := fun k => k = .atom || k = .red) (by rcases hk with rfl | rfl <;> rfl)
  rw [exec_atomicStep, stepAtomicStep, hlive]
  simp only [List.any_nil, Bool.false_eq_true, if_false, ite_self, hm, if_true, ht]
  cases t.op id with
  | none => rfl
  | some y => simp only [List.isEmpty_iff]

/-- FOFULL of a context counts one more sector, and stays at its largest value. -/
def State.countFull (s : State) (ctx : Nat) : State :=
  s.setNat (.dev (s.tables.lgtab + 64 * ctx + 46)) 2 (min (s.natAt (.dev (s.tables.lgtab + 64 * ctx + 46)) 2 + 1) 65535)

/-- The record of kind 13 that a sector's home slice puts into its ring. -/
def State.tellFull (s : State) (sector : Nat) (u : WorkUnit) : State :=
  let k := homeSlice (32 * sector)
  (s.ringPut none (u.mring k) u.msize (evBytes s.time.toNat (s.slice k).seq.toNat (512 + k)
    { kind := 13, code := 0, wid := 0, part := 0, pc := 32 * sector, dseq := 0, qmask := 0, data := 0 })).modSlice k
      fun sl => { sl with seq := sl.seq + 1 }

/-- The low five bits of a number. -/
theorem field_low5 (v : Nat) : field v 4 0 = v % 32 := by simp [field]

/-- Where more sectors of a context are pending than its spill region holds, the accumulator is resolved; FOFULL counts it,
and a context that logs tells it. -/
theorem exec_fixedOrderResolve_full {s : State} {sector : Nat} {e : FixedEntry}
    (he : s.fixedAt (.dev (32 * sector)) = some e)
    (hfull : (if (nth (s.logWords e.ctx) 0).toNat % 32 = 0 then 0 else 2 ^ ((nth (s.logWords e.ctx) 0).toNat % 32)) <
      s.fixedCount e.ctx) {v : State} (hv : (s.resolveFixed (.dev (32 * sector))).countFull e.ctx = v) :
    exec (.fixedOrderResolve sector) s = .next (match v.loggingUnit e.ctx with
      | some w => v.tellFull sector w
      | none => v) := by
  rw [State.countFull] at hv
  rw [exec_fixedOrderResolve, stepFixedOrderResolve, he]
  simp only [field_low5, if_pos hfull, hv]
  cases v.loggingUnit e.ctx <;> rfl

/-! ### What a step stores (R229, R230, R232) -/

/-- A word's number, read as signed, is the word's own signed value. -/
theorem asInt_eq_toInt {v : Nat} (h : v < 2 ^ 32) : asInt true 32 v = (BitVec.ofNat 32 v).toInt := by
  have hbit : nbit v 31 = true ↔ 2 ^ 31 ≤ v := by
    simp only [nbit, decide_eq_true_eq]; omega
  rw [BitVec.toInt_eq_toNat_cond, BitVec.toNat_ofNat, Nat.mod_eq_of_lt h, asInt, Bool.true_and]
  by_cases hv : 2 ^ 31 ≤ v
  · rw [if_pos (hbit.mpr hv), if_neg (by omega)]
    rfl
  · rw [if_neg (hbit.not.mpr hv), if_pos (by omega)]

section
variable {a b : Nat} (ha : a < 2 ^ 32) (hb : b < 2 ^ 32)
include ha hb

/-- The signed minimum of two words is the smaller of their signed values. -/
theorem toInt_atomResult_min : (BitVec.ofNat 32 (atomResult 2 a b)).toInt =
    min (BitVec.ofNat 32 a).toInt (BitVec.ofNat 32 b).toInt := by
  rw [atomResult, asInt_eq_toInt ha, asInt_eq_toInt hb]
  split
  · next hle => exact (min_eq_left hle).symm
  · next hle => exact (min_eq_right (le_of_not_ge hle)).symm

/-- The signed maximum of two words is the greater of their signed values. -/
theorem toInt_atomResult_max : (BitVec.ofNat 32 (atomResult 4 a b)).toInt =
    max (BitVec.ofNat 32 a).toInt (BitVec.ofNat 32 b).toInt := by
  rw [atomResult, asInt_eq_toInt ha, asInt_eq_toInt hb]
  split
  · next hle => exact (max_eq_right hle).symm
  · next hle => exact (max_eq_left (le_of_not_ge hle)).symm

end

/-- A compare-and-swap stores its swap value where the old value is the comparand, and nothing else. -/
theorem atomWrites_compare {k : Nat} (h : 16 ≤ k) (a b c : Nat) : atomWrites k a b c = if a = b then some c else none :=
  if_pos h

/-- Every other step stores the result of its operation. -/
theorem atomWrites_operation {k : Nat} (h : k < 16) (a b c : Nat) : atomWrites k a b c = some (atomResult k a b) :=
  if_neg (Nat.not_le.mpr h)

/-- Settles O49: each event finds its operation or its accumulator and passes its guard; the results are those of their codes,
where a signed comparison is one of the words' signed values. -/
theorem atomicsPerform : Obligations.AtomicsPerform := by
  refine ⟨fun s id x g u kind => ⟨?steps, ?resolve⟩, fun a b c => ⟨?words, ?dwords⟩⟩
  case steps => exact fun hk h hm => exec_atomicStep_all h hk hm rfl
  case resolve => exact fun sector e he hfull => exec_fixedOrderResolve_full he hfull rfl
  case words =>
    exact fun ha hb => ⟨rfl, toInt_atomResult_min ha hb, rfl, toInt_atomResult_max ha hb, rfl, rfl, rfl, rfl, rfl, rfl, rfl,
      atomWrites_compare (by decide) a b c⟩
  case dwords =>
    exact fun _ _ => ⟨rfl, rfl, rfl, rfl, rfl, atomWrites_compare (by decide) a b c,
      fun _ hk => atomWrites_operation hk a b c⟩

end Sys2Proof.Machine
end

section
/-! PROOFS. Knits of an episode (R258 to R262): when a fuse or a timeout lets its fused part go on, and what fusing gives a
part. -/

namespace Sys2Proof.Machine

open Sys2Proof

section
variable {s t : State} {wave : Nat} {pc : Dword} {w : Wave} {e : Episode} {pr : PartRef} {bad : List Nat} {o : Who}

/-! ### A knit that fuses or times out (R259, R260, R395) -/

/-- A fused part that is there goes on past its KNIT. -/
theorem State.passKnit_there (s : State) (bad : List Nat) (h : (t.who pr).isSome = true) :
    s.passKnit (t, pr, bad) = (t.advance pr).settle := by
  obtain ⟨o, ho⟩ := Option.isSome_iff_exists.mp h
  simp only [State.passKnit, ho]

theorem exec_knitFuse_full (he : s.episodeAt wave pc false = some (w, e)) (ho : t.who pr = some o) (hfull : e.full w = true)
    (hhere : e.here w = true) (hr : s.replayAllows wave 3 (episodeQuads w e) = true) (hf : s.fuse wave e 3 = (t, pr, bad)) :
    exec (.knitFuse wave pc) s = .next ((t.advance pr).settle) := by
  simp only [exec_knitFuse, stepKnitFuse, he, hfull, hhere, hr, hf, Bool.and_self, if_true,
    State.passKnit_there s bad (Option.isSome_of_eq_some ho)]

/-- In replay the clock does not count; elsewhere it has run out before the episode is full. -/
theorem exec_knitTimeout_late (he : s.episodeAt wave pc false = some (w, e)) (hhere : (s.logged wave w e).here w = true)
    (hr : s.replayAllows wave 4 (episodeQuads w (s.logged wave w e)) = true)
    (hf : (s.leaveKnit wave e (s.logged wave w e)).fuse wave (s.logged wave w e) 4 = (t, pr, bad))
    (hc : s.inReplay wave w = true ∨ e.timer = 0 ∧ e.full w = false) (hout : s.reserveOut wave = false)
    (hu : ((t.lateRest wave (pr.part :: bad)).who pr).isSome = true) :
    exec (.knitTimeout wave pc) s = .next (((t.lateRest wave (pr.part :: bad)).advance pr).settle) := by
  have hclock : (if s.inReplay wave w then true else decide (e.timer = 0) && !e.full w) = true := by
    rcases hc with hc | ⟨hz, hfull⟩
    · rw [hc, if_pos rfl]
    · simp only [hz, hfull, decide_true, Bool.not_false, Bool.and_self, ite_self]
  simp only [exec_knitTimeout, stepKnitTimeout, he, hclock, hhere, hout, hr, hf, Bool.not_false, Bool.and_self, if_true,
    State.passKnit_there s bad hu]

/-! ### Implicit knits (R261, R262) -/

/-- The fused part holds the quads that its instruction asks for: the instruction issues next. -/
theorem State.afterWidth_wide {need : Nat} (s : State) (ho : t.who pr = some o) (hn : need ≤ maskCount o.p.quads) :
    s.afterWidth (t, pr, bad) need false = t := by
  simp only [State.afterWidth, ho, decide_eq_true hn, Bool.not_false, Bool.and_self, if_true]

/-- The fused part holds fewer: WIDTH is raised, after its event. -/
theorem State.afterWidth_narrow {need : Nat} (s : State) (ho : t.who pr = some o) (hn : maskCount o.p.quads < need) :
    s.afterWidth (t, pr, bad) need false = (t.waveEvent o 7 o.p.quads o.p.pc).takeTrap o.pr
      { TrapInfo.plain codeWidth o.p.pc with val := BitVec.ofNat 32 need, evt := some 7 } := by
  simp only [State.afterWidth, ho, decide_eq_false (Nat.not_le.mpr hn), Bool.not_false, Bool.and_true, Bool.false_eq_true,
    if_false]

/-- The timeout came first: WIDTH is raised, and the timeout is the event. -/
theorem State.afterWidth_late {need : Nat} (s : State) (ho : t.who pr = some o) :
    s.afterWidth (t, pr, bad) need true = t.takeTrap o.pr
      { TrapInfo.plain codeWidth o.p.pc with val := BitVec.ofNat 32 need, evt := some 7 } := by
  simp only [State.afterWidth, ho, Bool.not_true, Bool.and_false, Bool.false_eq_true, if_false, if_true]

theorem exec_implicitKnitFuse_meets (he : s.episodeAt wave pc true = some (w, e))
    (hhere : (s.logged wave w e).here w = true) (hr : s.replayAllows wave 6 (episodeQuads w (s.logged wave w e)) = true)
    (hm : (s.logged wave w e).meets w = true) : exec (.implicitKnitFuse wave pc) s =
      .next (s.afterWidth ((s.leaveKnit wave e (s.logged wave w e)).fuse wave (s.logged wave w e) 6)
        ((s.logged wave w e).needs w) false) := by
  simp only [exec_implicitKnitFuse, stepImplicitKnitFuse, he, hm, hhere, hr, Bool.and_self, if_true]

theorem exec_implicitKnitTimeout_apart (he : s.episodeAt wave pc true = some (w, e))
    (hhere : (s.logged wave w e).here w = true) (hr : s.replayAllows wave 7 (episodeQuads w (s.logged wave w e)) = true)
    (hc : e.timer = 0 ∨ s.inReplay wave w = true) (hout : s.reserveOut wave = false)
    (hm : (s.logged wave w e).meets w = false) : exec (.implicitKnitTimeout wave pc) s =
      .next (s.afterWidth ((s.leaveKnit wave e (s.logged wave w e)).fuse wave (s.logged wave w e) 7)
        ((s.logged wave w e).needs w) true) := by
  have hclock : (decide (e.timer = 0) || s.inReplay wave w) = true := by simpa using hc
  simp only [exec_implicitKnitTimeout, stepImplicitKnitTimeout, he, hclock, hm, hhere, hout, hr, Bool.not_false,
    Bool.and_self, if_true]

end

/-! ### What fusing gives, and what it asks (R259, R261) -/

theorem mem_fusePart_prior {a b : Part} {i : Nat} : i ∈ (fusePart a b).prior ↔ i ∈ a.prior ∨ i ∈ b.prior := by
  simp only [fusePart, List.mem_append, List.mem_filter, Bool.not_eq_true', List.contains_eq_mem, decide_eq_false_iff_not]
  tauto

/-- Two parts match when their stacks' entries have the same PCs, so the same depth, and their repeats agree. -/
theorem knitMatch_iff {a b : Part} : knitMatch a b = true ↔ a.stack.map (·.pc) = b.stack.map (·.pc) ∧
    (a.rep = none ∧ b.rep = none ∨ ∃ r q, a.rep = some r ∧ b.rep = some q ∧ r.start = q.start ∧ r.stop = q.stop ∧
      r.rem = q.rem) := by
  unfold knitMatch
  cases ha : a.rep <;> cases hb : b.rep <;> simp [and_assoc]

/-- Settles O45: an event finds its episode and passes its guard; the part that the fuse gives is there, so it goes on, or
WIDTH is raised before its instruction. -/
theorem knitsFuse : Obligations.KnitsFuse := by
  refine ⟨fun s wave pc impl w e code t pr bad o he ho => ⟨?fuse, fun hhere hr hf => ⟨?timeout, ?wide, ?narrow, ?apart⟩⟩,
    fun a b => ⟨rfl, rfl, rfl, rfl, fun i => mem_fusePart_prior, knitMatch_iff⟩⟩
  case fuse =>
    rintro rfl
    exact exec_knitFuse_full he ho
  case timeout =>
    rintro rfl rfl
    exact exec_knitTimeout_late he hhere hr hf
  case wide =>
    rintro rfl rfl hm hn
    rw [exec_implicitKnitFuse_meets he hhere hr hm, hf, State.afterWidth_wide s ho hn]
  case narrow =>
    rintro rfl rfl hm hn
    rw [exec_implicitKnitFuse_meets he hhere hr hm, hf, State.afterWidth_narrow s ho hn]
    rfl
  case apart =>
    rintro rfl rfl hc hout hm
    rw [exec_implicitKnitTimeout_apart he hhere hr hc hout hm, hf, State.afterWidth_late s ho]
    rfl

end Sys2Proof.Machine
end

section
/-! PROOFS. Repeats and exits (R263, R269 to R272, R437), the spills and refills of a part's stack (R252), and the cut of a
miss (R255). -/

namespace Sys2Proof.Machine

open Sys2Proof

/-! ### Repeats (R269, R270) -/

section
variable {s : State} {o : Who} {x : FlowOp} {stop : Dword}

theorem repCheck_ok (hr : o.p.rep = none) (ht : flowTarget o.p.pc x = some stop) : repCheck x o s = (s, .ok stop) := by
  simp only [repCheck, hr, ht, Option.isSome_none, Bool.false_eq_true, if_false]

theorem exec_rep_starts (h : Clear s o (.rep x) []) (hr : o.p.rep = none) (ht : flowTarget o.p.pc x = some stop) :
    exec (.rep x) s = .next (((s.begin o (.rep x)).startRepeat o stop (s.scalar o x.cond 0)).settle) := by
  rw [exec_rep, execRep, State.issueWith_clear h (repCheck_ok hr ht), State.begin_scalar]

theorem exec_lpin_starts (h : Clear s o (.lpin x) []) (hr : o.p.rep = none) (ht : flowTarget o.p.pc x = some stop) :
    exec (.lpin x) s = .next (
      let t := (s.begin o (.lpin x)).startRepeat o stop (s.scalar o x.cond 0)
      (if s.scalar o x.cond 0 = 0 then t else t.pinBody o (successor o.p.pc) stop).settle) := by
  rw [exec_lpin, execLpin, State.issueWith_clear h (repCheck_ok hr ht), State.begin_scalar]

end

/-! ### Exits (R263, R272, R437) -/

section
variable {s : State} {o : Who} {x : CtlOp}

/-- Other lanes of the wave stay: the part's lanes exit, and what remains of it goes on. -/
theorem exec_exit_some (h : Clear s o (.exit x) []) (hc : s.exitCheck o x = (s, .ok ()))
    (hl : lastExit o (o.lanes x.h) = false) : exec (.exit x) s = .next (
      let t := (s.begin o (.exit x)).exitLanes o (o.lanes x.h)
      let left := o.p.quads &&& ~~~ goneQuads o (o.lanes x.h)
      if left = 0 then t.settle else (t.advance { wave := o.pr.wave, part := lowQuad left }).settle) := by
  rw [exec_exit, execExit, State.issueWith_clear h hc]
  simp only [hl, Bool.false_eq_true, if_false]

/-- The wave's last lanes exit with nothing of it outstanding: it ends, or the first of its faults is taken. -/
theorem exec_exit_last (h : Clear s o (.exit x) []) (hc : s.exitCheck o x = (s, .ok ()))
    (hl : lastExit o (o.lanes x.h) = true) (hw : s.exitWait o = none) :
    exec (.exit x) s = .next ((s.begin o (.exit x)).endOrFault o (o.lanes x.h)) := by
  have hnone : (s.begin o (.exit x)).exitWait o = none := hw
  rw [exec_exit, execExit, State.issueWith_clear h hc]
  simp only [hl, hnone, if_true]

end

/-- Settles O27: each instruction passes its checks; a count of 0 skips the body, and an exit goes by the lanes and faults
that are left. -/
theorem repeatsAndExitsComplete : Obligations.RepeatsAndExitsComplete := by
  refine ⟨fun s o x stop hr ht => ⟨fun h => ?rep, fun h => ?lpin⟩, fun s o x h hc => ⟨?stays, ?leaves, ?ends, ?faults⟩⟩
  case rep =>
    rw [exec_rep_starts h hr ht]
    exact ⟨fun hn => by rw [State.startRepeat, if_pos hn], fun hn => by rw [State.startRepeat, if_neg hn]⟩
  case lpin =>
    rw [exec_lpin_starts h hr ht]
    exact ⟨fun hn => by simp only [State.startRepeat, if_pos hn], fun hn => by simp only [State.startRepeat, if_neg hn]⟩
  case stays =>
    intro hl hn
    rw [exec_exit_some h hc hl]
    exact congrArg Host.Outcome.next (if_neg hn)
  case leaves =>
    intro hl hn
    rw [exec_exit_some h hc hl]
    exact congrArg Host.Outcome.next (if_pos hn)
  case ends =>
    intro hl hw hf
    rw [exec_exit_last h hc hl hw, State.endOrFault, hf]
  case faults =>
    intro hl hw t w hf
    rw [exec_exit_last h hc hl hw, State.endOrFault, hf]

/-! ### Spills and refills (R252, R363) -/

section
variable {s t u : State} {p : PartRef} {o : Who} (ho : s.who p = some o) (hst : o.p.status = .resident)
include ho hst

theorem exec_stackSpillDone_written (hh : o.p.hold = .spill true) (hd : s.writeDeep o = (t, true)) :
    exec (.stackSpillDone p) s = .next (t.modPart p fun q => { q with hold := .no, stall := 0 }) := by
  simp only [exec_stackSpillDone, stepStackSpillDone, ho, hh, hst, hd, if_true]

theorem exec_stackSpillDone_fails (hh : o.p.hold = .spill true) (hd : s.writeDeep o = (t, false)) :
    exec (.stackSpillDone p) s = .next (t.beginReset o.u.ctl o.u.ctx) := by
  simp only [exec_stackSpillDone, stepStackSpillDone, ho, hh, hst, hd, if_true, Bool.false_eq_true, if_false]

theorem exec_stackSpillDone_refilled {b : List Byte} (hh : o.p.hold = .spill false)
    (hr : s.devRead o.asid (o.stackAt (o.p.stack.length - 8)) 2 = (u, .ok b)) (hd : u.writeDeep o = (t, true)) :
    exec (.stackSpillDone p) s = .next (t.modPart p fun q => { q with hold := .no, stall := 0 }) := by
  simp only [exec_stackSpillDone, stepStackSpillDone, ho, hh, hst, hr, hd, if_true, Bool.false_eq_true, if_false]

end

/-! ### The cut of a miss (R255) -/

theorem exec_missCut_cuts {s t : State} {p : PartRef} {o c : Who} {x : CtlOp} {k : Nat} {q : QuadMask}
    (h : Waits s p o (.waitn x)) (hq : s.satisfied o (waitnArgs o x).1 (waitnArgs o x).2 = q) (hsome : q ≠ 0)
    (hnot : q ≠ o.p.quads) (htimer : o.p.timer = 0) (hcutp : o.cutp.getLsbD 1 = true) (hout : s.reserveOut p.wave = false)
    (hr : s.replayAllows p.wave 1 q = true) (hk : s.freeSlot o.u o.g.unit o.g.core o.w.sched = some k)
    (ht : (s.cut o q o.p.pc o.p.pc 1 k).modPart { wave := p.wave, part := lowQuad (o.p.quads &&& ~~~ q) }
      (fun r => { r with timer := 2 ^ (o.cutp.extractLsb' 4 4).toNat }) = t)
    (hc : t.who { wave := p.wave, part := lowQuad q } = some c) : exec (.missCut p) s = .next (t.passWaitn c x) := by
  obtain ⟨hwho, hhold, hstatus⟩ := h
  simp only [exec_missCut, stepMissCut, hwho, hhold, hstatus, hq, bne_iff_ne.mpr hsome, bne_iff_ne.mpr hnot, htimer, hcutp,
    hout, hr, hk, ht, hc, decide_true, Bool.true_or, Bool.not_false, Bool.and_self, if_true]

/-- Settles O44: a part that spills or refills finds its accesses as they end, and a cut its guard, its slot and the part
of the quads that go on. -/
theorem spillsAndMissCuts : Obligations.SpillsAndMissCuts := by
  refine ⟨fun s t u p o ho hst => ⟨exec_stackSpillDone_written ho hst, exec_stackSpillDone_fails ho hst,
    fun hh b => exec_stackSpillDone_refilled ho hst hh⟩, fun s p o c x k h => ?cut⟩
  intro q hsome hnot htimer hcutp hout hr hk t hc
  have harg : x.imm.toNat % 16 = (waitnArgs o x).1 := by simp [waitnArgs]
  have hdelay : o.cutp.toNat / 16 % 16 = (o.cutp.extractLsb' 4 4).toNat := by simp [Nat.shiftRight_eq_div_pow]
  exact exec_missCut_cuts h (by rw [← harg]; rfl) hsome hnot htimer hcutp hout hr hk (by rw [← hdelay]) hc

end Sys2Proof.Machine
end

section
/-! PROOFS. What charging a bucket changes (R323, R325), and what the records of logs and of system software leave of groups,
units and contexts. -/

namespace Sys2Proof.Machine

open Sys2Proof

/-! ### Charges (R323, R325) -/

/-- A state as another but for what charging a bucket changes: the buckets and the packets under way. -/
def State.Charged (s t : State) : Prop := t = { s with buckets := t.buckets, net := t.net }

namespace State.Charged

theorem refl (s : State) : s.Charged s := rfl

theorem trans {s t u : State} (h : s.Charged t) (g : t.Charged u) : s.Charged u := by
  unfold State.Charged at *
  rw [h] at g
  exact g

theorem inject (s : State) (p : Packet) : s.Charged (s.inject p) := by
  unfold State.inject
  dsimp only
  split <;> rfl

theorem askBucket (s : State) (p : Packet) : s.Charged (s.askBucket p) := by
  unfold State.askBucket
  dsimp only
  split
  · exact inject s p
  · rfl

theorem account (s : State) (port cls flits back n : Nat) : s.Charged (s.account port cls flits back n) := by
  unfold State.account
  split
  · exact refl s
  · exact List.foldlRecOn (motive := fun t => s.Charged t) _ _ (refl s) fun t h _ _ => h.trans (askBucket t _)

theorem ioAsk (s : State) : s.Charged s.ioAsk := account _ _ _ _ _ _

variable {s t : State} (h : s.Charged t)
include h

theorem eq_with : t = { s with buckets := t.buckets, net := t.net } := h

theorem mem : t.mem = s.mem := by rw [h.eq_with]

theorem boot : t.boot = s.boot := by rw [h.eq_with]

theorem ctx (n : Nat) : t.ctx n = s.ctx n := by
  rw [h.eq_with]
  rfl

theorem ctxValid (n : Nat) : t.ctxValid n = s.ctxValid n := by
  have hd : t.descWords n = s.descWords n := by
    rw [h.eq_with]
    rfl
  rw [State.ctxValid, State.ctxValid, hd]

end State.Charged

/-! ### Contexts -/

theorem State.ctx_modCtx_same (s : State) (n : Nat) (f : Context → Context) : (s.modCtx n f).ctx n = f (s.ctx n) := by
  rw [State.ctx, State.modCtx_ctxs, Tbl.get_put_same, Option.getD_some]

theorem State.ctx_modCtx_other (s : State) {n k : Nat} (f : Context → Context) (h : k ≠ n) :
    (s.modCtx n f).ctx k = s.ctx k := by
  rw [State.ctx, State.modCtx_ctxs, Tbl.get_put_other _ _ h, State.ctx]

/-! ### Groups, units and contexts, as records are written (R364, R380, R391, R398) -/

/-- Two states have the same groups, units and contexts. -/
structure State.SameWork (s t : State) : Prop where
  groups : t.groups = s.groups
  units : t.units = s.units
  ctxs : t.ctxs = s.ctxs

theorem State.Charged.sameWork {s t : State} (h : s.Charged t) : s.SameWork t := by
  rw [h.eq_with]
  exact ⟨rfl, rfl, rfl⟩

namespace State.SameWork

theorem refl (s : State) : s.SameWork s := ⟨rfl, rfl, rfl⟩

theorem trans {s t u : State} (h : s.SameWork t) (g : t.SameWork u) : s.SameWork u :=
  ⟨g.groups.trans h.groups, g.units.trans h.units, g.ctxs.trans h.ctxs⟩

theorem foldl {β : Type} {f : State → β → State} (h : ∀ (s : State) (b : β), s.SameWork (f s b)) (l : List β) (s : State) :
    s.SameWork (l.foldl f s) :=
  List.foldlRecOn (motive := fun t => s.SameWork t) _ _ (refl s) fun t ht b _ => ht.trans (h t b)

theorem ctx {s t : State} (h : s.SameWork t) (n : Nat) : t.ctx n = s.ctx n := by
  rw [State.ctx, h.ctxs, State.ctx]

theorem request (s : State) (id port cls : Nat) (write lines : Bool) (l : List Loc) :
    s.SameWork (s.request id port cls write lines l) := by
  refine foldl (fun s e => ?_) _ _
  split
  · exact (State.Charged.askBucket _ _).sameWork
  · exact (State.Charged.account _ _ _ _ _ _).sameWork

theorem ask (s : State) (port cls : Nat) (write : Bool) (l : Loc) (n : Nat) : s.SameWork (s.ask port cls write l n) :=
  request _ _ _ _ _ _ _

theorem setBytes_dev (s : State) (a : Nat) (d : List Byte) : s.SameWork (s.setBytes (.dev a) d) := by
  unfold State.setBytes
  dsimp only
  split <;> exact ⟨rfl, rfl, rfl⟩

theorem dropFixed (s : State) (l : Loc) : s.SameWork (s.dropFixed l) := by
  unfold State.dropFixed
  split <;> exact ⟨rfl, rfl, rfl⟩

/-- An accumulator of device memory is written to device memory. -/
theorem resolveFixed_dev (s : State) (a : Nat) : s.SameWork (s.resolveFixed (.dev a)) := by
  unfold State.resolveFixed
  split
  · exact refl s
  · refine (dropFixed s (.dev a)).trans ?_
    dsimp only
    split
    · exact setBytes_dev _ _ _
    · refine foldl (fun s e => ?_) _ _
      split
      · exact refl s
      · exact setBytes_dev _ _ _

theorem writeAt_dev (s : State) (a : Nat) (d : List Byte) : s.SameWork (s.writeAt (.dev a) d) :=
  (foldl (fun t _ => resolveFixed_dev t _) _ _).trans (setBytes_dev _ _ _)

theorem queuePut (s : State) (cluster base lg size : Nat) (r : List Byte) :
    s.SameWork (s.queuePut cluster base lg size r).1 := by
  unfold State.queuePut
  dsimp only
  split
  · exact refl s
  · split
    · exact refl s
    · split
      · exact refl s
      · exact ((((ask _ _ _ _ _ _).trans (ask _ _ _ _ _ _)).trans (writeAt_dev _ _ _)).trans (writeAt_dev _ _ _)).trans
          ⟨rfl, rfl, rfl⟩

/-- A record that finds no room in its queue waits in its cluster. -/
theorem putTrap (s : State) (core n : Nat) (r : List Byte) : s.SameWork (s.putTrap core n r).1 := by
  have wait : s.SameWork (if (s.cluster (clusterOf core)).tbuf.length < 32 then
      (s.modCluster (clusterOf core) fun c => { c with tbuf := c.tbuf ++ [(n, r)] }, Put.done) else (s, Put.full)).1 := by
    split <;> exact ⟨rfl, rfl, rfl⟩
  unfold State.putTrap
  dsimp only
  split
  · exact wait
  · next base lg irq _ =>
    have h := queuePut s (clusterOf core) base lg 128 r
    split
    · next t hq =>
      rw [hq] at h
      refine h.trans ?_
      dsimp only
      split <;> exact ⟨rfl, rfl, rfl⟩
    · exact wait
    · next t hq =>
      rw [hq] at h
      exact h

theorem nextSeq (s : State) (k : Nat) : s.SameWork (s.nextSeq k).1 := ⟨rfl, rfl, rfl⟩

theorem assay (s : State) (d : Nat) (r : List Byte) : s.SameWork (s.assay d r) := ⟨rfl, rfl, rfl⟩

theorem platformAll (s : State) (code ctx data : Nat) : s.SameWork (s.platformAll code ctx data) :=
  foldl (f := fun s d => s.platform d code ctx data 0) (fun _ _ => ⟨rfl, rfl, rfl⟩) _ _

theorem ringPut (s : State) (port : Option Nat) (base size : Nat) (r : List Byte) :
    s.SameWork (s.ringPut port base size r) := by
  unfold State.ringPut
  split
  · exact refl s
  · split
    · exact setBytes_dev _ _ _
    · refine SameWork.trans (SameWork.trans (SameWork.trans ?_ (setBytes_dev _ _ _)) (setBytes_dev _ _ _)) ⟨rfl, rfl, rfl⟩
      split
      · exact (ask _ _ _ _ _ _).trans (ask _ _ _ _ _ _)
      · exact refl s

/-- Outside replay an event enters its ring and its die's assay, and consumes no record. -/
theorem event {u : WorkUnit} (s : State) (k : Nat) (e : EvRec) (hm : u.mode < 2) : s.SameWork (s.event k u e) := by
  have h3 : u.mode ≠ 3 := by omega
  have hreplay : s.replayEvent k u e = s := by
    simp only [State.replayEvent, bne_iff_ne.mpr h3, Bool.true_or, if_true]
  have hseq := nextSeq s k
  unfold State.event
  simp only [hreplay, decide_eq_false h3, Bool.false_and, Bool.false_eq_true, if_false]
  split
  · generalize s.nextSeq k = n at hseq ⊢
    have hput : s.SameWork (if writesEvent u e then n.1.ringPut (some (clusterOf k)) (u.ering k) u.esize
        (evBytes n.1.time.toNat n.2 k e) else n.1) := by
      split
      · exact hseq.trans (ringPut _ _ _ _ _)
      · exact hseq
    generalize (if writesEvent u e then n.1.ringPut (some (clusterOf k)) (u.ering k) u.esize
        (evBytes n.1.time.toNat n.2 k e) else n.1) = v at hput ⊢
    split
    · exact hput.trans (assay _ _ _)
    · exact hput
  · exact refl s

end State.SameWork

end Sys2Proof.Machine
end

section
/-! PROOFS. Jobs as they are taken in, and units of work as they go through their states (R277, R280 to R288, R350, R415). -/

namespace Sys2Proof.Machine

open Sys2Proof

/-! ### The intake of jobs (R350, R415) -/

/-- A count of 16 bits stays at its greatest value. -/
theorem toNat_satUp (x : BitVec 16) : (satUp x).toNat = min (x.toNat + 1) 65535 := by
  have hx := x.isLt
  unfold satUp
  split
  · next h => rw [h, BitVec.toNat_allOnes]; rfl
  · next h =>
    have hne : x.toNat ≠ 65535 := fun e => h (BitVec.eq_of_toNat_eq (by rw [BitVec.toNat_allOnes, e]))
    have hadd : (x + 1).toNat = (x.toNat + 1) % 2 ^ 16 := BitVec.toNat_add x 1
    omega

/-- What a context takes of a write of JOBADDR. -/
def Context.takeJob (c : Context) (a : Dword) (taken : Bool) : Context :=
  if taken then { c with intake := c.intake ++ [a], accepted := c.accepted + 1 } else { c with dropped := satUp c.dropped }

/-- The conditions under which a write of JOBADDR is a job: an aligned address for a valid context with room. -/
def State.takesJob (s : State) (n : Nat) (a : Dword) (size : Nat) : Bool :=
  size = 8 && s.boot.ready && s.ctxValid n && a.toNat % 64 = 0 && (s.ctx n).intake.length < 64

section
variable {s t u v : State} {n : Nat} {a : Dword} {size : Nat}

theorem exec_jobaddrWrite_up (hl : 1 ≤ n) (hu : n ≤ 1023) (hlink : s.linkUp = true) (hio : s.ioWaits = false) :
    exec (.jobaddrWrite n a size) s = .next (s.ioAsk.modCtx n fun c => c.takeJob a (s.takesJob n a size)) := by
  have hrange : (decide (n = 0) || decide (1023 < n)) = false := by
    simp only [decide_eq_false (Nat.ne_of_gt hl), decide_eq_false (Nat.not_lt.mpr hu), Bool.or_self]
  have hc := State.Charged.ioAsk s
  simp only [exec_jobaddrWrite, stepJobaddrWrite, hrange, hlink, hio, hc.boot, hc.ctxValid, hc.ctx, Bool.not_true,
    Bool.or_self, Bool.false_eq_true, if_false]
  unfold Context.takeJob State.takesJob
  split <;> rfl

/-- The oldest entry's record can be read: it becomes a job that waits. -/
theorem exec_jobIntake_reads {r : List Dword} {d : List Byte} (hi : (s.ctx n).intake = a :: r)
    (hr : (s.ctx n).resets = false) (hh : (s.ctx n).heldOn = none) (hl : s.hostLine n .read a = none)
    (hg : s.getRecord 3 n a 0 4 = (t, .data d)) : exec (.jobIntake n) s =
      .next ((t.modCtx n fun c => { c with intake := r }).addUnit { blankUnit .job n false none a with
        words := bytesWords d, prio := field (nth (bytesWords d) 0).toNat 17 16 }).1 := by
  simp only [exec_jobIntake, stepJobIntake, hi, hr, hh, hl, hg, Option.isSome_none, Bool.or_self, Bool.false_eq_true,
    if_false]

end

/-! ### Units as they wait and are checked (R280, R281, R285, R286) -/

section
variable {s t : State} {unit job : Nat} {u v j : WorkUnit} {d : List Byte} (hu : s.units.get unit = some u)
  (hc : u.cancel = false) (hh : u.heldOn = none)
include hu hc hh

theorem exec_unitLeaveWaiting_launch_or_draw (hs : u.state = .waiting) (hk : u.kind = .launch ∨ u.kind = .draw) :
    exec (.unitLeaveWaiting unit) s = .next (s.modUnit unit fun x => { x with state := .checking }) := by
  rcases hk with hk | hk <;>
    simp only [exec_unitLeaveWaiting, stepUnitLeaveWaiting, hu, hc, hh, hs, hk, bne_self_eq_false, Option.isSome_none,
      Bool.or_self, Bool.false_eq_true, if_false]

/-- A unit whose fate is known ends by it. -/
theorem exec_unitChecking_fate {st c : Nat} (hs : u.state = .checking) (hf : u.fate = some (st, c)) :
    exec (.unitChecking unit) s = .next (s.endUnit unit st c) := by
  simp only [exec_unitChecking, stepUnitChecking, hu, hc, hh, hs, hf, bne_self_eq_false, Option.isSome_none, Bool.or_self,
    Bool.false_eq_true, if_false]

section
variable (hs : u.state = .checking) (hf : u.fate = none)
include hs hf

theorem exec_unitChecking_draw (hk : u.kind = .draw) :
    exec (.unitChecking unit) s = .next (s.modUnit unit fun x => { x with state := .running }) := by
  simp only [exec_unitChecking, stepUnitChecking, hu, hc, hh, hs, hf, hk, bne_self_eq_false, Option.isSome_none,
    Bool.or_self, Bool.false_eq_true, if_false]

/-- A launch off its alignment is refused before its record is read. -/
theorem exec_unitChecking_misaligned (hk : u.kind = .launch) (ha : u.addr.toNat % 256 ≠ 0) :
    exec (.unitChecking unit) s = .next (s.refuse unit 11) := by
  simp only [exec_unitChecking, stepUnitChecking, hu, hc, hh, hs, hf, hk, bne_self_eq_false, Option.isSome_none,
    Bool.or_self, Bool.false_eq_true, if_false, bne_iff_ne.mpr ha, if_true]

section
variable (hk : u.kind = .launch) (ha : u.addr.toNat % 256 = 0) (hr : s.fetchRecord unit = (t, true))
  (hv : t.units.get unit = some v)
include hk ha hr hv

/-- A launch whose record is read is refused for its lowest cause. -/
theorem exec_unitChecking_refuses {c : Nat} (hl : launchCause v (t.kindWanted v) = some c) :
    exec (.unitChecking unit) s = .next (t.refuse unit c) := by
  simp only [exec_unitChecking, stepUnitChecking, hu, hc, hh, hs, hf, hk, ha, hr, hv, hl, bne_self_eq_false,
    Option.isSome_none, Bool.or_self, Bool.false_eq_true, if_false]

/-- It runs where the record meets none. -/
theorem exec_unitChecking_runs (hl : launchCause v (t.kindWanted v) = none) : exec (.unitChecking unit) s =
    .next (t.modUnit unit fun x => { x with state := .running, stage := if (x.d 0x50).toNat = 0 then 2 else 0 }) := by
  simp only [exec_unitChecking, stepUnitChecking, hu, hc, hh, hs, hf, hk, ha, hr, hv, hl, bne_self_eq_false,
    Option.isSome_none, Bool.or_self, Bool.false_eq_true, if_false]

end

/-- A job whose record and phase table pass runs its phases. -/
theorem exec_unitChecking_job (hk : u.kind = .job) (hj : jobCause u = none) (ha : (u.d 8).toNat % 16 = 0)
    (hg : s.getRecord 3 u.asid (u.d 8) 0 (u.n 4) = (t, .data d))
    (hp : (wordRows (u.n 4) d).any phaseEntryBad = false) : exec (.unitChecking unit) s =
      .next ((t.modUnit unit fun x => { x with state := .running }).makePhases unit u (wordRows (u.n 4) d)) := by
  simp only [exec_unitChecking, stepUnitChecking, hu, hc, hh, hs, hf, hk, hj, ha, hg, hp, bne_self_eq_false,
    Option.isSome_none, Option.any_none, Bool.or_self, Bool.false_eq_true, if_false]

/-- A phase's items become its units, or, where one is not legal, refuse the job. -/
theorem exec_unitChecking_phase (hk : u.kind = .phase) (hp : u.parent = some job) : exec (.unitChecking unit) s =
    .next (if u.lists.any (itemBad u.gfx) then s.modUnit job fun x => { x with cause := 2 }
      else u.lists.foldl (fun s e => s.makeItem unit u e) (s.modUnit unit fun x => { x with state := .running })) := by
  simp only [exec_unitChecking, stepUnitChecking, hu, hc, hh, hs, hf, hk, hp, bne_self_eq_false, Option.isSome_none,
    Bool.or_self, Bool.false_eq_true, if_false]

end

omit hh in
theorem exec_phaseStart_reads (hk : u.kind = .phase) (hs : u.state = .waiting) (hp : u.parent = some job)
    (hj : s.units.get job = some j) (hr : j.state = .running) (he : j.ended = u.index) (hw : j.worst = 0)
    (hz : j.cause = 0) (hjh : j.heldOn = none)
    (hg : s.getRecord 3 u.asid u.addr 0 (nth u.words 2).toNat = (t, .data d)) : exec (.phaseStart unit) s =
      .next (t.modUnit unit fun x => { x with state := .checking, lists := wordRows (nth u.words 2).toNat d }) := by
  simp only [exec_phaseStart, stepPhaseStart, hu, hc, hk, hs, hp, hj, hr, he, hw, hz, hjh, hg, Option.bind_some,
    bne_self_eq_false, Option.isSome_none, Bool.or_self, Bool.false_eq_true, if_false]

end

/-- The lowest cause is none where no condition is met. -/
theorem lowestCause_eq_none {l : List (Nat × Bool)} (h : lowestCause l = none) : ∀ e ∈ l, e.2 = false := by
  have hnil : ∀ m : List Nat, leastBy id m = none → m = [] := by
    intro m hm
    cases m with
    | nil => rfl
    | cons a r =>
      simp only [leastBy] at hm
      split at hm
      · cases hm
      · split at hm <;> cases hm
  simpa using hnil _ h

/-- A job's record that meets no cause has its phase table on its alignment. -/
theorem aligned_of_jobCause {u : WorkUnit} (h : jobCause u = none) : (u.d 8).toNat % 16 = 0 := by
  have hfalse := lowestCause_eq_none h (11, (u.d 8).toNat % 16 != 0) (by simp)
  simpa using hfalse

/-! ### Nodes of a graph (R285) -/

/-- The state of a graph's node that has become a launch. -/
def State.nodeState (s : State) (unit p : Nat) : Option UnitState :=
  ((s.children unit).find? fun k => k.2.index = p).map fun k => k.2.state

/-- The launch that a node of a graph becomes. -/
def WorkUnit.nodeLaunch (u : WorkUnit) (unit node : Nat) : WorkUnit :=
  { u.child .launch (some unit) (pair (nth (u.lists.getD node []) 0) (nth (u.lists.getD node []) 1)) with
    words := (u.lists.getD node []).drop 4, index := node }

section
variable {s : State} {unit node : Nat} {u : WorkUnit} (hu : s.units.get unit = some u) (hc : u.cancel = false)
  (hk : u.kind = .graph) (hs : u.state = .running) (hn : node < u.lists.length)
  (hnew : (s.children unit).any (fun k => k.2.index = node) = false)
include hu

/-- A node whose predecessors have not all ended stays. -/
theorem exec_graphNodeStart_waits {p : Nat} (hp : p ∈ nodePreds (u.lists.getD node []))
    (hw : ∀ c, s.nodeState unit p ≠ some (.ended c)) : exec (.graphNodeStart unit node) s = .next s := by
  simp only [exec_graphNodeStart, stepGraphNodeStart, hu]
  refine congrArg Host.Outcome.next (if_pos (Bool.or_eq_true _ _ |>.mpr (.inr (List.any_eq_true.mpr
    ⟨_, List.mem_map_of_mem hp, ?_⟩))))
  split
  · next c h => exact absurd h (hw c)
  · rfl

include hc hk hs hn hnew

/-- A node whose predecessors have ended becomes a launch, a cancelled one that ends at once where one of them did not end
done. -/
theorem exec_graphNodeStart_due (he : ∀ p ∈ nodePreds (u.lists.getD node []), ∃ c, s.nodeState unit p = some (.ended c)) :
    exec (.graphNodeStart unit node) s = .next (
      let gone := ((nodePreds (u.lists.getD node [])).map (s.nodeState unit)).any fun p => p != some (UnitState.ended 0)
      let r := s.addUnit { u.nodeLaunch unit node with cancel := gone }
      if gone then r.1.endUnit r.2 1 0 else r.1) := by
  simp only [exec_graphNodeStart, stepGraphNodeStart, hu, hc, hk, hs, hnew, decide_eq_false (Nat.not_le.mpr hn),
    bne_self_eq_false, Bool.or_self, Bool.false_or]
  refine congrArg Host.Outcome.next (if_neg (Bool.not_eq_true _ |>.mpr (List.any_eq_false.mpr fun x hx => ?_)))
  obtain ⟨p, hp, rfl⟩ := List.mem_map.mp hx
  obtain ⟨c, hpc⟩ := he p hp
  unfold State.nodeState at hpc
  simp [hpc]

end

/-! ### Ends, and the stage of a launch's weights (R277, R287, R288) -/

theorem exec_unitEnd_ends {s t : State} {unit st c : Nat} {u : WorkUnit} (hu : s.units.get unit = some u)
    (he : s.endStatus unit u = some (st, c)) (hb : s.blockFor unit = (t, true)) :
    exec (.unitEnd unit) s = .next (t.endUnit unit st c) := by
  simp only [exec_unitEnd, stepUnitEnd, hu, he, hb]

theorem exec_weightStage_writes {s s1 s2 s3 : State} {unit : Nat} {u : WorkUnit} {h d x : List Byte}
    (hu : s.units.get unit = some u) (hk : u.kind = .launch) (hs : u.state = .running) (hst : u.stage = 0)
    (hc : u.cancel = false) (hh : u.heldOn = none) (h1 : s.getRecord 1 u.asid (u.d 0x50) u.launchix 1 = (s1, .data h))
    (hhead : stageHeaderBad (bytesWords h) = false) {n : Nat} (hn : field (nth (bytesWords h) 0).toNat 15 8 = n)
    {dies : List Nat} (hd : ((List.range 4).filter fun d => nbit (nth (bytesWords h) 0).toNat d) = dies)
    (h2 : s1.getRecord 1 u.asid (u.d 0x50 + 16) u.launchix n = (s2, .data d))
    (hbad : stageBad u (bytesWords h) (wordRows n d) = false)
    (hfree : ∀ k ∈ dies, s2.wsReaders k = false ∧ s2.wsBusy k = false)
    (h3 : s2.stageRows u dies false (wordRows n d) = (s3, .data x, false)) : exec (.weightStage unit) s =
      .next (s3.modUnit unit fun x => { x with stage := 2, lists := [bytesWords h] }) := by
  have hany : dies.any (fun k => s2.wsReaders k || s2.wsBusy k) = false := by
    refine List.any_eq_false.mpr fun k hk => ?_
    obtain ⟨hr, hb⟩ := hfree k hk
    simp [hr, hb]
  simp only [exec_weightStage, stepWeightStage, hu, hk, hs, hst, hc, hh, h1, hhead, hn, hd, h2, hbad, hany, h3,
    bne_self_eq_false, Option.isSome_none, Bool.or_self, Bool.false_eq_true, if_false]

/-- Settles O54: a write of JOBADDR changes its context alone; every other event finds its unit and takes the branch that
the hypotheses choose. -/
theorem jobsAndUnitsAdvance : Obligations.JobsAndUnitsAdvance := by
  refine ⟨fun s n a size hl hn hlink hio => ⟨_, exec_jobaddrWrite_up hl hn hlink hio, (State.Charged.ioAsk s).mem,
      fun k hk => ?other, ?taken⟩,
    fun s t n unit a r d u j job => ⟨exec_jobIntake_reads, fun hu hc hh => ⟨exec_unitLeaveWaiting_launch_or_draw hu hc hh,
      fun st c => exec_unitChecking_fate hu hc hh, fun hs hk hf => ⟨exec_unitChecking_misaligned hu hc hh hs hf hk,
        fun ha hr v hv => ⟨fun c => exec_unitChecking_refuses hu hc hh hs hf hk ha hr hv,
          exec_unitChecking_runs hu hc hh hs hf hk ha hr hv⟩⟩,
      fun hs hk hf hj => exec_unitChecking_job hu hc hh hs hf hk hj (aligned_of_jobCause hj),
      fun hs hk hf => exec_unitChecking_draw hu hc hh hs hf hk, exec_phaseStart_reads hu hc,
      fun hk hs hp hf => ⟨fun hl => ?items, fun hl => ?illegal⟩,
      fun node hk hs hn hnew => ⟨fun hp => ?done, fun he hp => ?cancelled, fun hp => ?stays⟩,
      fun st c => exec_unitEnd_ends hu⟩⟩,
    fun s s1 s2 s3 unit u h d x hu hk hs hst hc hh h1 hhead => exec_weightStage_writes hu hk hs hst hc hh h1 hhead rfl rfl⟩
  case other => rw [State.ctx_modCtx_other _ _ hk, (State.Charged.ioAsk s).ctx]
  case taken =>
    rw [State.ctx_modCtx_same, (State.Charged.ioAsk s).ctx]
    have htakes : s.takesJob n a size = true ↔ size = 8 ∧ s.boot.ready = true ∧ s.ctxValid n = true ∧ a.toNat % 64 = 0 ∧
        (s.ctx n).intake.length < 64 := by simp [State.takesJob, and_assoc]
    split
    · next h =>
      rw [htakes.mpr h]
      exact ⟨rfl, rfl, rfl⟩
    · next h =>
      rw [Bool.eq_false_iff.mpr (mt htakes.mp h)]
      exact ⟨rfl, rfl, toNat_satUp _⟩
  case items => rw [exec_unitChecking_phase hu hc hh hs hf hk hp, hl]; rfl
  case illegal => rw [exec_unitChecking_phase hu hc hh hs hf hk hp, hl]; rfl
  case done =>
    have hgone : ((nodePreds (u.lists.getD node [])).map (s.nodeState unit)).any (fun p => p != some (UnitState.ended 0)) =
        false := by
      refine List.any_eq_false.mpr fun x hx => ?_
      obtain ⟨p, hp', rfl⟩ := List.mem_map.mp hx
      have hstate : s.nodeState unit p = some (.ended 0) := hp p hp'
      simp [hstate]
    have hlive : { u.nodeLaunch unit node with cancel := false } = u.nodeLaunch unit node := by
      rw [← hc]; rfl
    rw [exec_graphNodeStart_due hu hc hk hs hn hnew fun p hp' => ⟨0, hp p hp'⟩, hgone]
    exact congrArg (fun x => Host.Outcome.next (s.addUnit x).1) hlive
  case cancelled =>
    obtain ⟨p, hp, hbad⟩ := hp
    have hgone : ((nodePreds (u.lists.getD node [])).map (s.nodeState unit)).any (fun p => p != some (UnitState.ended 0)) =
        true :=
      List.any_eq_true.mpr ⟨_, List.mem_map_of_mem hp, bne_iff_ne.mpr hbad⟩
    rw [exec_graphNodeStart_due hu hc hk hs hn hnew he, hgone]
    rfl
  case stays =>
    obtain ⟨p, hp, hw⟩ := hp
    exact exec_graphNodeStart_waits hu hp hw

end Sys2Proof.Machine
end

section
/-! PROOFS. Barriers (R302 to R306) and queues (R307, R308): what their instructions check, and what they leave. -/

namespace Sys2Proof.Machine

open Sys2Proof

/-! ### Barriers (R302 to R306) -/

theorem State.begin_readBarr (s : State) (o : Who) (i : Instr) (g a : Nat) : (s.begin o i).readBarr g a = s.readBarr g a := rfl

section
variable {s : State} {o : Who} {x : CtlOp} (hl : s.lsAdmits o (barrOf o x) 16 true = true)
include hl

/-- Nothing of the part holds the barrier's place in replay or by an access that is outstanding. -/
theorem State.placeFree_of_lsAdmits : s.placeBusy o (barrOf o x) 16 = false := by
  simp only [State.lsAdmits, Bool.and_eq_true, Bool.not_eq_true'] at hl
  exact hl.1

/-- The check of a barrier's instruction passes where it finds no trap, and where one that releases waits for no access. -/
theorem State.barrCheck_ok {release : Bool} (ha : release = true → s.accessesOut o = false) :
    s.barrCheck o x none release = (s, .ok ()) := by
  have hout : (release && s.accessesOut o) = false := by
    cases release with
    | false => rfl
    | true => exact ha rfl
  simp only [State.barrCheck, State.placeFree_of_lsAdmits hl, hout, hl, Bool.not_true, Bool.false_eq_true, if_false]

theorem exec_bari_counts (h : Clear s o (.bari x) []) (hp : s.barrPlace o (barrOf o x) = none)
    (h1 : 1 ≤ (s.scalar o x.b 0).toNat) (h2 : (s.scalar o x.b 0).toNat ≤ 256) : exec (.bari x) s =
      .next ((((s.begin o (.bari x)).initBarr o (barrOf o x) (s.scalar o x.b 0).toNat).lsNote o (barrOf o x) 16 true).finish
        o (.bari x)) := by
  have hn : (decide ((s.scalar o x.b 0).toNat = 0) || decide (256 < (s.scalar o x.b 0).toNat)) = false := by
    simp only [decide_eq_false (Nat.ne_of_gt h1), decide_eq_false (Nat.not_lt.mpr h2), Bool.or_self]
  rw [exec_bari, execBari, State.issueWith_clear (s' := s) (a := ()) h, State.begin_scalar]
  simp only [hp, hn, Bool.false_eq_true, if_false]
  exact State.barrCheck_ok hl (fun hr => absurd hr Bool.false_ne_true)

/-- The registrations of a group's waves, as a barrier of the group begins. -/
def Wave.enterBarr (a : Nat) (t : State) (g : Nat) (w : Wave) : Wave :=
  w.putReg { addr := a, reg := w.liveQuads, arr := 0, last := BitVec.ofNat 16 (t.readBarr g a).phase }

theorem exec_bariGroup_enters (h : Clear s o (.bariGroup x) []) (hp : s.barrPlace o (barrOf o x) = none)
    (hr : ∀ w ∈ s.mates o, w.2.liveQuads ≠ 0 → (w.2.regs.filter fun r => r.addr != barrOf o x).length < 8) :
    exec (.bariGroup x) s = .next (
      let b := s.begin o (.bariGroup x)
      let t := b.initBarr o (barrOf o x) (((b.mates o).map fun w => maskCount w.2.liveQuads).foldl (· + ·) 0)
      (State.lsNote { t with waves := t.waves.map fun (w : Nat × Wave) =>
        if w.2.group = o.w.group then (w.1, w.2.enterBarr (barrOf o x) t o.w.group) else w } o (barrOf o x) 16 true).finish
          o (.bariGroup x)) := by
  have hfull : (s.mates o).any (fun w => w.2.liveQuads != 0 &&
      decide (8 ≤ (w.2.regs.filter fun r => r.addr != barrOf o x).length)) = false := by
    refine List.any_eq_false.mpr fun w hw => ?_
    simpa using hr w hw
  refine (exec_bariGroup x s).trans (State.issueWith_clear (s' := s) (a := ()) h ?_)
  simp only [hp, hfull, Bool.false_eq_true, if_false]
  exact State.barrCheck_ok hl (fun hr => absurd hr Bool.false_ne_true)

theorem exec_arrive_adds (h : Clear s o (.arrive x) []) (ht : s.arriveTrap o x = none) (ha : s.accessesOut o = false) :
    exec (.arrive x) s = .next (
      let b := s.readBarr o.w.group (barrOf o x)
      let e := entryOf o (barrOf o x) b
      (((((s.begin o (.arrive x)).writeBarr o.w.group (barrOf o x)
        { b with arrq := b.arrq + maskCount o.p.quads }.settle).modWave o.pr.wave fun w =>
          w.putReg { e with arr := e.arr ||| o.p.quads, reg := e.reg ||| o.p.quads }).lsNote o (barrOf o x) 16 true).writeS o
            x.dst b.phase).finish o (.arrive x)) := by
  refine (exec_arrive x s).trans (State.issueWith_clear (s' := s) (a := ()) h ?_)
  rw [ht]
  exact State.barrCheck_ok hl fun _ => ha

theorem exec_arrdrop_drops (h : Clear s o (.arrdrop x) []) (ht : s.barrTrap o x = none) (ha : s.accessesOut o = false) :
    exec (.arrdrop x) s = .next (
      let b := s.readBarr o.w.group (barrOf o x)
      let e := entryOf o (barrOf o x) b
      let r := dropQuads b e (o.p.quads &&& e.reg)
      ((((s.begin o (.arrdrop x)).writeBarr o.w.group (barrOf o x) r.1).modWave o.pr.wave fun w => w.putReg r.2).lsNote o
        (barrOf o x) 16 true).finish o (.arrdrop x)) := by
  refine (exec_arrdrop x s).trans (State.issueWith_clear (s' := s) (a := ()) h ?_)
  rw [ht]
  exact State.barrCheck_ok hl fun _ => ha

theorem exec_bexpect_adds (h : Clear s o (.bexpect x) []) (ht : s.barrTrap o x = none)
    (hp : (s.readBarr o.w.group (barrOf o x)).pend + (s.scalar o x.b 0).toNat < 2 ^ 32) : exec (.bexpect x) s = .next (
      let b := s.readBarr o.w.group (barrOf o x)
      (((s.begin o (.bexpect x)).writeBarr o.w.group (barrOf o x) { b with pend := b.pend + (s.scalar o x.b 0).toNat }).lsNote
        o (barrOf o x) 16 true).finish o (.bexpect x)) := by
  have hc : s.barrCheck o x none false = (s, .ok ()) :=
    State.barrCheck_ok hl (fun hr => absurd hr Bool.false_ne_true)
  refine (exec_bexpect x s).trans ((State.issueWith_clear (s' := s) (a := ()) h ?_).trans ?_)
  · simp only [ht, if_neg (Nat.not_le.mpr hp), hc]
  · simp only [State.begin_scalar] <;> rfl

theorem exec_bwait_passes (h : Clear s o (.bwait x) []) (ht : s.barrTrap o x = none) (hm : s.barrMoved o x = true)
    (hf : s.barrFault o x = (s, none)) :
    exec (.bwait x) s = .next (((s.begin o (.bwait x)).lsNote o (barrOf o x) 16 false).finish o (.bwait x)) := by
  have hc : s.barrCheck o x none false = (s, .ok ()) :=
    State.barrCheck_ok hl (fun hr => absurd hr Bool.false_ne_true)
  refine (exec_bwait x s).trans (State.issueWith_clear (s' := s) (a := true) h ?_)
  simp only [ht, hc, hm, hf, if_true]

end

/-- A barrier that is due completes its phase. -/
theorem Barr.settle_due {b : Barr} (he : b.expq ≠ 0) (ha : b.arrq = b.expq) (hp : b.pend = 0) : b.settle =
    { arrq := 0, expq := b.expq - b.dropq, phase := (b.phase + 1) % 2 ^ 16, dropq := 0, pend := 0, ovf := b.ovf } := by
  simp only [Barr.settle, bne_iff_ne.mpr he, ha, hp, decide_true, Bool.and_self, if_true]

/-- Any other stays. -/
theorem Barr.settle_not_due {b : Barr} (h : b.expq = 0 ∨ b.arrq ≠ b.expq ∨ b.pend ≠ 0) : b.settle = b := by
  refine if_neg fun hd => ?_
  simp only [Bool.and_eq_true, bne_iff_ne, decide_eq_true_eq] at hd
  obtain ⟨⟨he, ha⟩, hp⟩ := hd
  exact h.elim he (Or.rec (absurd ha) (absurd hp))

/-- Settles O36: each instruction passes the check of its barrier, and goes on from what it reads there. -/
theorem barrierInstructionsComplete : Obligations.BarrierInstructionsComplete := by
  refine ⟨fun s o x hl => ⟨exec_bari_counts hl, exec_bariGroup_enters hl, exec_arrive_adds hl, exec_arrdrop_drops hl,
    exec_bexpect_adds hl, fun h ht hm hf => exec_bwait_passes hl h ht (bne_iff_ne.mpr hm) hf⟩,
    fun b => ⟨Barr.settle_due, Barr.settle_not_due⟩⟩

/-! ### Queues (R307, R308) -/

section
variable {s : State} {o : Who} {x : CtlOp}

theorem exec_qallowInit_empties (h : Clear s o (.qallowInit x) []) (ht : s.ringTrap o x = none) : exec (.qallowInit x) s =
    .next (((s.begin o (.qallowInit x)).setQueue o x
      { base := (o.sreg x.a.num.toNat).toNat, cap := (s.scalar o x.b 0).toNat, head := 0, tail := 0, allow := [],
        push := ((o.queue x).map fun q => q.push).getD [], pop := ((o.queue x).map fun q => q.pop).getD [] }).finish o
          (.qallowInit x)) := by
  rw [exec_qallowInit, execQallowInit, State.issueIf_go h ht, State.begin_scalar]

variable {q : Queue} (hq : o.queue x = some q)
include hq

theorem queueCheck_ok {release : Bool} (ha : release = true → s.accessesOut o = false) :
    queueCheck x release o s = (s, .ok q) := by
  have hout : (release && s.accessesOut o) = false := by
    cases release with
    | false => rfl
    | true => exact ha rfl
  simp only [queueCheck, hq, hout, Bool.false_eq_true, if_false]

theorem exec_qallow_grants (h : Clear s o (.qallow x) []) (hc : q.count + q.granted + (s.scalar o x.a 0).toNat ≤ q.cap)
    (ha : s.accessesOut o = false) : exec (.qallow x) s = .next (((s.begin o (.qallow x)).setQueue o x
      { q with allow := (let w := (s.scalar o x.b 0).toNat % 16
                         q.allow.put w ((q.allow.get w).getD 0 + (s.scalar o x.a 0).toNat)) }).finish o (.qallow x)) := by
  rw [exec_qallow, execQallow, State.issueWith_clear (s' := s) (a := q) h, State.begin_scalar, State.begin_scalar]
  simp only [hq, if_neg (Nat.not_lt.mpr hc), ha, Bool.false_eq_true, if_false]

theorem exec_qpush_pushes (h : Clear s o (.qpush x) []) (ha : s.accessesOut o = false)
    (hc : (s.begin o (.qpush x)).canPush o q = true) :
    exec (.qpush x) s = .next ((s.begin o (.qpush x)).doPush o x q) := by
  rw [exec_qpush, execQpush, State.issueWith_clear (a := q) h (queueCheck_ok hq fun _ => ha), if_pos hc]

theorem exec_qpop_pops (h : Clear s o (.qpop x) []) (hc : (s.begin o (.qpop x)).canPop o q = true) :
    exec (.qpop x) s = .next ((s.begin o (.qpop x)).doPop o x q) := by
  rw [exec_qpop, execQpop,
    State.issueWith_clear (a := q) h (queueCheck_ok hq fun hr => absurd hr Bool.false_ne_true), if_pos hc]

/-- QTRY takes what is at the head, and waits for nothing. -/
theorem exec_qtry_tries (h : Clear s o (.qtry x) []) (hm : s.mayQueue o = true)
    (ha : q.count ≠ 0 → s.lsAdmits o (q.slot q.head) 4 false = true) : exec (.qtry x) s = .next (
      let b := s.begin o (.qtry x)
      (if q.count = 0 then b.writeSS o x.dst 0
        else (((b.lsNote o (q.slot q.head) 4 false).setQueue o x { q with head := q.head + 1 }).writeSS o x.dst
          (2 ^ 32 + (s.popWord o q).1)).popErr o x q (s.popWord o q).2).endQueue o x (.qtry x)) := by
  have hgo : (s.mayQueue o && (decide (q.count = 0) || s.lsAdmits o (q.slot q.head) 4 false)) = true := by
    by_cases hz : q.count = 0
    · simp only [hm, hz, decide_true, Bool.true_or, Bool.and_self]
    · simp only [hm, ha hz, Bool.or_true, Bool.and_self]
  refine (exec_qtry x s).trans (State.issueWith_clear (s' := s) (a := q) h ?_)
  simp only [queueCheck_ok (s := s) hq (release := false) fun hr => absurd hr Bool.false_ne_true, hgo, if_true]

end

/-- Settles O37: an instruction finds its queue and takes the branch that its hypotheses choose; nothing that it reads has
changed since its beginning. -/
theorem queueInstructionsComplete : Obligations.QueueInstructionsComplete := by
  refine fun s o x => ⟨exec_qallowInit_empties, fun q hq => ⟨exec_qallow_grants hq, fun h ha hc => ?push, fun h hc => ?pop,
    fun h hm hz => ?empty, fun h hm hn ha => ?full⟩⟩
  case push => rw [exec_qpush_pushes hq h ha hc, State.doPush, State.begin_scalar]
  case pop => exact exec_qpop_pops hq h hc
  case empty =>
    rw [exec_qtry_tries hq h hm fun hn => absurd hz hn]
    simp only [hz, if_true]
  case full =>
    rw [exec_qtry_tries hq h hm fun _ => ha]
    simp only [hn, if_false]

end Sys2Proof.Machine
end

section
/-! PROOFS. The launch barrier and raster order as they issue (R310 to R313), and the instructions that create and cancel
units of work (R314, R315). -/

namespace Sys2Proof.Machine

open Sys2Proof

/-! ### The launch barrier and raster order (R310 to R313) -/

section
variable {s : State} {o : Who} {x : CtlOp}

theorem exec_gbar_arrives (h : Clear s o (.gbar x) []) (hfit : o.u.allFit = true) (ha : s.accessesOut o = false) :
    exec (.gbar x) s = .next (
      let b := s.begin o (.gbar x)
      let c := b.core o.g.core
      (((b.modUnit o.g.unit fun u => { u with gsig := sigJoin u.gsig (c.sig, c.z) }).afterRelease o.g.core).modWave o.pr.wave
        fun w => { w with gbar := true }).holdOn o.pr (.gbar x) 12) := by
  rw [exec_gbar, execGbar, State.issueWith_clear (s' := s) (a := ()) h]
  simp only [hfit, ha, Bool.not_true, Bool.false_eq_true, if_false]

theorem exec_rosb_enters {t : TileState} (h : Clear s o (.rosb x) []) (hr : rosbTrap o x = none) (ht : o.w.tile = some t)
    (hd : (s.begin o (.rosb x)).rosDue o t = true) :
    exec (.rosb x) s = .next ((s.begin o (.rosb x)).enterSection o x t) := by
  rw [exec_rosb, execRosb, State.issueIf_go h hr]
  simp only [ht, hd, if_true]

theorem exec_rose_retires {t : TileState} (h : Clear s o (.rose x) []) (hr : streamTrap o = none) (ht : o.w.tile = some t)
    (hheld : t.held = true) (ha : s.accessesOut o = false) :
    exec (.rose x) s = .next (((s.begin o (.rose x)).retireTile o).finish o (.rose x)) := by
  rw [exec_rose, execRose, State.issueWith_clear (s' := s) (a := ()) h]
  simp only [hr, ht, hheld, ha, Option.any_some, Bool.not_true, Bool.false_eq_true, if_false]

/-! ### Units of work (R314, R315) -/

/-- A descriptor on its alignment, within the limit of what may live, and nothing outstanding. -/
theorem workCheck_none {unit : Nat} {full : Who → State → Bool} (ha : (o.spair x.a.num.toNat).toNat % unit = 0)
    (hf : full o s = false) (hout : s.anyOut o = false) : workCheck x unit full o s = none := by
  simp only [workCheck, ha, hf, hout, bne_self_eq_false, Bool.false_eq_true, if_false]

variable {s' : State} {bad : Bool}

theorem exec_launch_creates {d : List Byte} (h : Clear s o (.launch x) []) (ha : (o.spair x.a.num.toNat).toNat % 256 = 0)
    (hl : s.launchesLive o < 4096) (hout : s.anyOut o = false)
    (hr : s.readFor o (o.spair x.a.num.toNat) 256 = (s', .ok (d, bad))) :
    exec (.launch x) s = .next ((s'.begin o (.launch x)).createUnit o x (.launch x)
      { o.u.child .launch ((s'.begin o (.launch x)).unitAbove o.g.unit .phase) (o.spair x.a.num.toNat) with
        words := if bad then [] else bytesWords d } bad) := by
  have hc : workCheck x 256 (fun o s => decide (4096 ≤ s.launchesLive o)) o s = none :=
    workCheck_none ha (decide_eq_false (Nat.not_le.mpr hl)) hout
  rw [exec_launch, execLaunch, State.issueWith_clear h (by rw [hc]; exact hr)]

theorem exec_grun_creates {g : Snapshot} (h : Clear s o (.grun x) []) (ha : (o.spair x.a.num.toNat).toNat % 64 = 0)
    (hl : s.runsLive o.u.ctl o.u.ctx < 1024) (hout : s.anyOut o = false)
    (hr : s.graphFor o (o.spair x.a.num.toNat) = (s', .ok (g, bad))) :
    exec (.grun x) s = .next (
      let u := o.u.child .graph ((s'.begin o (.grun x)).unitAbove o.g.unit .phase) (o.spair x.a.num.toNat)
      (s'.begin o (.grun x)).createUnit o x (.grun x)
        { (if bad then { u with words := g.words } else u.withGraph g) with stage := 1 } bad) := by
  have hc : workCheck x 64 (fun o s => decide (1024 ≤ s.runsLive o.u.ctl o.u.ctx)) o s = none :=
    workCheck_none ha (decide_eq_false (Nat.not_le.mpr hl)) hout
  rw [exec_grun, execGrun, State.issueWith_clear h (by rw [hc]; exact hr)]

/-- The beginning of an instruction changes no unit: what a form of CANCEL names is what it named before. -/
theorem State.cancelInstr_go {i : Instr} {unit : Who → State → Option Nat} {n : Option Nat} (h : Clear s o i [])
    (hn : unit o (s.begin o i) = n) : s.cancelInstr i unit =
      .next ((match n with | some u => (s.begin o i).cancelUnit u | none => s.begin o i).finish o i) := by
  subst hn
  unfold State.cancelInstr
  refine (State.issue_go h).trans ?_
  cases unit o (s.begin o i) <;> rfl

theorem State.begin_byHandle (s : State) (o : Who) (i : Instr) (h : Word) : (s.begin o i).byHandle o h = s.byHandle o h :=
  rfl

theorem State.begin_unitAbove (s : State) (o : Who) (i : Instr) (n : Nat) (k : UnitKind) :
    (s.begin o i).unitAbove n k = s.unitAbove n k := rfl

end

/-- Settles O38: each instruction passes its checks; a form of CANCEL names the same unit before and after its beginning. -/
theorem orderAndWorkInstructionsComplete : Obligations.OrderAndWorkInstructionsComplete := by
  refine ⟨fun s o x => ⟨exec_gbar_arrives, fun h hr t => exec_rosb_enters h hr, fun h hr t => exec_rose_retires h hr⟩,
    fun s s' o x d g bad => ⟨exec_launch_creates, exec_grun_creates, fun h => ?handle, fun h => ?launch, fun h => ?phase,
      fun h => ?job⟩⟩
  case handle =>
    exact (exec_cancelHandle x s).trans (State.cancelInstr_go (n := s.byHandle o (s.scalar o x.a 0)) h
      (by rw [State.begin_scalar, State.begin_byHandle]))
  case launch => exact (exec_cancelLaunch x s).trans (State.cancelInstr_go (n := some o.g.unit) h rfl)
  case phase => exact (exec_cancelPhase x s).trans (State.cancelInstr_go h (State.begin_unitAbove _ _ _ _ _))
  case job => exact (exec_cancelJob x s).trans (State.cancelInstr_go h (State.begin_unitAbove _ _ _ _ _))

end Sys2Proof.Machine
end

section
/-! PROOFS. System instructions: TLBINV (R335, R345), traps taken and returned from (R363, R376, R377, R385), the assay, MARK
and HALT (R380, R398, R399). -/

namespace Sys2Proof.Machine

open Sys2Proof

/-! ### Instructions that go on by issuing again (R345, R380) -/

/-- A part that does not wait in the instruction issues it. -/
theorem State.resume_first {s : State} {o : Who} {i : Instr} {sl : List Nat} {more : Who → State → State}
    {first : Host.Outcome State Fault Refusal} (h : Clear s o i sl) (hn : o.p.hold ≠ .instr i) :
    s.resume i more first = first := by
  simp only [State.resume, h.issuer, hn, if_false]

/-- A part that waits in it goes on. -/
theorem Waits.resume {s : State} {o : Who} {i : Instr} {more : Who → State → State}
    {first : Host.Outcome State Fault Refusal} (h : Waits s s.cur o i) : s.resume i more first = .next (more o s) := by
  obtain ⟨hwho, hhold, -⟩ := h
  simp only [State.resume, hwho, hhold, if_true]

/-! ### TLBINV (R335, R345) -/

/-- Reading a table whose values are mapped. -/
theorem Tbl.get_mapValues {α β : Type} (t : Tbl α) (f : α → β) (k : Nat) :
    Tbl.get (List.map (fun e : Nat × α => (e.1, f e.2)) t : Tbl β) k = (t.get k).map f := by
  induction t with
  | nil => rfl
  | cons e r ih =>
    obtain ⟨j, v⟩ := e
    rw [List.map_cons, Tbl.get_cons, Tbl.get_cons, ih]
    split <;> rfl

theorem State.dropEntries_core (s : State) (hit : TlbEntry → Bool) (k : Nat) :
    (s.dropEntries hit).core k = { s.core k with tlb := (s.core k).tlb.filter fun e => !hit e } := by
  simp only [State.core, State.dropEntries,
    Tbl.get_mapValues s.cores fun c : Core => { c with tlb := c.tlb.filter fun e => !hit e }]
  cases s.cores.get k <;> rfl

theorem State.dropEntries_cluster (s : State) (hit : TlbEntry → Bool) (k : Nat) :
    (s.dropEntries hit).cluster k = { s.cluster k with tlb := (s.cluster k).tlb.filter fun e => !hit e } := by
  simp only [State.cluster, State.dropEntries,
    Tbl.get_mapValues s.clusters fun c : Cluster => { c with tlb := c.tlb.filter fun e => !hit e }]
  cases s.clusters.get k <;> rfl

/-- A SEQCLK reads as before. -/
theorem State.dropEntries_seqclk (s : State) (hit : TlbEntry → Bool) (k : Nat) :
    (s.dropEntries hit).seqclk k = s.seqclk k := by
  rw [State.seqclk, State.dropEntries_core]
  rfl

theorem State.scalar_congr {s t : State} (h : ∀ k, t.seqclk k = s.seqclk k) (o : Who) (x : Src) (imm : Word) :
    t.scalar o x imm = s.scalar o x imm := by
  unfold State.scalar rawBits specialBits
  simp only [h]

/-- The entries that a TLBINV of an ASID, of a page of it or of every ASID names. -/
def tlbinvHits (asid : Option Nat) (va : Dword) (page : Bool) (e : TlbEntry) : Bool :=
  match asid with
  | none => true
  | some a => if page then e.covers a va.toNat else e.asid == a

section
variable {s : State} {o : Who} {i : Instr} {asid : Who → State → Option Nat} {va : Who → Dword} {page : Bool} {a : Option Nat}
  (h : Clear s o i []) (hn : o.p.hold ≠ .instr i) (hout : s.anyOut o = false)
  (ha : ∀ t : State, (∀ k, t.seqclk k = s.seqclk k) → asid o t = a) (ht : tlbTrap o a (va o) = none)
include h hn hout ha ht

/-- A TLBINV whose ASID is read from registers alone drops its entries, and waits while something that was translated through
them is outstanding. -/
theorem State.tlbinv_drops : s.tlbinv i asid va page = .next (
    let t := ((s.begin o i).dropEntries (tlbinvHits a (va o) page)).forgetAsid a
    if t.translatedOut a s.fresh then (t.modPart o.pr fun p => { p with timer := s.fresh }).holdOn o.pr i 24
    else t.finish o i) := by
  have hbegin : asid o (s.begin o i) = a := ha _ (State.begin_seqclk s o i)
  have hdrop : ∀ f, asid o (((s.begin o i).dropEntries f).forgetAsid a) = a := fun f =>
    ha _ fun k => (State.dropEntries_seqclk _ f k).trans (State.begin_seqclk s o i k)
  rw [State.tlbinv, State.resume_first h hn, State.issueWith_clear (s' := s) (a := ()) h]
  · simp only [hbegin, hdrop]
    cases a <;> rfl
  · simp only [hout, ha s fun _ => rfl, ht, Bool.false_eq_true, if_false]

end

/-- Settles O41: each form is one TLBINV, whose entries go from every TLB by a filter. -/
theorem tlbinvComplete : Obligations.TlbinvComplete := by
  refine ⟨fun s o x hout => ⟨fun h hn ht => ?all, fun h hn ht => ?asid, fun h hn ht => ?page⟩,
    fun s hit k e => ⟨?core, ?cluster⟩⟩
  case all =>
    rw [exec_tlbinvAll, execTlbinvAll, State.tlbinv_drops h hn hout (fun _ _ => rfl) ht]
    exact ⟨fun hf => congrArg Host.Outcome.next (if_neg (ne_true_of_eq_false hf)),
      fun hw => congrArg Host.Outcome.next (if_pos hw)⟩
  case asid =>
    rw [exec_tlbinvAsid, execTlbinvAsid, State.tlbinv_drops h hn hout
      (fun t hs => congrArg (fun v : Word => some v.toNat) (State.scalar_congr hs o x.a 0)) ht]
    exact ⟨fun hf => congrArg Host.Outcome.next (if_neg (ne_true_of_eq_false hf)),
      fun hw => congrArg Host.Outcome.next (if_pos hw)⟩
  case page =>
    rw [exec_tlbinvPage, execTlbinvPage, State.tlbinv_drops h hn hout
      (fun t hs => congrArg (fun v : Word => some v.toNat) (State.scalar_congr hs o x.a 0)) ht]
    exact ⟨fun hf => congrArg Host.Outcome.next (if_neg (ne_true_of_eq_false hf)),
      fun hw => congrArg Host.Outcome.next (if_pos hw)⟩
  case core =>
    rw [State.dropEntries_core]
    simp
  case cluster =>
    rw [State.dropEntries_cluster]
    simp

/-! ### Traps (R363, R376, R385) -/

section
variable {s : State} {o : Who} {x : CtlOp}

theorem trapped_brk (h : Clear s o (.brk x) []) :
    Trapped s o (.brk x) { TrapInfo.plain codeBrkInstr o.p.pc with val := x.imm } := by
  rw [Trapped, exec_brk, execBrk, State.issueIf_trap h rfl]

theorem trapped_trap (h : Clear s o (.trap x) []) (hm : o.lanes x.h ≠ 0) : Trapped s o (.trap x)
    { TrapInfo.plain codeTrapInstr o.p.pc with
      lane := maskLow (o.lanes x.h), mask := o.lanes x.h, val := if x.a.cls = .v then 0 else s.scalar o x.a 0,
      aux0 := x.imm } := by
  rw [Trapped, exec_trap, execTrap, State.issueIf_trap h (if_neg hm)]

theorem exec_trap_nobody (h : Clear s o (.trap x) []) (hm : o.lanes x.h = 0) :
    exec (.trap x) s = .next ((s.begin o (.trap x)).finish o (.trap x)) := by
  rw [exec_trap, execTrap, State.issueIf_go h (if_pos hm)]

/-! ### Returns (R377) -/

section
variable {i : Instr} {ends : Bool} {act : Who → State → Who → Dword → Nat → State × Nat} (h : Clear s o i [])
  (hw : s.rettWaits o (o.sval x.a) ends = false)
include h hw

theorem State.rett_nobody (ht : (s.begin o i).trappedBy (o.sval x.a) = none) :
    s.rett i x ends act = .next (((s.begin o i).writeS o x.dst 1).finish o i) := by
  rw [State.rett, State.issueWith_clear (s' := s) (a := ()) h (by simp only [hw, Bool.false_eq_true, if_false])]
  simp only [ht]

theorem State.rett_found {t : Who} {pc : Dword} {code : Nat} {u : State} {v : Nat}
    (ht : (s.begin o i).trappedBy (o.sval x.a) = some (t, pc, code)) (ha : act o (s.begin o i) t pc code = (u, v)) :
    s.rett i x ends act = .next ((u.writeS o x.dst v).finish o i) := by
  rw [State.rett, State.issueWith_clear (s' := s) (a := ()) h (by simp only [hw, Bool.false_eq_true, if_false])]
  simp only [ht, ha]

end

end

/-- Settles O39: BRK and TRAP are refused by their own check, which is their trap; each RETT acts on the part that it
finds. -/
theorem trapsAndReturns : Obligations.TrapsAndReturns := by
  refine ⟨fun s o x => ⟨trapped_brk, fun h hm hv => ?scalar, fun h hm hv => ?vector, exec_trap_nobody⟩,
    fun s o x => ⟨fun h hw ht => ?reissue1, fun h hw ht => ?skip1, fun h hw ht => ?pc1, fun h hw ht => ?end1,
      fun t pc code => ⟨fun ⟨h, hw, ht⟩ => ?reissue, fun ⟨h, hw, ht⟩ hc => ?skip, fun ⟨h, hw, ht⟩ h1 h4 => ?before,
        fun ⟨h, hw, ht⟩ => ?pc, fun ⟨h, hw, ht⟩ => ?ends⟩⟩⟩
  case scalar =>
    have ht := trapped_trap h hm
    rw [if_neg hv] at ht
    exact ht
  case vector =>
    have ht := trapped_trap h hm
    rw [if_pos hv] at ht
    exact ht
  case reissue1 => exact (exec_rettReissue x s).trans (State.rett_nobody h hw ht)
  case skip1 => exact (exec_rettSkip x s).trans (State.rett_nobody h hw ht)
  case pc1 => exact (exec_rettPc x s).trans (State.rett_nobody h hw ht)
  case end1 => exact (exec_rettEnd x s).trans (State.rett_nobody h hw ht)
  case reissue => exact (exec_rettReissue x s).trans (State.rett_found h hw ht rfl)
  case skip =>
    have hknown : ¬(decide (1 ≤ code) && decide (code ≤ 4)) = true := by simp; omega
    exact (exec_rettSkip x s).trans (State.rett_found h hw ht (if_neg hknown))
  case before =>
    have hearly : (decide (1 ≤ code) && decide (code ≤ 4)) = true := by simp [h1, h4]
    exact (exec_rettSkip x s).trans (State.rett_found h hw ht (if_pos hearly))
  case pc => exact (exec_rettPc x s).trans (State.rett_found h hw ht rfl)
  case ends => exact (exec_rettEnd x s).trans (State.rett_found h hw ht rfl)

/-! ### The assay and MARK (R398, R399) -/

section
variable {s : State} {o : Who} {x : CtlOp}

theorem exec_assayPut_records (h : Clear s o (.assayPut x) []) : exec (.assayPut x) s =
    .next (((s.begin o (.assayPut x)).platform (dieOf o.g.core) 5 (if o.u.ctl then 0 else o.u.ctx)
      (s.scalar o x.a 0).toNat (x.imm.extractLsb' 8 8).toNat).finish o (.assayPut x)) := by
  rw [exec_assayPut, execAssayPut, State.issue_go h, State.begin_scalar]

/-- Every die's assay is frozen or freed. -/
theorem State.die_freezeAssay (s : State) (b : Bool) {d : Nat} (hd : d < 4) : ((s.freezeAssay b).die d).frozen = b := by
  have hput : ∀ (t : State) (k : Nat), ((t.modDie k fun a => { a with frozen := b }).die d).frozen =
      if d = k then b else (t.die d).frozen := by
    intro t k
    simp only [State.die, State.modDie_dies, Tbl.get_put]
    split <;> rfl
  simp only [State.freezeAssay, List.range_succ, List.range_zero, List.nil_append, List.foldl_append, List.foldl_cons,
    List.foldl_nil, hput]
  split
  · rfl
  · split
    · rfl
    · split
      · rfl
      · rw [if_pos (by omega)]

/-- With no part stopping, the end of an instruction changes no die. -/
theorem State.finish_dies {i : Instr} (h : s.stoppers = []) : (s.finish o i).dies = s.dies := by
  have hland : ∀ t : State, t.landAll.dies = t.dies := fun t =>
    foldl_keeps State.dies (fun _ _ => by dsimp only; split <;> rfl) _ _
  have hstop : ((s.countDone o i).advance o.pr).landAll.retire.stoppers = [] :=
    State.stoppers_landAll (State.stoppers_advance (State.stoppers_countDone h))
  have hcount : (s.countDone o i).dies = s.dies := by
    unfold State.countDone
    split <;> rfl
  unfold State.finish State.settle State.finishStops
  rw [hstop, List.foldl_nil, State.retire_dies, hland]
  exact hcount

theorem State.stoppers_freezeAssay {b : Bool} (h : s.stoppers = []) : (s.freezeAssay b).stoppers = [] :=
  List.foldlRecOn (motive := fun t : State => t.stoppers = []) _ _ h fun _ ht _ _ => ht

/-- An instruction that freezes or frees the assays leaves every die's so. -/
theorem State.frozen_finish_freezeAssay {i : Instr} {b : Bool} (hs : s.stoppers = []) {d : Nat} (hd : d < 4) :
    ((((s.begin o i).freezeAssay b).finish o i).die d).frozen = b := by
  rw [State.die, State.finish_dies (State.stoppers_freezeAssay (State.stoppers_begin hs))]
  exact State.die_freezeAssay _ b hd

theorem exec_mark_records (h : Clear s o (.mark x) [])
    (hr : s.replayNext o.u o.g.core o.wid = none ∨ s.mayDecide o 10 = true) : exec (.mark x) s = .next (
      ((s.begin o (.mark x)).event o.g.core o.u
        { kind := 10, code := (x.imm.extractLsb' 0 8).toNat, wid := o.wid, part := o.pr.part, pc := o.p.pc.toNat,
          dseq := (((s.begin o (.mark x)).waves.get o.pr.wave).map fun w => w.seqs.dseq.toNat).getD 0,
          qmask := o.p.quads.toNat, data := (s.scalar o x.a 0).toNat }).finish o (.mark x)) := by
  have hgo : ((s.replayNext o.u o.g.core o.wid).isSome && !s.mayDecide o 10) = false := by
    rcases hr with hr | hr
    · rw [hr, Option.isSome_none, Bool.false_and]
    · rw [hr, Bool.not_true, Bool.and_false]
  rw [exec_mark, execMark, State.issueWith_clear (s' := s) (a := ()) h (by simp only [hgo, Bool.false_eq_true, if_false]),
    State.begin_scalar]

/-! ### HALT (R380) -/

theorem State.begin_ctxValid (s : State) (o : Who) (i : Instr) (n : Nat) : (s.begin o i).ctxValid n = s.ctxValid n := rfl

section
variable {i : Instr} {named : Bool} {start : Nat → State → State} {finished : Nat → State → Bool}

/-- A form of HALT that names no context is answered 1. -/
theorem State.halt_invalid (h : Clear s o i []) (hn : o.p.hold ≠ .instr i) (hv : s.ctxValid (s.scalar o x.a 0).toNat = false) :
    s.halt i x true start finished = .next (((s.begin o i).writeS o x.dst 1).finish o i) := by
  rw [State.halt, State.resume_first h hn, State.issue_go h]
  simp only [State.begin_scalar, State.begin_ctxValid, hv, Bool.not_false, Bool.and_self, if_true]

/-- A form of HALT with nothing against it starts; it is answered 0 where it is done at once, and waits otherwise. -/
theorem State.halt_starts {n : Nat} (h : Clear s o i []) (hn : o.p.hold ≠ .instr i)
    (hx : (if named then (s.scalar o x.a 0).toNat else 0) = n) (hv : named = true → s.ctxValid n = true) :
    s.halt i x named start finished = .next (
      let t := start n (s.begin o i)
      if finished n t then (t.writeS o x.dst 0).finish o i else t.holdOn o.pr i 2) := by
  have hvalid : (named && !s.ctxValid n) = false := by
    cases named with
    | false => rfl
    | true => rw [hv rfl]; rfl
  rw [State.halt, State.resume_first h hn, State.issue_go h]
  simp only [State.begin_scalar, hx, State.begin_ctxValid, hvalid, Bool.false_eq_true, if_false]

/-- A part that waits in a form of HALT that is done is answered 0. -/
theorem State.halt_done (h : Waits s s.cur o i)
    (hf : finished (if named then (s.scalar o x.a 0).toNat else 0) s = true) :
    s.halt i x named start finished = .next ((s.writeS o x.dst 0).finish o i) := by
  rw [State.halt, h.resume]
  simp only [hf, if_true]

end

/-- A reset that has begun is not done: its record is still to be written. -/
theorem State.resetDone_beginReset (s : State) (n : Nat) : (s.beginReset false n).resetDone n = false := by
  have hr : ((s.beginReset false n).ctx n).resets = true := by
    rw [State.beginReset, if_neg Bool.false_ne_true, State.ctx_modCtx_same]
  rw [State.resetDone, hr]
  rfl

end

/-- Settles O42: ASSAY and MARK are complete at issue; the forms of HALT are one issue, and one way to go on from it. -/
theorem recordAndHaltInstructionsComplete : Obligations.RecordAndHaltInstructionsComplete := by
  refine ⟨fun s o x => ⟨fun h => ?put, fun h hs => ?freeze, fun h hs => ?free, fun h hr => ?mark⟩,
    fun s o x => ⟨fun i hi ⟨h, hn⟩ hv => ?invalid, fun ⟨h, hn⟩ hv hd => ?save, fun ⟨h, hn⟩ hv => ?go,
      fun ⟨h, hn⟩ hv => ?reset, fun ⟨h, hn⟩ hd => ?device, fun h hd => ?saved, fun h hd => ?wasReset,
      fun h hd => ?stopped⟩⟩
  case put =>
    rw [exec_assayPut_records h]
    simp [Nat.shiftRight_eq_div_pow]
  case freeze =>
    exact ⟨_, (exec_assayFrz x s).trans (State.issue_go h), fun d => State.frozen_finish_freezeAssay (b := true) hs⟩
  case free =>
    exact ⟨_, (exec_assayRun x s).trans (State.issue_go h), fun d => State.frozen_finish_freezeAssay (b := false) hs⟩
  case mark =>
    rw [exec_mark_records h hr]
    simp
  case invalid =>
    simp only [List.mem_cons, List.not_mem_nil, or_false] at hi
    rcases hi with rfl | rfl | rfl
    · exact (exec_haltSave x s).trans (State.halt_invalid h hn hv)
    · exact (exec_haltGo x s).trans (State.halt_invalid h hn hv)
    · exact (exec_haltReset x s).trans (State.halt_invalid h hn hv)
  case save =>
    exact (exec_haltSave x s).trans ((State.halt_starts (x := x) (named := true) h hn rfl fun _ => hv).trans
      (congrArg Host.Outcome.next (if_pos hd)))
  case go =>
    exact (exec_haltGo x s).trans ((State.halt_starts (x := x) (named := true) h hn rfl fun _ => hv).trans
      (congrArg Host.Outcome.next (if_pos rfl)))
  case reset =>
    exact (exec_haltReset x s).trans ((State.halt_starts (x := x) (named := true) h hn rfl fun _ => hv).trans
      (congrArg Host.Outcome.next (if_neg (ne_true_of_eq_false (State.resetDone_beginReset _ _)))))
  case device =>
    exact (exec_haltDevice x s).trans ((State.halt_starts (n := 0) h hn rfl fun hf => absurd hf Bool.false_ne_true).trans
      (congrArg Host.Outcome.next (if_pos hd)))
  case saved => exact (exec_haltSave x s).trans (State.halt_done h hd)
  case wasReset => exact (exec_haltReset x s).trans (State.halt_done h hd)
  case stopped => exact (exec_haltDevice x s).trans (State.halt_done h hd)

end Sys2Proof.Machine
end

section
/-! PROOFS. A device without power (R407) whose time wraps (R222). -/

namespace Sys2Proof.Machine

open Sys2Proof

/-- A store outstanding whose release carries the time 1 beside its signature. -/
def timedStore : Op :=
  { id := 1, wave := 0, group := 0, part := 0, quads := 1, all := 1, ctr := none, pc := 0, kind := .store, done := false,
    code := 0, scope := 2, ord := 2, hint := 0, dst := { cls := .v, num := 0 }, span := 0, mask := 1, args := [], lanes := [],
    pieces := [], acc := [], seen := [], prior := [], fmt := 0, batch := 0, sigs := some (0, 1), fail := none, owed := [],
    misc := 0, wid := 0, born := 0, aord := 0, start := 0 }

/-- A turn in which device time passes its 2^48 ns, and nobody moves. -/
def wrapTurn : Turn := { ns := 2 ^ 48, net := 0, clk := 0, more := [], ext := [], act := .issue { wave := 0, part := 0 } }

/-- A device without power, with a store outstanding, about to take that turn. -/
def darkWrap : State :=
  { State.reset with heat := { State.reset.heat with powered := false }, ops := [timedStore], turns := [wrapTurn] }

theorem dark_darkWrap : Dark darkWrap := by
  refine ⟨rfl, fun t ht b => ?_⟩
  obtain rfl := List.mem_singleton.mp ht
  simp [wrapTurn]

/-- The operations that a step leaves, where it answers a next state. -/
def opsAfter : Host.Outcome State Fault Refusal → Option (List Op)
  | .next t => some t.ops
  | _ => none

theorem opsAfter_eq_some {r : Host.Outcome State Fault Refusal} {l : List Op} (h : opsAfter r = some l) :
    ∃ t, r = .next t ∧ t.ops = l := by
  cases r with
  | next t => exact ⟨t, rfl, Option.some.inj h⟩
  | fault r => cases h
  | refused r => cases h

/-- The wrap makes the time beside the store's signature 0. -/
theorem opsAfter_step_darkWrap : opsAfter (step darkWrap) = some [{ timedStore with sigs := some (0, 0) }] := by
  decide +kernel

/-- Refutes O11: a wrap of device time sets the times beside the signatures of the operations to 0, with power or without
it. -/
theorem not_darkDeviceStaysDark : ¬ Obligations.DarkDeviceStaysDark := by
  intro hall
  obtain ⟨t, hs, ht⟩ := opsAfter_eq_some opsAfter_step_darkWrap
  obtain ⟨-, -, -, -, hops, -⟩ := hall darkWrap t dark_darkWrap hs
  have hsigs : some ((0 : Sig), (1 : Time)) = some (0, 0) :=
    congrArg (fun l : List Op => l.head?.bind Op.sigs) (hops.symm.trans ht)
  have htime : (1 : Time) = 0 := congrArg Prod.snd (Option.some.inj hsigs)
  exact absurd htime (by decide)

end Sys2Proof.Machine
end

section
/-! PROOFS. The reset of a context (R300, R373, R374), the launch barrier's completion (R310, R311), and groups as they are
placed, dispatched, saved and restored, with the swaps of the active set (R289 to R293, R296, R348, R371, R389). -/

namespace Sys2Proof.Machine

open Sys2Proof

/-! ### Resets of contexts (R300, R373, R374) -/

theorem exec_drawWatchdog_due {s : State} {unit job : Nat} {u j : WorkUnit} (hu : s.units.get unit = some u)
    (hk : u.kind = .draw) (hctl : u.ctl = false) (hj : s.unitAbove unit .job = some job) (hg : s.units.get job = some j)
    (ht : j.n 0x20 * 1000 ≤ u.time) : exec (.drawWatchdog unit) s = .next (s.beginReset false u.ctx) := by
  simp only [exec_drawWatchdog, stepDrawWatchdog, hu, hj, Option.bind_some, hg, hk, hctl, decide_true, Bool.true_and,
    decide_eq_true ht, if_true]

/-- What the beginning of its reset makes of a context. -/
theorem State.ctx_beginReset (s : State) (n : Nat) : (s.beginReset false n).ctx n =
    { s.ctx n with resets := true, intake := [], heldOn := none,
                   dropped := BitVec.ofNat 16 (min ((s.ctx n).dropped.toNat + (s.ctx n).intake.length) 65535) } := by
  rw [State.beginReset, if_neg Bool.false_ne_true, State.ctx_modCtx_same]

theorem State.ctx_beginReset_other (s : State) {n k : Nat} (h : k ≠ n) : (s.beginReset false n).ctx k = s.ctx k := by
  rw [State.beginReset, if_neg Bool.false_ne_true, State.ctx_modCtx_other _ _ h]

/-- A reset ends: the slices keep nothing of the context, which takes its work in again. -/
def State.endReset (r : State) (n : Nat) : State :=
  { r with slices := r.slices.map fun (sl : Nat × Slice) =>
      (sl.1, { sl.2 with keep := sl.2.keep.filter fun e => e.2 != n }) }.modCtx n fun c =>
        { c with resets := false, handle := 1 }

/-- The record that closes a reset is written (R374). -/
def State.closeReset (c : State) (n : Nat) : State × Put :=
  let t := (c.nextSerial.1.nextSeq 0).1
  t.putTrap 0 n (leBytes 4 0 ++ leBytes 4 c.trans.serial.toNat ++ leBytes 16 0 ++ leBytes 4 0xFFFFFFFF ++ leBytes 4 0 ++
    leBytes 4 0 ++ leBytes 4 (n * 65536) ++ leBytes 6 t.time.toNat ++ leBytes 2 (c.nextSerial.1.nextSeq 0).2 ++ leBytes 80 0)

theorem State.sameWork_closeReset (c : State) (n : Nat) : c.SameWork (c.closeReset n).1 := by
  have hseq : c.SameWork (c.nextSerial.1.nextSeq 0).1 := ⟨rfl, rfl, rfl⟩
  exact hseq.trans (State.SameWork.putTrap _ _ _ _)

/-- What follows the record that closes a reset: an event of the platform, or where its write met an error the reset anew. -/
def State.afterClose (c : State) (n : Nat) : State :=
  if (c.closeReset n).2 = .bad then (c.closeReset n).1.beginReset false n else (c.closeReset n).1.platformAll 3 n 0

theorem State.units_afterClose (c : State) (n : Nat) : (c.afterClose n).units = c.units := by
  have hsame := c.sameWork_closeReset n
  unfold State.afterClose
  split
  · rw [State.beginReset, if_neg Bool.false_ne_true, State.modCtx_units, hsame.units]
  · rw [(State.SameWork.platformAll _ 3 n 0).units, hsame.units]

/-- A context resets anew exactly where the record's write met an error. -/
theorem State.resets_afterClose {c : State} {n : Nat} (h : (c.ctx n).resets = false) :
    ((c.afterClose n).ctx n).resets = true ↔ (c.closeReset n).2 = .bad := by
  unfold State.afterClose
  split
  · next hb => simp only [State.ctx_beginReset, hb]
  · next hb =>
    rw [(State.SameWork.platformAll _ 3 n 0).ctx, (c.sameWork_closeReset n).ctx, h]
    simp only [hb, Bool.false_eq_true]

theorem State.units_endReset (r : State) (n : Nat) : (r.endReset n).units = r.units := rfl

theorem State.resets_endReset (r : State) (n : Nat) : ((r.endReset n).ctx n).resets = false := by
  rw [State.endReset, State.ctx_modCtx_same]

section
variable {s : State} {n : Nat} (hr : (s.ctx n).resets = true)
  (hg : ∀ g ∈ s.groups, ¬((s.unitOf g.2).ctl = false ∧ (s.unitOf g.2).ctx = n)) (hroom : s.trapRoom 0 n = true)
  (hf : ((s.resolveCtx n).failUnits n).2 = true)
include hr hg hroom hf

/-- A context with no group left resets once its units have ended. -/
theorem exec_contextReset_closes : exec (.contextReset n) s =
    .next ((((s.resolveCtx n).failUnits n).1.endReset n).afterClose n) := by
  have hgroups : (s.groups.filter fun g => !(s.unitOf g.2).ctl && decide ((s.unitOf g.2).ctx = n)) = [] := by
    refine List.filter_eq_nil_iff.mpr fun g hm => ?_
    simpa using hg g hm
  simp only [exec_contextReset, stepContextReset, hgroups, hr, hroom, List.any_nil, List.foldl_nil, Bool.not_true,
    Bool.or_self, Bool.false_eq_true, if_false]
  generalize (s.resolveCtx n).failUnits n = q at hf ⊢
  obtain ⟨r, b⟩ := q
  obtain rfl : b = true := hf
  change Host.Outcome.next (match (r.endReset n).closeReset n with
    | (s, .bad) => s.beginReset false n
    | (s, _) => s.platformAll 3 n 0) = _
  unfold State.afterClose
  generalize (r.endReset n).closeReset n = put
  obtain ⟨u, p⟩ := put
  cases p <;> rfl

end

/-- What a filter that runs only after success leaves. -/
theorem State.mem_units_of_filtered {r : State × Bool} {p : Nat × WorkUnit → Bool}
    (h : (if r.2 then (({ r.1 with units := r.1.units.filter p } : State), true) else r).2 = true) :
    ∀ x ∈ (if r.2 then (({ r.1 with units := r.1.units.filter p } : State), true) else r).1.units, p x = true := by
  by_cases hr : r.2 = true
  · rw [if_pos hr]
    exact fun x hx => (List.mem_filter.mp hx).2
  · rw [if_neg hr] at h
    exact absurd h hr

/-- The units of a context that have ended are there no more. -/
theorem State.failUnits_gone {s : State} {n : Nat} (hf : (s.failUnits n).2 = true) :
    ∀ x ∈ (s.failUnits n).1.units, x.2.ctl = true ∨ x.2.ctx ≠ n := by
  intro x hx
  unfold State.failUnits at hf hx
  dsimp only at hf hx
  generalize List.foldl _ (s, true) [UnitKind.launch, .draw, .graph, .phase, .job] = r at hf hx
  have hkeep := State.mem_units_of_filtered hf x hx
  cases hc : x.2.ctl with
  | true => exact .inl rfl
  | false => exact .inr (by simpa [hc] using hkeep)

theorem exec_gbarComplete_passes {s : State} {launch : Nat} {u : WorkUnit} (hu : s.units.get launch = some u)
    (hd : s.gbarDue launch u = true) : exec (.gbarComplete launch) s = .next (
      let open_ := fun (w : Wave) => match s.groups.get w.group with | some g => g.unit == launch | none => false
      let clear := fun (w : Nat × Wave) => if open_ w.2 then (w.1, { w.2 with gbar := false }) else w
      let t := ({ s with waves := s.waves.map clear } : State).modUnit launch fun x => { x with gen := x.gen + 1 }
      t.gbarPass launch u.gsig t.parts) := by
  rw [exec_gbarComplete, stepGbarComplete, hu]
  exact congrArg (fun t : State => Host.Outcome.next (t.gbarPass launch u.gsig t.parts)) (if_pos hd)

/-- Settles O56: the watchdog begins a reset; a reset closes with a record, and begins anew where that meets an error;
records change neither units nor contexts. -/
theorem contextsReset : Obligations.ContextsReset := by
  refine ⟨fun s unit n u job j => ⟨fun hu hk hctl hj hg ht => ⟨_, exec_drawWatchdog_due hu hk hctl hj hg ht, ?begun, ?empty,
      fun k => State.ctx_beginReset_other s, rfl⟩,
    fun hr hg hroom hf => ⟨_, exec_contextReset_closes hr hg hroom hf, ?anew, ?gone⟩⟩,
    fun s launch u => exec_gbarComplete_passes⟩
  case begun => rw [State.ctx_beginReset]
  case empty => rw [State.ctx_beginReset]
  case anew => exact State.resets_afterClose (State.resets_endReset _ n)
  case gone =>
    rw [State.units_afterClose, State.units_endReset]
    exact State.failUnits_gone hf

end Sys2Proof.Machine
end

section
/-! PROOFS. Groups as they are placed, dispatched, ended, saved and restored (R289 to R291, R296, R348, R389), and the swaps
of the active set (R292, R293, R371). -/

namespace Sys2Proof.Machine

open Sys2Proof

/-! ### A group is placed (R289) -/

/-- A group of a launch as it comes to a core: its local store zero, its tiles to come, and nothing held. -/
def freshGroup (unit core : Nat) (u : WorkUnit) (l : List Nat) : Group :=
  { unit := unit, g := u.next, core := core, state := .tiles, cancel := false, waves := [], lsz := u.lsz, ls := [],
    acc := [], token := [], plane := [], tacc := [], accErr := [], taccErr := [], illeg := 0, window := 0, queues := [],
    todo := u.tiles, rennet := [], scheds := l, begun := false, overs := [], tileF := [], heldOn := none, heldGo := false }

/-- What a launch counts as a group of it is placed, on a core that is clean. -/
def State.countPlaced (s : State) (unit core : Nat) (u : WorkUnit) : State :=
  (if u.cores.contains core then s else s.cleanCore core).modUnit unit fun x =>
    { x with next := x.next + 1, giving := none, cores := if x.cores.contains core then x.cores else x.cores ++ [core] }

theorem State.groups_countPlaced (s : State) (unit core : Nat) (u : WorkUnit) :
    (s.countPlaced unit core u).groups = s.groups := by
  unfold State.countPlaced
  split <;> rfl

section
variable {s : State} {unit core : Nat} {u : WorkUnit} {l : List Nat} (hu : s.units.get unit = some u)
  (hw : s.wantsCore unit u = true) (hn : u.next ≠ u.grid)
  (hsaved : (s.groupsOf unit).any (fun g => g.2.state = .saved) = false) (hr : u.ctl = true ∨ (s.ctx u.ctx).resets = false)
  (hb : s.behind unit u = false) (hp : s.drawBegun u = true ∨ s.promised u core = false)
  (hlog : s.dispatchLogged u core u.next = true) (hq : s.qualifies unit u core u.nwaves = some l)
include hu hw hn hsaved hr hb hp hlog hq

theorem exec_groupDispatch_places : exec (.groupDispatch unit core) s = .next (
    (State.countPlaced { s with fresh := s.fresh + 1, groups := s.groups.put s.fresh (freshGroup unit core u l) } unit core
      u).event core u { kind := 1, code := 0, wid := u.next * u.nwaves % 2 ^ 32, part := 0, pc := (u.d 8).toNat, dseq := 0,
                        qmask := 0, data := u.next }) := by
  have hreset : (!u.ctl && (s.ctx u.ctx).resets) = false := by
    rcases hr with hr | hr
    · rw [hr]; rfl
    · rw [hr, Bool.and_false]
  have hprom : (!s.drawBegun u && s.promised u core) = false := by
    rcases hp with hp | hp
    · rw [hp]; rfl
    · rw [hp, Bool.and_false]
  have hgo : (!s.wantsCore unit u || decide (u.next = u.grid) || (s.groupsOf unit).any (fun g => g.2.state = .saved) ||
      (!u.ctl && (s.ctx u.ctx).resets) || s.behind unit u || (!s.drawBegun u && s.promised u core) ||
      !s.dispatchLogged u core u.next) = false := by
    simp only [hw, hn, hsaved, hreset, hb, hprom, hlog, decide_false, Bool.not_true, Bool.or_self]
  rw [exec_groupDispatch, stepGroupDispatch, hu]
  simp only [hgo, hq, Bool.false_eq_true, if_false]
  rfl

/-- Outside replay the group is in its place, fresh. -/
theorem freshGroup_dispatched (hm : u.mode < 2) : ∃ t, exec (.groupDispatch unit core) s = .next t ∧
    t.groups.get s.fresh = some (freshGroup unit core u l) := by
  refine ⟨_, exec_groupDispatch_places hu hw hn hsaved hr hb hp hlog hq, ?_⟩
  rw [(State.SameWork.event _ core _ hm).groups, State.groups_countPlaced, Tbl.get_put_same]

end

/-! ### A group's waves are dispatched (R290) -/

section
variable (gid core : Nat) (u : WorkUnit)

theorem State.enterWaves_append (l r : List (Nat × Nat)) (s : State) :
    s.enterWaves gid core u (l ++ r) = (s.enterWaves gid core u l).enterWaves gid core u r := by
  induction l generalizing s with
  | nil => rfl
  | cons e l ih =>
    rw [List.cons_append, State.enterWaves, State.enterWaves]
    exact ih _

theorem State.fresh_enterWaves (l : List (Nat × Nat)) (s : State) :
    (s.enterWaves gid core u l).fresh = s.fresh + l.length := by
  induction l generalizing s with
  | nil => rfl
  | cons e l ih =>
    rw [State.enterWaves]
    refine (ih _).trans ?_
    rw [List.length_cons]
    change s.fresh + 1 + l.length = _
    omega

/-- Waves that are there already stay as they are. -/
theorem State.waves_enterWaves_of_lt (l : List (Nat × Nat)) {s : State} {k : Nat} (h : k < s.fresh) :
    (s.enterWaves gid core u l).waves.get k = s.waves.get k := by
  induction l generalizing s with
  | nil => rfl
  | cons e l ih =>
    rw [State.enterWaves]
    refine (ih (Nat.lt_succ_of_lt h)).trans ?_
    exact Tbl.get_put_other _ _ (Nat.ne_of_lt h)

/-- The group stays one of its launch. -/
theorem State.unit_enterWaves (l : List (Nat × Nat)) (s : State) :
    ((s.enterWaves gid core u l).groups.get gid).map (fun g => g.unit) = (s.groups.get gid).map fun g => g.unit := by
  induction l generalizing s with
  | nil => rfl
  | cons e l ih =>
    rw [State.enterWaves]
    refine (ih _).trans ?_
    change ((s.groups.upd gid _).get gid).map _ = _
    rw [Tbl.get_upd_same, Option.map_map]
    rfl

/-- The k-th wave enters as the state after the k before it gives. -/
theorem State.waves_enterWaves {s : State} {l : List (Nat × Nat)} {k : Nat} {e : Nat × Nat} (h : l[k]? = some e) :
    let t := s.enterWaves gid core u (l.take k)
    (s.enterWaves gid core u l).waves.get (s.fresh + k) = some (firstWave { t with fresh := t.fresh + 1 } core gid u e.1 e.2
      ((t.freeSlot u (((s.groups.get gid).map fun g => g.unit).getD 0) core e.2).getD 0) (t.frontRoom core e.2)) := by
  obtain ⟨hk, rfl⟩ := List.getElem?_eq_some_iff.mp h
  have hsplit : l = l.take k ++ l[k] :: l.drop (k + 1) := by rw [List.getElem_cons_drop, List.take_append_drop]
  have hfresh : (s.enterWaves gid core u (l.take k)).fresh = s.fresh + k := by
    rw [State.fresh_enterWaves, List.length_take, Nat.min_eq_left (Nat.le_of_lt hk)]
  have hunit := State.unit_enterWaves gid core u (l.take k) s
  dsimp only
  conv_lhs => rw [hsplit, State.enterWaves_append]
  generalize s.enterWaves gid core u (l.take k) = t at hfresh hunit ⊢
  rw [State.enterWaves, State.waves_enterWaves_of_lt _ _ _ _ (by rw [← hfresh]; exact Nat.lt_succ_self _), hunit, ← hfresh]
  exact Tbl.get_put_same _ _ _

end

/-- The part with which a wave of a launch begins: at the entry, in a slot, its lanes those that have not exited. -/
structure Entry (u : WorkUnit) (slot : Nat) (front : Bool) (w : Wave) (p : Part) : Prop where
  parts : w.parts = [(lowQuad p.quads, p)]
  pc : p.pc = u.d 8
  active : p.active = ~~~ w.exited
  stack : p.stack = []
  rep : p.rep = none
  status : p.status = .resident
  check : p.check = true
  late : p.late = false
  kc : p.kc = 0
  slot : p.slot = slot
  front : p.front = front

section
variable (s : State) (core gid : Nat) (u : WorkUnit) (k j slot : Nat) (front : Bool)

theorem entry_firstWave : ∃ p, Entry u slot front (firstWave s core gid u k j slot front) p :=
  ⟨((firstWave s core gid u k j slot front).parts[0]'(Nat.zero_lt_one)).2, rfl, rfl, rfl, rfl, rfl, rfl, rfl, rfl, rfl, rfl,
    rfl⟩

/-- S0 to S11 hold the launch's arguments, every other S register 0. -/
theorem sreg_firstWave (r : Nat) {q : Nat} (hq : q < 16) : (firstWave s core gid u k j slot front).sreg r q =
    if r < 12 then u.w (0xC0 + 4 * r) else 0 := by
  have hget : ∀ n, Tbl.get ((List.range n).map fun i => (i, quadsOf fun _ => u.w (0xC0 + 4 * i))) r =
      if r < n then some (quadsOf fun _ => u.w (0xC0 + 4 * r)) else none := by
    intro n
    induction n with
    | zero => rfl
    | succ n ih =>
      rw [List.range_succ, List.map_append, Tbl.get_append, ih]
      by_cases hr : r < n
      · rw [if_pos hr, if_pos (Nat.lt_succ_of_lt hr), Option.some_or]
      · rw [if_neg hr, Option.none_or, List.map_singleton, Tbl.get_cons]
        by_cases hn : r = n
        · subst hn
          simp
        · rw [if_neg (by omega), if_neg (by omega), Tbl.get_nil]
  unfold Wave.sreg firstWave
  rw [hget]
  split
  · exact nth_quadsOf _ hq
  · rfl

/-- FMT and CUTP are the launch's in the quads of the wave. -/
theorem fmt_cutp_firstWave {q : Nat} (hq : q < 16) (hu : q < u.quads) :
    nth (firstWave s core gid u k j slot front).fmt q = u.w 0x2C ∧
      nth (firstWave s core gid u k j slot front).cutp q = u.w 0x40 := by
  unfold firstWave
  rw [nth_quadsOf _ hq, nth_quadsOf _ hq, if_pos hu, if_pos hu]
  exact ⟨rfl, rfl⟩

/-- The lanes beyond the wave's quads and beyond the group's lanes have exited. -/
theorem exited_firstWave {l : Nat} (hl : l < 64) : (firstWave s core gid u k j slot front).exited.getLsbD l =
    decide (4 * u.quads ≤ l ∨ u.lanes ≤ 4 * u.quads * k + l) := by
  unfold firstWave
  rw [getLsbD_maskOf]
  simp [hl]

end

/-- A group whose tiles are in runs. -/
def State.startGroup (s : State) (gid : Nat) : State :=
  s.modGroup gid fun x => { x with state := .running, todo := [], begun := true, tileF := [] }

/-- A group's waves in their order, each with its scheduler. -/
def Group.order (g : Group) : List (Nat × Nat) := g.scheds.zipIdx.map fun e => (e.2, e.1)

/-- With no tile to come, the waves of a group enter. -/
theorem exec_waveDispatch_enters {s : State} {gid : Nat} {g : Group} (hg : s.groups.get gid = some g)
    (hs : g.state = .tiles) (hh : g.heldOn = none) (hc : (s.unitOf g).cancel = false) (ht : g.todo = []) :
    exec (.waveDispatch gid) s = .next ((s.startGroup gid).enterWaves gid g.core (s.unitOf g) g.order) := by
  simp only [exec_waveDispatch, stepWaveDispatch, hg, hs, hh, hc, ht, State.copyTiles, bne_self_eq_false,
    Option.isSome_none, Bool.or_self, Bool.false_eq_true, if_false, List.append_nil]
  rfl

section
variable {s : State} {gid k j : Nat} {g : Group} (u : WorkUnit) (hg : s.groups.get gid = some g) (hj : g.scheds[k]? = some j)
include hg hj

/-- The k-th wave of a group, after the k before it. -/
theorem waves_startGroup :
    let t := (s.startGroup gid).enterWaves gid g.core u (g.order.take k)
    ((s.startGroup gid).enterWaves gid g.core u g.order).waves.get (s.fresh + k) =
      some (firstWave { t with fresh := t.fresh + 1 } g.core gid u k j ((t.freeSlot u g.unit g.core j).getD 0)
        (t.frontRoom g.core j)) := by
  have hk : g.order[k]? = some (k, j) := by simp [Group.order, hj]
  have hunit : (((s.startGroup gid).groups.get gid).map fun g => g.unit).getD 0 = g.unit := by
    rw [State.startGroup, State.modGroup_groups, Tbl.get_upd_same, hg]
    rfl
  have hwave := State.waves_enterWaves gid g.core u (s := s.startGroup gid) hk
  rw [hunit] at hwave
  exact hwave

omit hg in
theorem fresh_startGroup :
    ((s.startGroup gid).enterWaves gid g.core u (g.order.take k)).fresh = s.fresh + k := by
  obtain ⟨hk, -⟩ := List.getElem?_eq_some_iff.mp hj
  rw [State.fresh_enterWaves, List.length_take, Group.order, List.length_map, List.length_zipIdx,
    Nat.min_eq_left (Nat.le_of_lt hk)]
  rfl

end

/-! ### A group ends, is saved and restored (R291, R296, R348, R389) -/

section
variable {s t : State} {gid : Nat} {g : Group} (hg : s.groups.get gid = some g)
include hg

section
variable (hb : s.groupBusy gid = false) (hst : s.stoppers = [])
include hb hst

theorem exec_groupEnd_cancelled (hc : (s.unitOf g).cancel = true) :
    exec (.groupEnd gid) s = .next ((s.dropWaves gid).freeGroup gid) := by
  simp only [exec_groupEnd, stepGroupEnd, hg, hb, hst, hc, List.any_nil, Bool.or_self, Bool.false_eq_true, if_false, if_true]

theorem exec_groupEnd_over (hc : (s.unitOf g).cancel = false) (hw : g.waves = []) (hs : g.state = .running) :
    exec (.groupEnd gid) s = .next (s.freeGroup gid) := by
  simp only [exec_groupEnd, stepGroupEnd, hg, hb, hst, hc, hw, hs, List.any_nil, Bool.or_self, decide_true, Bool.and_self,
    Bool.false_eq_true, if_false, if_true]

end

theorem exec_preempt_attached (ha : s.attachDue gid g = true) : exec (.preempt gid) s = .next (s.saveGroup gid true) := by
  simp only [exec_preempt, stepPreempt, hg, ha, if_true]

section
variable (ha : s.attachDue gid g = false) (hv : s.savable g = true)
  (hh : g.state = .stopping ∨ (s.unitOf g).ctl = false ∧ (s.ctx (s.unitOf g).ctx).halted = true)
include ha hv hh

/-- A group that is stopping, or whose context has halted, is pre-empted. -/
theorem exec_preempt_stops : exec (.preempt gid) s = .next (s.preemptGroup gid) := by
  have hstop : (decide (g.state = .stopping) || !(s.unitOf g).ctl && (s.ctx (s.unitOf g).ctx).halted) = true := by
    rcases hh with hh | ⟨hc, hh⟩
    · rw [decide_eq_true hh, Bool.true_or]
    · rw [hc, hh, Bool.not_false, Bool.and_self, Bool.or_true]
  simp only [exec_preempt, stepPreempt, hg, ha, hv, hstop, Bool.not_true, Bool.false_eq_true, if_false, if_true]

theorem exec_preempt_saves (hb : s.groupBusy gid = false) (hst : s.stoppers = [])
    (hr : s.ringShort (s.unitOf g) g.core (s.partsOf gid).length = false) :
    exec (.preempt gid) s = .next (s.saveGroup gid false) := by
  rw [exec_preempt_stops hg ha hv hh, State.preemptGroup]
  simp only [hg, hb, hst, hr, List.any_nil, Bool.or_self, Bool.false_eq_true, if_false]

theorem exec_preempt_waits (hb : s.groupBusy gid = true) :
    exec (.preempt gid) s = .next (s.modGroup gid fun x => { x with state := .stopping }) := by
  rw [exec_preempt_stops hg ha hv hh, State.preemptGroup]
  simp only [hb, Bool.true_or, if_true]

end

end

/-- A launch of a higher priority waits for a core that its quotas let it have. -/
def higherWaits (s : State) (u : WorkUnit) : Bool :=
  s.units.any fun x => !x.2.ctl && decide (u.prio < x.2.prio) && s.waitsForCore x.1 x.2 &&
    (List.range 512).any fun k => s.inQuota x.1 x.2 k (s.wavesDue x.1 x.2)

/-- A saved group in its place on a core, before its image is read back: what its core releases later covers what it wrote
elsewhere (R220). -/
def State.replaceGroup (s : State) (gid core : Nat) (g : Group) (l : List Nat) : State :=
  let clean := if core = g.core then s else s.cleanCore core
  let placed := (((clean.modGroup gid fun x =>
    { x with core := core, state := if g.begun then .running else .tiles, scheds := l, sigz := (0, 0) }).modCore core fun c =>
    { c with sig := c.sig ||| g.sigz.1, z := tmax c.z (clean.sane g.sigz.2) }).loadRennet gid core g).modUnit g.unit fun x =>
      { x with giving := none }
  (g.waves.zip l).foldl (fun s e => s.modWave e.1 fun w => { w with sched := e.2 }) placed

theorem exec_groupRestore_restores {s t : State} {gid core : Nat} {g : Group} {l : List Nat}
    (hg : s.groups.get gid = some g) (hs : g.state = .saved) (hh : g.heldGo = false) (hc : (s.unitOf g).cancel = false)
    (hhalt : (s.ctx (s.unitOf g).ctx).halted = false) (hr : (s.ctx (s.unitOf g).ctx).resets = false)
    (hhigh : higherWaits s (s.unitOf g) = false) (hp : s.promised (s.unitOf g) core = false)
    (hring : s.ringShort (s.unitOf g) core (s.partsOf gid).length = false)
    (hq : s.qualifies g.unit (s.unitOf g) core (g.liveWaves (s.unitOf g)) = some l)
    (ht : (s.replaceGroup gid core g l).loadGroupImage { g with core := core } gid = (t, true)) :
    exec (.groupRestore gid core) s = .next (t.restoreParts (t.partsOf gid)) := by
  have hno : (g.state != .saved || g.heldGo || (s.unitOf g).cancel || (s.ctx (s.unitOf g).ctx).halted ||
      (s.ctx (s.unitOf g).ctx).resets || higherWaits s (s.unitOf g) || s.promised (s.unitOf g) core ||
      s.ringShort (s.unitOf g) core (s.partsOf gid).length) = false := by
    simp only [hs, hh, hc, hhalt, hr, hhigh, hp, hring, bne_self_eq_false, Bool.or_self]
  simp only [exec_groupRestore, stepGroupRestore, hg]
  refine congrArg Host.Outcome.next ((if_neg (ne_true_of_eq_false hno)).trans ?_)
  rw [hq]
  change (match (s.replaceGroup gid core g l).loadGroupImage { g with core := core } gid with
    | (t, true) => t.restoreParts (t.partsOf gid)
    | (t, false) => t.beginReset (s.unitOf g).ctl (s.unitOf g).ctx) = _
  rw [ht]

/-! ### The active set (R292, R293, R371) -/

section
variable {s : State} {core sched : Nat} {inn out : PartRef × Part}

section
variable (hi : s.oldest ((s.slotted core sched).filter fun x => !x.2.front && x.2.isReady) = some inn)
  (ha : s.swapAllowed inn.1 = true)
include hi ha

theorem exec_partSwap_enters (hr : s.frontRoom core sched = true) : exec (.partSwap core sched) s =
    .next (s.modPart inn.1 fun p => { p with front := true, inSet := 0, queued := 0 }) := by
  simp only [exec_partSwap, stepPartSwap, hi, ha, hr, Bool.not_true, Bool.false_eq_true, if_false, if_true]

theorem exec_partSwap_swaps (hr : s.frontRoom core sched = false)
    (ho : leastBy (fun x => 2 ^ 64 - x.2.waited)
      ((s.slotted core sched).filter fun x => x.2.front && !x.2.isReady && x.2.yields) = some out) :
    exec (.partSwap core sched) s = .next (s.swapParts out.1 inn.1) := by
  simp only [exec_partSwap, stepPartSwap, hi, ha, hr, ho, Bool.not_true, Bool.false_eq_true, if_false]

end

theorem exec_forcedSwap_swaps (hs : sched < 4) (hat : 4 ≤ (s.core core).swapAt.getD sched 4)
    (hi : s.oldest ((s.slotted core sched).filter fun x => !x.2.front && x.2.isReady && 256 ≤ x.2.queued) = some inn)
    (ho : leastBy (fun x => 2 ^ 64 - x.2.inSet) ((s.slotted core sched).filter fun x => x.2.front) = some out)
    (ha : s.swapAllowed inn.1 = true) : exec (.forcedSwap core sched) s =
      .next ((s.swapParts out.1 inn.1).modCore core fun c => { c with swapAt := c.swapAt.set sched 0 }) := by
  have hgo : (decide ((s.core core).swapAt.getD sched 4 < 4) || decide (4 ≤ sched)) = false := by
    simp only [decide_eq_false (Nat.not_lt.mpr hat), decide_eq_false (Nat.not_le.mpr hs), Bool.or_self]
  simp only [exec_forcedSwap, stepForcedSwap, hgo, hi, ho, ha, Bool.not_true, Bool.false_eq_true, if_false]

end

theorem exec_partRestore_restores {s : State} {p : PartRef} {o : Who} {k : Nat} (ho : s.who p = some o)
    (hs : o.p.status = .ready) (hg : o.g.state = .running) (hc : o.u.cancel = false)
    (hk : s.freeSlot o.u o.g.unit o.g.core o.w.sched = some k) (hr : s.ringShort o.u o.g.core 1 = false) :
    exec (.partRestore p) s = .next (s.restorePart o k) := by
  simp only [exec_partRestore, stepPartRestore, ho, hs, hg, hc, hk, hr, bne_self_eq_false, Bool.or_self,
    Bool.false_eq_true, if_false]

/-- Settles O55: each event finds its group or its parts and passes its guard; the k-th wave of a group enters in the state
that the k before it leave. -/
theorem groupsAndActiveSet : Obligations.GroupsAndActiveSet := by
  refine ⟨fun s t unit gid core u g l => ⟨fun hu hw hn hsaved hr hb hp hlog hq hm => ?placed, fun hg hs hh hc ht => ?waves,
      fun hg hb hst => ⟨exec_groupEnd_cancelled hg hb hst, exec_groupEnd_over hg hb hst⟩, exec_preempt_attached,
      fun hg ha hv hh => ⟨exec_preempt_saves hg ha hv hh, exec_preempt_waits hg ha hv hh⟩, exec_groupRestore_restores⟩,
    fun s core sched inn out p o k => ⟨fun hi ha => ⟨exec_partSwap_enters hi ha, exec_partSwap_swaps hi ha⟩,
      exec_forcedSwap_swaps, exec_partRestore_restores⟩⟩
  case placed =>
    obtain ⟨t, ht, hx⟩ := freshGroup_dispatched hu hw hn hsaved hr hb hp hlog hq hm
    exact ⟨t, _, ht, hx, rfl, rfl, rfl, rfl, rfl, rfl, rfl, rfl, rfl, rfl⟩
  case waves =>
    intro u entering
    have hall : entering g.scheds.length = (s.startGroup gid).enterWaves gid g.core u g.order :=
      congrArg (State.enterWaves (s.startGroup gid) gid g.core u) (List.take_of_length_le (by simp))
    rw [hall]
    refine ⟨exec_waveDispatch_enters hg hs hh hc ht, fun k j hj => ?_⟩
    obtain ⟨p, hp⟩ := entry_firstWave { entering k with fresh := (entering k).fresh + 1 } g.core gid u k j
      (((entering k).freeSlot u g.unit g.core j).getD 0) ((entering k).frontRoom g.core j)
    exact ⟨_, p, waves_startGroup u hg hj, rfl, rfl, rfl, rfl, congrArg (· + 1) (fresh_startGroup u hj), rfl, rfl,
      fun r q => sreg_firstWave _ _ _ _ _ _ _ _ r, fun q => fmt_cutp_firstWave _ _ _ _ _ _ _ _,
      fun l => exited_firstWave _ _ _ _ _ _ _ _, hp.parts, hp.pc, hp.active, hp.stack, hp.rep, hp.status, hp.check, hp.late,
      hp.kc, hp.slot, hp.front⟩

end Sys2Proof.Machine
end

section
/-! PROOFS. Freezes, breakpoints and profile samples (R382, R383, R386, R389), and writes of HPCTL, QBKT and the other control
registers (R323, R326, R327, R343, R351). -/

namespace Sys2Proof.Machine

open Sys2Proof

/-! ### Freezes (R389) -/

section
variable {s : State} {core : Nat}

/-- Which groups a freeze holds is a matter of its context, not of what else its core holds. -/
theorem State.frozenGroups_modCore (f : Core → Core) (h : (f (s.core core)).freeze.ctx = (s.core core).freeze.ctx) :
    (s.modCore core f).frozenGroups core = s.frozenGroups core := by
  have hctx : ((s.modCore core f).core core).freeze.ctx = (s.core core).freeze.ctx := by
    rw [State.modCore_core, if_pos rfl, h]
  unfold State.frozenGroups
  rw [hctx]
  rfl

variable (hf : (s.core core).freeze.frozen = true) (hg : s.frozenGroups core = [])
include hf hg

/-- With no group to pre-empt, the freeze is attached. -/
theorem State.attachCore_empty : s.attachCore core =
    s.modCore core fun c => { c with freeze := { c.freeze with attached := true } } := by
  simp only [State.attachCore, hf, Bool.not_true, Bool.false_eq_true, if_false, hg, List.foldl_nil,
    State.frozenGroups_modCore (fun c => { c with freeze := { c.freeze with attached := true } }) rfl]

theorem State.releaseCore_empty : s.releaseCore core = s.modCore core fun c => { c with freeze := Freeze.reset } := by
  rw [State.releaseCore, hf, Bool.not_true, if_neg Bool.false_ne_true, hg, List.foldl_nil]

theorem exec_freezeLimitExpiry_over (ht : s.tables.frzlim.toNat * 1000000 ≤ (s.core core).freeze.since) :
    exec (.freezeLimitExpiry core) s = .next (s.modCore core fun c => { c with freeze := Freeze.reset }) := by
  simp only [exec_freezeLimitExpiry, stepFreezeLimitExpiry, hf, decide_eq_true ht, Bool.and_self, if_true,
    State.releaseCore_empty hf hg]

end

/-! ### Breakpoints (R386) -/

/-- One word of one breakpoint of a core. -/
theorem State.bp_setBreak (s : State) (core n j : Nat) (v : Word) (k : Nat) : ((s.setBreak core n j v).core k).bp =
    if k = core then (s.core k).bp.modify n fun b => b.setWord j v else (s.core k).bp := by
  rw [State.setBreak, State.modCore_core]
  split
  · rw [List.modify_eq_set_getElem?]
    cases (s.core k).bp[n]? <;> rfl
  · rfl

theorem State.tlb_setBreak (s : State) (core n j : Nat) (v : Word) (k : Nat) :
    ((s.setBreak core n j v).core k).tlb = (s.core k).tlb := by
  rw [State.setBreak, State.modCore_core]
  split <;> rfl

/-- A broadcast reaches every core once. -/
theorem State.core_foldl_setBreak (s : State) (n j : Nat) (v : Word) (m k : Nat) :
    let t := (List.range m).foldl (fun s k => s.setBreak k n j v) s
    (t.core k).bp = (if k < m then (s.core k).bp.modify n fun b => b.setWord j v else (s.core k).bp) ∧
      (t.core k).tlb = (s.core k).tlb ∧ t.mem = s.mem := by
  induction m with
  | zero => exact ⟨rfl, rfl, rfl⟩
  | succ m ih =>
    obtain ⟨hbp, htlb, hmem⟩ := ih
    dsimp only
    rw [List.range_succ, List.foldl_append, List.foldl_cons, List.foldl_nil, State.bp_setBreak, State.tlb_setBreak, hbp]
    refine ⟨?_, htlb, hmem⟩
    by_cases hk : k = m
    · rw [if_pos hk, if_neg (by omega), if_pos (by omega)]
    · rw [if_neg hk]
      by_cases hlt : k < m
      · rw [if_pos hlt, if_pos (by omega)]
      · rw [if_neg hlt, if_neg (by omega)]

theorem exec_bpBroadcastWrite_all {s : State} {n j : Nat} {v : Word} (hn : n < 8) (hj : j < 4) :
    exec (.bpBroadcastWrite n j v) s = .next (s.setBreakAll n j v) := by
  simp only [exec_bpBroadcastWrite, stepBpBroadcastWrite, decide_eq_true hn, decide_eq_true hj, Bool.and_self, if_true]

/-! ### Profile samples (R383) -/

/-- A sample steps its scheduler's slot. -/
def State.stepSlot (s : State) (core sched : Nat) : State :=
  s.modCore core fun c => { c with slotRot := c.slotRot.set sched (((s.core core).slotRot.getD sched 0 + 1) % 48) }

/-- What a part reports in a sample. -/
theorem sampleCode_eq (p : Part) (issued : Bool) :
    sampleCode p issued = if issued then 128 else if p.stall = 0 then 31 else p.stall := by
  unfold sampleCode
  by_cases h : p.stall = 0 <;> simp [h]

section
variable {s : State} {core sched : Nat} (hc : core < 512) (hs : sched < 4)
include hc hs

theorem exec_profileSample_vacant
    (hf : (s.slotted core sched).find? (fun p => p.2.slot = (s.core core).slotRot.getD sched 0) = none) :
    exec (.profileSample core sched) s = .next (s.stepSlot core sched) := by
  replace hf : ((s.stepSlot core sched).slotted core sched).find?
      (fun p => p.2.slot = (s.core core).slotRot.getD sched 0) = none := hf
  unfold State.stepSlot at hf
  simp only [exec_profileSample, stepProfileSample, decide_eq_false (Nat.not_le.mpr hc),
    decide_eq_false (Nat.not_le.mpr hs), Bool.or_self, hf, Bool.false_eq_true, if_false]
  rfl

variable {pr : PartRef} {p : Part} {o : Who}
  (hf : (s.slotted core sched).find? (fun p => p.2.slot = (s.core core).slotRot.getD sched 0) = some (pr, p))
  (hw : s.who pr = some o)
include hf hw

/-- A sample of a slot that holds a part: a record of kind 16 goes into the ring where the part's context is profiled. -/
theorem exec_profileSample_occupied : exec (.profileSample core sched) s = .next
    (if o.u.ctl || !o.u.prof || !(s.ctx o.u.ctx).logctl.getLsbD 4 then s.stepSlot core sched
      else ((s.stepSlot core sched).nextSeq core).1.ringPut (some (clusterOf core)) (o.u.pring core) o.u.psize
        (evBytes s.time.toNat (s.core core).seq.toNat core
          { kind := 16, code := sampleCode p ((((s.core core).issued.get sched).getD []).any fun a => a.part = pr),
            wid := o.wid, part := pr.part, pc := p.pc.toNat, dseq := o.w.seqs.dseq.toNat, qmask := p.quads.toNat,
            data := sched })) := by
  replace hf : ((s.stepSlot core sched).slotted core sched).find?
      (fun p => p.2.slot = (s.core core).slotRot.getD sched 0) = some (pr, p) := hf
  replace hw : (s.stepSlot core sched).who pr = some o := hw
  have hctx : (s.stepSlot core sched).ctx o.u.ctx = s.ctx o.u.ctx := rfl
  unfold State.stepSlot at hf hw hctx ⊢
  simp only [exec_profileSample, stepProfileSample, decide_eq_false (Nat.not_le.mpr hc),
    decide_eq_false (Nat.not_le.mpr hs), Bool.or_self, hf, hw, hctx, State.nextSeq, State.modCore_time, State.modCore_core,
    if_true, Bool.false_eq_true, if_false]

theorem exec_profileSample_unprofiled (hp : (!o.u.ctl && o.u.prof && (s.ctx o.u.ctx).logctl.getLsbD 4) = false) :
    exec (.profileSample core sched) s = .next (s.stepSlot core sched) := by
  rw [exec_profileSample_occupied hc hs hf hw, if_pos]
  have hnot := congrArg not hp
  simpa only [Bool.not_and, Bool.not_not, Bool.not_false] using hnot

theorem exec_profileSample_profiled (hp : (!o.u.ctl && o.u.prof && (s.ctx o.u.ctx).logctl.getLsbD 4) = true) :
    exec (.profileSample core sched) s = .next (((s.stepSlot core sched).nextSeq core).1.ringPut (some (clusterOf core))
      (o.u.pring core) o.u.psize (evBytes s.time.toNat (s.core core).seq.toNat core
        { kind := 16, wid := o.wid, part := pr.part, pc := p.pc.toNat, dseq := o.w.seqs.dseq.toNat,
          code := if (((s.core core).issued.get sched).getD []).any fun a => a.part = pr then 128
            else if p.stall = 0 then 31 else p.stall,
          qmask := p.quads.toNat, data := sched })) := by
  rw [exec_profileSample_occupied hc hs hf hw, if_neg, sampleCode_eq]
  obtain ⟨⟨hctl, hprof⟩, hlog⟩ := by simpa only [Bool.and_eq_true, Bool.not_eq_true'] using hp
  simp only [hctl, hprof, hlog, Bool.not_true, Bool.or_self, Bool.false_eq_true, not_false_eq_true]

end

/-! ### HPCTL (R343) -/

theorem nbit_toNat {n : Nat} (v : BitVec n) (i : Nat) : nbit v.toNat i = v.getLsbD i := by
  rw [nbit, BitVec.getLsbD, Nat.testBit_eq_decide_div_mod_eq]

/-- Every core's count begins again. -/
theorem State.looks_restart (s : State) (k : Nat) :
    ({ s with cores := s.cores.map fun c => (c.1, { c.2 with looks := 0 }) } : State).core k =
      { s.core k with looks := 0 } := by
  simp only [State.core, Tbl.get_mapValues s.cores fun c : Core => { c with looks := 0 }]
  cases s.cores.get k <;> rfl

theorem State.setHpctl_valid (s : State) {v : Nat} (hlo : 8 ≤ v % 32) (hhi : v % 32 ≤ 20) :
    s.setHpctl v = { s with trans := { s.trans with hpen := nbit v 31, hplog := v % 32 },
                            cores := s.cores.map fun c => (c.1, { c.2 with looks := 0 }) } := by
  have hfield : field v 4 0 = v % 32 := by rw [field, Nat.pow_zero, Nat.div_one]; rfl
  rw [State.setHpctl, hfield, decide_eq_true hlo, decide_eq_true hhi, Bool.and_self, if_pos rfl]

/-! ### QBKT (R325 to R327) -/

theorem State.bucket_modBucket (s : State) (k : Nat) (f : Bucket → Bucket) (j : Nat) :
    (s.modBucket k f).bucket j = if j = k then f (s.bucket k) else s.bucket j := by
  rw [State.bucket, State.modBucket_buckets, Tbl.get_put]
  split <;> rfl

theorem State.bucket_modBucket_same (s : State) (k : Nat) (f : Bucket → Bucket) :
    (s.modBucket k f).bucket k = f (s.bucket k) := by rw [State.bucket_modBucket, if_pos rfl]

/-- What is set of a bucket, in this window and for the next. -/
structure Bucket.SameSettings (b c : Bucket) : Prop where
  nextB : c.nextB = b.nextB
  nextL : c.nextL = b.nextL
  nextEn : c.nextEn = b.nextEn
  en : c.en = b.en

theorem Bucket.SameSettings.trans {b c d : Bucket} (h : b.SameSettings c) (g : c.SameSettings d) : b.SameSettings d :=
  ⟨g.nextB.trans h.nextB, g.nextL.trans h.nextL, g.nextEn.trans h.nextEn, g.en.trans h.en⟩

theorem State.modBucket_sameSettings (s : State) (k : Nat) {f : Bucket → Bucket}
    (h : ∀ b : Bucket, b.SameSettings (f b)) (j : Nat) :
    (s.bucket j).SameSettings ((s.modBucket k f).bucket j) := by
  rw [State.bucket_modBucket]
  split
  · next hj => exact hj ▸ h _
  · exact ⟨rfl, rfl, rfl, rfl⟩

theorem State.inject_sameSettings (s : State) (p : Packet) (j : Nat) :
    (s.bucket j).SameSettings ((s.inject p).bucket j) := by
  have hcharge : ∀ b : Bucket, b.SameSettings (if b.en then { b with cred := b.cred - p.charge } else b) := by
    intro b
    split <;> exact ⟨rfl, rfl, rfl, rfl⟩
  unfold State.inject
  dsimp only
  split <;> exact State.modBucket_sameSettings s _ hcharge j

/-- What waits passes without a change of settings. -/
theorem State.injectHeld_sameSettings (s : State) (k n j : Nat) :
    (s.bucket j).SameSettings ((s.injectHeld k n).bucket j) := by
  induction n generalizing s with
  | zero => exact ⟨rfl, rfl, rfl, rfl⟩
  | succ n ih =>
    rw [State.injectHeld]
    split
    · exact ⟨rfl, rfl, rfl, rfl⟩
    · next p r _ =>
      split
      · refine State.modBucket_sameSettings s k ?_ j
        exact fun b => ⟨rfl, rfl, rfl, rfl⟩
      · split
        · refine ((s.inject_sameSettings p j).trans (State.modBucket_sameSettings _ k ?_ j)).trans (ih _)
          exact fun b => ⟨rfl, rfl, rfl, rfl⟩
        · exact ⟨rfl, rfl, rfl, rfl⟩

/-- With its bucket disabled, everything that waits and has no endpoint goes. -/
theorem State.injectHeld_drains {k : Nat} (n : Nat) {s : State} (hen : (s.bucket k).en = false)
    (hn : (s.bucket k).held.length ≤ n)
    (hp : ∀ p ∈ (s.bucket k).held, bucketKey p.port p.cls = k ∧ p.sink = noSink) :
    ((s.injectHeld k n).bucket k).held = [] := by
  induction n generalizing s with
  | zero => exact List.length_eq_zero_iff.mp (Nat.le_zero.mp hn)
  | succ n ih =>
    rw [State.injectHeld]
    split
    · next hnil => exact hnil
    · next p r hcons =>
      obtain ⟨hkey, hsink⟩ := hp p (hcons ▸ List.mem_cons_self)
      have hopen : s.bucketOpen p = true := by rw [State.bucketOpen, hkey, hen]; rfl
      have hsinkOpen : s.sinkOpen p = true := by rw [State.sinkOpen, hsink]; rfl
      have hnext : ((s.inject p).modBucket k fun b => { b with held := r }).bucket k =
          { (s.inject p).bucket k with held := r } := State.bucket_modBucket_same _ _ _
      rw [hopen, if_neg (by decide), if_pos hsinkOpen]
      refine ih ?_ ?_ ?_
      · rw [hnext]
        exact (s.inject_sameSettings p k).en.trans hen
      · rw [hcons, List.length_cons] at hn
        rw [hnext]
        exact Nat.le_of_succ_le_succ hn
      · rw [hnext]
        exact fun q hq => hp q (hcons ▸ List.mem_cons_of_mem p hq)

/-- What a write of QBKT sets of its bucket (R326): BURST and LIMIT for the next window; with EN 0 it is disabled at once. -/
def Bucket.write (b : Bucket) (v : Nat) : Bucket :=
  { b with nextB := min (field v 26 16) 1024, nextL := min (field v 10 0) 1024, nextEn := nbit v 31,
           en := nbit v 31 && b.en }

section
variable (s : State) {port cls v : Nat} (hport : port ≤ 82) (hcls : cls ≤ 3)
include hport hcls

theorem State.setBucket_enabled (hv : nbit v 31 = true) :
    s.setBucket port cls v = s.modBucket (bucketKey port cls) fun b => b.write v := by
  simp only [State.setBucket, decide_eq_false (Nat.not_lt.mpr hport), decide_eq_false (Nat.not_lt.mpr hcls),
    Bool.or_self, Bool.false_eq_true, if_false, Bucket.write, hv, if_true, Bool.true_and]

theorem State.setBucket_disabled (hv : nbit v 31 = false) : s.setBucket port cls v =
    (s.modBucket (bucketKey port cls) fun b => b.write v).injectHeld (bucketKey port cls)
      (s.bucket (bucketKey port cls)).held.length := by
  simp only [State.setBucket, decide_eq_false (Nat.not_lt.mpr hport), decide_eq_false (Nat.not_lt.mpr hcls),
    Bool.or_self, Bool.false_eq_true, if_false, Bucket.write, hv, Bool.false_and,
    State.bucket_modBucket, if_true]

/-- Settings of the bucket after the write. -/
theorem State.setBucket_sameSettings : ((s.bucket (bucketKey port cls)).write v).SameSettings
    ((s.setBucket port cls v).bucket (bucketKey port cls)) := by
  cases hv : nbit v 31 with
  | true => rw [State.setBucket_enabled s hport hcls hv, State.bucket_modBucket_same]; exact ⟨rfl, rfl, rfl, rfl⟩
  | false =>
    rw [State.setBucket_disabled s hport hcls hv, ← State.bucket_modBucket_same s (bucketKey port cls) fun b => b.write v]
    exact State.injectHeld_sameSettings _ _ _ _

theorem State.setBucket_drains (hv : nbit v 31 = false) (hp : ∀ p ∈ (s.bucket (bucketKey port cls)).held,
    bucketKey p.port p.cls = bucketKey port cls ∧ p.sink = noSink) :
    ((s.setBucket port cls v).bucket (bucketKey port cls)).held = [] := by
  rw [State.setBucket_disabled s hport hcls hv]
  refine State.injectHeld_drains _ ?_ ?_ ?_ <;> rw [State.bucket_modBucket_same]
  · rw [Bucket.write, hv, Bool.false_and]
  · exact Nat.le_refl _
  · exact hp

end

theorem Bucket.window_cred_begun {b : Bucket} (hen : b.en = false) (hnext : b.nextEn = true) :
    b.window.cred = b.nextL + b.nextB := by
  simp only [Bucket.window, hen, hnext, Bool.false_eq_true, if_false, if_true]

theorem exec_registerWrite_asked {s : State} (off : Nat) (w : Dword) (h : s.ioWaits = false) :
    exec (.registerWrite off w) s = .next (s.ioAsk.ctrlWrite (ctrlReg off).1 (leBytes (ctrlReg off).2 w.toNat)) := by
  rw [exec_registerWrite, stepRegisterWrite, h, if_neg Bool.false_ne_true]

/-- Settles O57: a write of QBKT keeps what is set of a bucket, and a disabled bucket holds nothing back. -/
theorem debugAndControlRegisters : Obligations.DebugAndControlRegisters := by
  refine ⟨fun s core n j sched v => ⟨fun hf hg => ⟨?_, ?_, ?_⟩, fun _ => ⟨rfl, rfl⟩, fun hn hj => ?_, fun hc hs =>
    ⟨exec_profileSample_vacant hc hs, fun pr p o hf hw =>
      ⟨exec_profileSample_unprofiled hc hs hf hw, exec_profileSample_profiled hc hs hf hw⟩⟩⟩,
    fun s v w port cls off => ⟨fun hlo hhi => ?_, fun hport hcls => ?_, exec_registerWrite_asked off w⟩⟩
  · exact congrArg Host.Outcome.next (State.attachCore_empty hf hg)
  · exact congrArg Host.Outcome.next (State.releaseCore_empty hf hg)
  · exact exec_freezeLimitExpiry_over hf hg
  · refine ⟨_, exec_bpBroadcastWrite_all hn hj, (State.core_foldl_setBreak s n j v 512 0).2.2, fun k hk => ?_⟩
    obtain ⟨hbp, htlb, -⟩ := State.core_foldl_setBreak s n j v 512 k
    exact ⟨hbp.trans (if_pos hk), htlb⟩
  · refine ⟨_, congrArg Host.Outcome.next (State.setHpctl_valid s hlo hhi), nbit_toNat v 31, rfl, fun k => ?_⟩
    exact congrArg Core.looks (State.looks_restart s k)
  · obtain ⟨hB, hL, hEn, hen⟩ := State.setBucket_sameSettings s hport hcls (v := v.toNat)
    have hbit := nbit_toNat v 31
    have hhi : field v.toNat 26 16 = v.toNat / 65536 % 2048 := rfl
    have hlow : field v.toNat 10 0 = v.toNat % 2048 := by rw [field, Nat.pow_zero, Nat.div_one]; rfl
    refine ⟨_, rfl, hB.trans (by rw [← hhi, Bucket.write]), hL.trans (by rw [← hlow, Bucket.write]),
      hEn.trans hbit, fun hv => ⟨?_, ?_⟩, fun hv => ?_⟩
    · rw [hen, Bucket.write, hbit, hv, Bool.false_and]
    · exact State.setBucket_drains s hport hcls (hbit.trans hv)
    · have hset := State.setBucket_enabled s hport hcls (hbit.trans hv)
      have hwritten : (s.setBucket port cls v.toNat).bucket (bucketKey port cls) =
          (s.bucket (bucketKey port cls)).write v.toNat := by
        rw [hset, State.bucket_modBucket_same]
      have hon : (s.bucket (bucketKey port cls)).write v.toNat = { s.bucket (bucketKey port cls) with
          nextB := min (field v.toNat 26 16) 1024, nextL := min (field v.toNat 10 0) 1024, nextEn := true } := by
        rw [Bucket.write, hbit, hv, Bool.true_and]
      rw [hwritten, hon]
      exact ⟨rfl, rfl, rfl, rfl, fun hoff => Bucket.window_cred_begun hoff rfl⟩

end Sys2Proof.Machine
end

section
/-! PROOFS. Resets (R409, R410), the steps of the boot ROM (R411, R413), and what is answered outside (R351, R358, R414). -/

namespace Sys2Proof.Machine

open Sys2Proof

/-! ### Resets (R409, R410) -/

/-- A state as reset leaves it but for what either kind of reset may keep: the memories, the assay rings, device time and
the boot registers. -/
def State.Blank (t : State) : Prop := t =
  { State.reset with mem := t.mem, dies := t.dies, time := t.time, wrapped := t.wrapped, boot := t.boot, fresh := t.fresh,
                     out := t.out, turns := t.turns, cur := t.cur, ctr := t.ctr }

/-- What either kind of reset clears. -/
def State.Cleared (t : State) : Prop :=
  t.waves = [] ∧ t.groups = [] ∧ t.units = [] ∧ t.ops = [] ∧ t.mem.l2 = [] ∧
    t.boot.phase = 0 ∧ t.boot.ready = false ∧ t.heat.trip = 0 ∧ t.buckets = [] ∧ ∀ k, t.seqclk k = 0 ∧
      (t.core k).sig = 0 ∧ (t.core k).z = 0 ∧ (t.core k).f = 0 ∧ (t.core k).clk = 0 ∧ (t.core k).tlb = [] ∧
      (t.core k).l1 = [] ∧ (t.core k).tex = [] ∧ (t.core k).rays = [] ∧ (t.core k).rennet = [] ∧
      (t.cluster k).tlb = [] ∧ t.slice k = Slice.reset ∧ t.ctx k = Context.reset

theorem State.Blank.cleared {t : State} (h : t.Blank) (hl2 : t.mem.l2 = []) (hphase : t.boot.phase = 0)
    (hready : t.boot.ready = false) : t.Cleared := by
  unfold State.Blank at h
  rw [h]
  exact ⟨rfl, rfl, rfl, rfl, hl2, hphase, hready, rfl, rfl, fun k =>
    ⟨rfl, rfl, rfl, rfl, rfl, rfl, rfl, rfl, rfl, rfl, rfl, rfl, rfl⟩⟩

theorem State.coldStart_cleared (s : State) : s.coldStart.Cleared :=
  State.Blank.cleared rfl rfl rfl rfl

theorem State.warmStart_cleared (s : State) (kind : BitVec 4) (written : List Nat) : (s.warmStart kind written).Cleared :=
  State.Blank.cleared rfl rfl rfl rfl

/-- Lines that reach GDDR7 change device memory only. -/
theorem State.writeBacks_keep (s : State) (written : List Nat) :
    let t := written.foldl (fun s l => s.writeBack (128 * l) 128) s
    t.time = s.time ∧ t.dies = s.dies ∧ t.mem.flash = s.mem.flash ∧ t.mem.ws = s.mem.ws :=
  List.foldlRecOn (motive := fun t : State =>
    t.time = s.time ∧ t.dies = s.dies ∧ t.mem.flash = s.mem.flash ∧ t.mem.ws = s.mem.ws) _ _
    ⟨rfl, rfl, rfl, rfl⟩ fun _ h _ _ => h

/-- A warm reset frees the dies' assay rings and numbers their records anew. -/
theorem State.warmStart_die (s : State) (kind : BitVec 4) (written : List Nat) (d : Nat) :
    (s.warmStart kind written).die d = { s.die d with frozen := false, seq := 0 } := by
  obtain ⟨-, hdies, -, -⟩ := s.writeBacks_keep written
  have hmap := Tbl.get_mapValues s.dies (fun a : Assay => { a with frozen := false, seq := 0 }) d
  rw [State.die, State.warmStart, hdies]
  refine (congrArg (Option.getD · Assay.reset) hmap).trans ?_
  rw [State.die]
  cases s.dies.get d <;> rfl

/-! ### The boot ROM (R411, R413) -/

section
variable {s : State} {b : BootIn}

theorem State.romTurn_powered (hr : s.boot.rom = some b) (hp : s.heat.powered = true) : s.romTurn = s.bootStep b := by
  rw [State.romTurn, hr]
  exact if_pos hp

/-- Step 3 takes slot A's image, or else slot B's. -/
theorem pickImage_eq (flash : Memory) : (pickImage flash).map (fun e => (e.1, e.2.1)) =
    ((imageAt flash 0).map fun e => (false, e.1)).or ((imageAt flash 0x01000000).map fun e => (true, e.1)) := by
  unfold pickImage
  cases imageAt flash 0 with
  | some e => rfl
  | none => cases imageAt flash 0x01000000 <;> rfl

theorem State.setBytes_dev_boot (s : State) (a : Nat) (d : List Byte) : (s.setBytes (.dev a) d).boot = s.boot := by
  unfold State.setBytes
  dsimp only
  split <;> rfl

theorem State.bootStep_self (h : s.boot.phase = 0) :
    s.bootStep b = if b.selfOk then s.setPhase 1 else s.bootStop 1 := by
  unfold State.bootStep
  rw [h] <;> rfl

theorem State.bootStep_badDie (h : s.boot.phase = 1) {d : BitVec 2} (hd : b.badDie = some d) :
    s.bootStep b = s.bootStop (16 + d.toNat) := by
  unfold State.bootStep
  rw [h, hd] <;> rfl

theorem State.bootStep_memory (h : s.boot.phase = 1) (hd : b.badDie = none) : s.bootStep b = s.bootMemory := by
  unfold State.bootStep
  rw [h, hd] <;> rfl

theorem State.bootStep_noImage (h : s.boot.phase = 2) (hi : pickImage s.mem.flash = none) :
    s.bootStep b = s.bootStop 32 := by
  unfold State.bootStep
  rw [h, hi] <;> rfl

theorem State.bootStep_image (h : s.boot.phase = 2) {e : Bool × Nat × Nat} (hi : pickImage s.mem.flash = some e) :
    s.bootStep b = s.bootImage e := by
  unfold State.bootStep
  rw [h, hi] <;> rfl

theorem State.bootStep_link (h : s.boot.phase = 3) :
    s.bootStep b = if b.linkOk then s.setPhase 4 else s.bootStop 48 := by
  unfold State.bootStep
  rw [h] <;> rfl

theorem State.bootStep_ports (h : s.boot.phase = 4) :
    s.bootStep b = { s with boot := { s.boot with portdown := b.portsDown } }.setPhase 5 := by
  unfold State.bootStep
  rw [h] <;> rfl

theorem State.bootStep_launch (h : s.boot.phase = 5) : s.bootStep b = s.bootLaunch := by
  unfold State.bootStep
  rw [h] <;> rfl

end

/-- What a step that fails leaves: the ROM has stopped with its error. -/
def State.BootStops (s t : State) (e : Nat) : Prop :=
  t.boot.err = BitVec.ofNat 12 e ∧ t.boot.rom = none ∧ t.boot.phase = s.boot.phase ∧ t.mem = s.mem

theorem State.bootStop_stops (s : State) (e : Nat) : s.BootStops (s.bootStop e) e := ⟨rfl, rfl, rfl, rfl⟩

/-- What a step that succeeds leaves: the ROM goes on. -/
def State.BootEnds (s t : State) (b : BootIn) (n : Nat) : Prop :=
  t.boot.phase = BitVec.ofNat 4 n ∧ t.boot.err = s.boot.err ∧ t.boot.rom = some b

section
variable {s : State} {b : BootIn} (hr : s.boot.rom = some b)
include hr

theorem State.setPhase_ends (n : Nat) : s.BootEnds (s.setPhase n) b n := ⟨rfl, rfl, hr⟩

theorem State.bootMemory_ends : s.BootEnds s.bootMemory b 2 := by
  unfold State.bootMemory
  split <;> exact ⟨rfl, rfl, hr⟩

/-- The image that is picked is in memory and measured. -/
theorem State.bootImage_ends (e : Bool × Nat × Nat) : s.BootEnds (s.bootImage e) b 3 ∧ (s.bootImage e).boot.slot = e.1 ∧
    (s.bootImage e).boot.digest = Config.sm3 (s.mem.flash.bytes (if e.1 then 0x01000000 else 0) e.2.1) := by
  have hboot := s.setBytes_dev_boot 0x00100000 (s.mem.flash.bytes (if e.1 then 0x01000000 else 0) e.2.1)
  have herr := congrArg Boot.err hboot
  have hrom := (congrArg Boot.rom hboot).trans hr
  exact ⟨⟨rfl, herr, hrom⟩, rfl, rfl⟩

end

theorem State.bootMemory_cold {s : State} (h : s.boot.rkind = 1) :
    s.bootMemory.mem.gddr = [] ∧ s.bootMemory.mem.ws = [] := by
  rw [State.bootMemory, if_pos h]
  exact ⟨rfl, rfl⟩

theorem State.bootMemory_warm {s : State} (h : s.boot.rkind ≠ 1) : s.bootMemory.mem = s.mem := by
  rw [State.bootMemory, if_neg h, State.setPhase]

/-- What the last step launches. -/
theorem State.bootLaunch_unit (s : State) : ∃ n u, s.bootLaunch.units.get n = some u ∧ u.ctl = true ∧ u.state = .running ∧
    u.words = firmwareWords s.boot.image.2 s.boot.image.1 s.boot.status :=
  ⟨s.fresh, _, Tbl.get_put_same _ _ _, rfl, rfl, rfl⟩

/-- The steps of the ROM that are one flag's: it passes, or the ROM stops. -/
theorem State.romTurn_flag {s : State} {b : BootIn} (hr : s.boot.rom = some b) {ok : Bool} {n e : Nat}
    (h : s.romTurn = if ok then s.setPhase n else s.bootStop e) :
    (ok = true → s.BootEnds s.romTurn b n ∧ s.romTurn.mem = s.mem) ∧ (ok = false → s.BootStops s.romTurn e) := by
  rw [h]
  refine ⟨fun hok => ?_, fun hok => ?_⟩ <;> subst hok
  · exact ⟨State.setPhase_ends hr n, rfl⟩
  · exact s.bootStop_stops e

/-! ### What is answered outside (R351, R358, R411, R414) -/

section
variable {s : State} (hp : s.heat.powered = true) (hw : s.ioWaits = false)
include hp hw

theorem exec_configRequest_retry (a : Word) (w : Option Word) (h : s.boot.phase.toNat < 4) :
    exec (.configRequest a w) s = .next (s.ioAsk.send .configRetry) := by
  simp only [exec_configRequest, stepConfigRequest, hp, hw, (State.Charged.ioAsk s).boot, h, Bool.not_true, Bool.or_self,
    Bool.false_eq_true, if_false, if_true]

theorem exec_configRequest_answered (a : Word) (w : Option Word) (h : 4 ≤ s.boot.phase.toNat) :
    exec (.configRequest a w) s =
      .next (s.ioAsk.send (.configData (if w.isSome then 0 else Config.configSpace a))) := by
  simp only [exec_configRequest, stepConfigRequest, hp, hw, (State.Charged.ioAsk s).boot, Nat.not_lt.mpr h, Bool.not_true,
    Bool.or_self, Bool.false_eq_true, if_false]

end

/-- Either kind of reset, and what it keeps. -/
theorem resets_keep (s : State) (b : BootIn) :
    (s.coldStart.Cleared ∧ s.coldStart.time = 0 ∧ s.coldStart.dies = [] ∧ s.coldStart.boot.rkind = 1 ∧
      s.coldStart.mem.flash = s.mem.flash ∧ s.coldStart.mem.gddr = s.mem.gddr ∧ s.coldStart.mem.ws = s.mem.ws) ∧
    ∀ k, (s.warmStart k b.written).Cleared ∧ (s.warmStart k b.written).time = s.time ∧
      (s.warmStart k b.written).mem.flash = s.mem.flash ∧ (s.warmStart k b.written).mem.ws = s.mem.ws ∧
      (s.warmStart k b.written).boot.rkind = k ∧ (b.written = [] → (s.warmStart k b.written).mem.gddr = s.mem.gddr) ∧
      ∀ d, ((s.warmStart k b.written).die d).recs = (s.die d).recs ∧
        ((s.warmStart k b.written).die d).tail = (s.die d).tail ∧
        ((s.warmStart k b.written).die d).drop = (s.die d).drop := by
  refine ⟨⟨s.coldStart_cleared, rfl, rfl, rfl, rfl, rfl, rfl⟩, fun k => ?_⟩
  obtain ⟨htime, -, hflash, hws⟩ := s.writeBacks_keep b.written
  refine ⟨s.warmStart_cleared k b.written, htime, hflash, hws, rfl, fun hnone => ?_, fun d => ?_⟩
  · rw [hnone]
    rfl
  · rw [State.warmStart_die]
    exact ⟨rfl, rfl, rfl⟩

/-- Settles O59: a reset leaves a blank state, and each of the ROM's steps follows from the phase that it finds. -/
theorem resetsAndBringUp : Obligations.ResetsAndBringUp := by
  refine ⟨fun s b => ⟨⟨rfl, fun hp => ?_, fun hp hfatal => ?_, fun hl => ?_⟩,
      (resets_keep s b).1, (resets_keep s b).2, rfl, rfl⟩,
    fun s b hr hp => ?_, fun s a w nonce => ⟨fun hp hw => ⟨exec_configRequest_retry hp hw a w, fun h =>
      ⟨_, exec_configRequest_answered hp hw a w h⟩⟩, fun hl => ?_, fun h => ?_⟩⟩
  · rw [exec_warmResetHost, stepWarmResetHost, if_pos hp]
  · rw [exec_warmResetFatal, stepWarmResetFatal, hp, hfatal, Bool.and_self, if_pos rfl]
  · simp only [exec_rstreqWrite, stepRstreqWrite, hl, decide_true, Bool.and_self, if_true]
  · have hturn := State.romTurn_powered hr hp
    refine ⟨fun h => State.romTurn_flag hr (hturn.trans (State.bootStep_self h)), fun h => ⟨fun d hd => ?_, fun hd => ?_⟩,
      fun h => ?_, fun h => State.romTurn_flag hr (hturn.trans (State.bootStep_link h)), fun h => ?_, fun h => ?_⟩
    · rw [hturn, State.bootStep_badDie h hd]
      exact s.bootStop_stops _
    · rw [hturn, State.bootStep_memory h hd]
      exact ⟨State.bootMemory_ends hr, State.bootMemory_cold, State.bootMemory_warm⟩
    · rw [hturn]
      intro slot
      have hpick : (slot false).or (slot true) = _ := (pickImage_eq s.mem.flash).symm
      rw [hpick]
      cases hi : pickImage s.mem.flash with
      | none =>
        rw [State.bootStep_noImage h hi]
        exact s.bootStop_stops 32
      | some e =>
        rw [State.bootStep_image h hi]
        exact State.bootImage_ends hr e
    · rw [hturn, State.bootStep_ports h]
      exact ⟨⟨rfl, rfl, hr⟩, rfl, rfl⟩
    · rw [hturn, State.bootStep_launch h]
      exact ⟨rfl, rfl, rfl, rfl, s.bootLaunch_unit⟩
  · rw [exec_spdmRequest, stepSpdmRequest, if_pos hl]
  · rw [exec_bootctlReadyWrite, stepBootctlReadyWrite, if_pos h, State.setReady]

end Sys2Proof.Machine
end
